-- ==== Sys2Proof/Word.lean ====
section
/-! DEFINITION. The word types of the Zalek: the byte of memory and of packets, the 32-bit register word and the 64-bit value. -/

namespace Sys2Proof

/-- One byte of memory, of a datagram or of a flit. -/
abbrev Byte := BitVec 8
/-- A register word (15 R335: every register is 32 bits wide). -/
abbrev Word := BitVec 32
/-- A 64-bit value, held in two registers or in an event record. -/
abbrev DWord := BitVec 64

end Sys2Proof
end

