-- ==== Sys2Proof/Syntax.lean ====
section
/-! DEFINITION. The commands of the block: one constructor of Instr per row of the command table, with the operands each
carries. What firmware, an engine or the environment chooses freely (a placement, an outcome, a reading) is an operand. -/

namespace Sys2Proof

/-- The status codes of 13 R300. -/
inductive Status where
  | ok | pending | badOpcode | badParam | badShape | badAddress | noResource | resourceBusy | notPrivileged | authFail
  | seqConflict | stale | profileMissing | profileMismatch | admissionRefused | streamDamaged | scaleSkew | domainViolation
  | fenced | recovering | timeout | twinDiverge
  deriving DecidableEq, Repr, Inhabited

/-- A command datagram of 13 R286 and R287 as it reaches an Ethernet port: the header fields, the parameter bytes and the
tag, and how the datagram arrived. The OPCODE field is the command's constructor. -/
structure Datagram where
  /-- the port it arrived on -/
  port : Nat
  /-- the source address, and the source UDP port, of the request -/
  srcAddr : Nat
  srcPort : Nat
  /-- whether it is an IP fragment (R286) -/
  fragment : Bool
  /-- datagrams already waiting in the interpreter's queue of 1,024 (R286) -/
  ahead : Nat
  magic : BitVec 16
  version : BitVec 8
  flags : BitVec 8
  session : BitVec 32
  sequence : BitVec 32
  paramLen : BitVec 16
  status : BitVec 16
  reserved1 : BitVec 16
  gts : BitVec 64
  reserved2 : BitVec 32
  /-- the payload after the header, without the last 16 bytes -/
  params : List Byte
  /-- the last 16 bytes of the payload; fewer when the payload is too short to hold them -/
  tag : List Byte
  deriving DecidableEq, Repr

/-- Who makes a register access (15 R338). -/
inductive Master where
  | session (number : Nat)
  | shell
  | firmware
  deriving DecidableEq, Repr

/-- One register write, or one access to IND_DATA: the master, the die and the value written. -/
structure Access where
  master : Master
  die : Nat
  value : Word
  deriving DecidableEq, Repr

/-- The half of a 64-bit register that a write names (15 R342). -/
inductive Half where
  | lo | hi | both
  deriving DecidableEq, Repr

/-- A hardware thread: die, unit (region × 32 + cluster × 8 + unit) and context (06 R116, R121). -/
structure ThreadId where
  die : Nat
  unit : Nat
  ctx : Nat
  deriving DecidableEq, Repr

/-- The engines that take chunks, by the ENGINE code of 17 R401. -/
inductive Engine where
  | tensor | vector | sfu | agen | lane | match_ | motion | fabric
  deriving DecidableEq, Repr

/-- A reset domain (17 R382). -/
inductive Domain where
  | region (die region : Nat)
  | die (die : Nat)
  | package
  deriving DecidableEq, Repr

/-- The memory that reports an uncorrectable error (17 R385). -/
inductive MemKind where
  | scratchpad | pod | deepSram | lpddr
  deriving DecidableEq, Repr

/-- An element with an instance record (15 R347): its block and its index there. -/
inductive Element where
  | d2d (i : Nat)
  | memCh (i : Nat)
  | dsr (i : Nat)
  | ent (i : Nat)
  | lze (i : Nat)
  | mse (i : Nat)
  | rgn (region i : Nat)
  deriving DecidableEq, Repr

/-- A list that firmware instantiates for a tile (09 R195): the tile, its thread, the list's address, and the network and the place in it
of the template; and what firmware binds its buffer identifiers to. -/
structure Placement where
  tile : Nat
  thread : ThreadId
  addr : Nat
  net : Nat
  list : Nat
  /-- addresses by buffer identifier -/
  buffers : List (Nat × Nat) := []
  /-- buffers that reference features fill: identifier, slot of the reference store, and the MOTION network (10 R226) -/
  refs : List (Nat × Nat × Nat) := []
  /-- buffers that the tile's input planes fill, on an encoding stream -/
  inputs : List Nat := []
  deriving DecidableEq, Repr

/-- How firmware runs an iteration of a TRAIN job (09 R217): the context, where it instantiates each list, the addresses by buffer
identifier, and the buffers that hold a tile's input, LAMBDA, U and V of each trained layer in order, and their gradients. -/
structure TrainRun where
  thread : ThreadId
  addr : Nat
  buffers : List (Nat × Nat)
  input : Nat
  lambda : Nat
  factors : List Nat
  grads : List Nat
  deriving DecidableEq, Repr

/-- How firmware merges adaptations (09 R214; 12 R275): a die, and for each adaptable layer the address of the parity copy it placed
there; and the delta records that it takes up with the picture, on an encoding stream. -/
structure MergeRun where
  bases : List (Nat × List Nat)
  records : List (List Byte)
  deriving DecidableEq, Repr

/-- A PTP time stamp: seconds and nanoseconds (16 R371). -/
structure PtpTime where
  sec : BitVec 48
  ns : BitVec 32
  deriving DecidableEq, Repr

/-- One exchange of ALIGN messages: its four GTS stamps (16 R369). -/
structure AlignStamps where
  t1 : Nat
  t2 : Nat
  t3 : Nat
  t4 : Nat
  deriving DecidableEq, Repr

/-- Why a frame is not supported (14 R311, R313; 13 R286). -/
inductive FrameFault where
  | oversize | otherVid | ipFragment | otherMac | udpPort
  deriving DecidableEq, Repr

/-- A packet on a partner link (14 R327). -/
structure PartnerPacket where
  port : Nat
  vc : Nat
  tag : Nat
  length : Nat
  status : Status
  addr : Nat
  data : List Byte
  deriving DecidableEq, Repr

/-- The commands, in the order of the table. -/
inductive Instr where
  -- host datagrams (13)
  | hello (d : Datagram)
  | sessionOpen (d : Datagram)
  | sessionClose (d : Datagram)
  | capsQuery (d : Datagram)
  | profileLoadStage (d : Datagram)
  | profileLoadCommit (d : Datagram)
  | profileLoadAbandon (d : Datagram)
  /-- the switch of 07 R165 -/
  | bankSwitch
  | profileUnload (d : Datagram)
  | profileQuery (d : Datagram)
  | admitReq (d : Datagram)
  | streamOpen (d : Datagram)
  | streamConfig (d : Datagram)
  | streamClose (d : Datagram)
  | streamStatus (d : Datagram)
  | rateSet (d : Datagram)
  | roiSet (d : Datagram)
  | refMark (d : Datagram)
  | jobSubmitList (d : Datagram)
  | jobSubmitTrain (d : Datagram)
  | jobStatus (d : Datagram)
  | jobCancel (d : Datagram)
  | lzJob (d : Datagram)
  | lzResume (d : Datagram)
  | regRead (d : Datagram)
  | regWrite (d : Datagram)
  | eventRead (d : Datagram)
  | stickyClear (d : Datagram)
  | counterRead (d : Datagram)
  | lifelogRead (d : Datagram)
  | crashRead (d : Datagram)
  | fwStage (d : Datagram)
  | fwVerify (d : Datagram)
  | fwActivate (d : Datagram)
  /-- the read-back of the image in flash; `ok` tells whether it equals the image -/
  | fwFlashWriteDone (ok : Bool)
  | spareQuery (d : Datagram)
  | spareEngage (d : Datagram)
  | spareEngaged (die kind target : Nat)
  | islandQuiesce (d : Datagram)
  | islandQuiesceComplete (die : Nat)
  /-- `moved`: where firmware restarts each tile that returns -/
  | quiesceTileReturn (die : Nat) (moved : List (ThreadId × ThreadId))
  | islandResume (d : Datagram)
  | channelAutoResume (die : Nat)
  | recal (d : Datagram)
  | attest (d : Datagram)
  | recover (d : Datagram)
  | recoverLoadStage (d : Datagram)
  /-- `written`: whether one of the three flash writes reads back -/
  | recoverLoadCommit (d : Datagram) (written : Bool)
  | recoverReboot
  | partnerConfig (d : Datagram)
  | twinConfigEnable (d : Datagram)
  | twinConfigDisable (d : Datagram)
  | twinEnableTimeout
  | timeSyncRead (d : Datagram)
  | timeSyncAlign (d : Datagram)
  | timeSyncTrack (x : AlignStamps)
  -- SMBus (20 R442)
  | vcoreTarget
  | vcoreMeasured
  | temperature
  | power
  | status
  -- register writes with a row of their own (15, 16, 20)
  | clkRgn (a : Access) (region : Nat)
  | pwrLimit (a : Access)
  | sprSvcMode (a : Access)
  | sprThresh (a : Access) (kind : Nat)
  | hulLimits (a : Access)
  | hulMode (a : Access)
  | indData (a : Access) (write : Bool)
  | evtSticky (a : Access) (half : Half) (value : DWord)
  | evtAlert (a : Access) (half : Half) (value : DWord)
  | ethMode (a : Access)
  | ethCfgApply (a : Access)
  | ethCfgSave (a : Access)
  | lifCtrlSave (a : Access)
  | hulEvtOut (a : Access)
  | hulT7 (a : Access)
  -- operations of a thread (05, 06, 07, 10)
  | matmul (t : ThreadId)
  | conv (t : ThreadId)
  | dwconv (t : ThreadId)
  | gconv (t : ThreadId)
  | splitkReduce (t : ThreadId)
  | eltwise (t : ThreadId)
  | reduce (t : ThreadId)
  | poolMax (t : ThreadId)
  | poolAvg (t : ThreadId)
  | s2d (t : ThreadId)
  | d2s (t : ThreadId)
  | upsample (t : ThreadId)
  | copy (t : ThreadId)
  | transpose (t : ThreadId)
  | concat (t : ThreadId)
  | sfu (t : ThreadId)
  | gate (t : ThreadId)
  | norm (t : ThreadId)
  | softmax (t : ThreadId)
  | qscan (t : ThreadId)
  | qconv (t : ThreadId)
  | requant (t : ThreadId)
  | rng (t : ThreadId)
  | enc (t : ThreadId)
  | dec (t : ThreadId)
  | lzPack (t : ThreadId)
  | lzUnpack (t : ThreadId)
  | msearch (t : ThreadId)
  | warp (t : ThreadId)
  | load (t : ThreadId)
  | store (t : ThreadId)
  | prefetch (t : ThreadId)
  | atomicAdd (t : ThreadId)
  | fence (t : ThreadId)
  | barrier (t : ThreadId)
  | wait (t : ThreadId)
  | waitSatisfied (t : ThreadId)
  | waitTimeout (t : ThreadId)
  | signal (t : ThreadId)
  | checkpoint (t : ThreadId)
  -- threads and engines (06, 17)
  | listQueued (t : ThreadId) (addr : Nat)
  /-- the engine of a die (and of a unit, or of a region for `lane`, `match_`, `motion`) completes the chunk it runs; `last`:
  the operation's last chunk -/
  | chunkComplete (die : Nat) (e : Engine) (place : Nat) (last : Bool)
  | operationComplete (t : ThreadId) (e : Engine)
  /-- as chunkComplete, but the place of a `lane` is its lane number (region × 4 + lane) -/
  | chunkLimitExpiry (die : Nat) (e : Engine) (place : Nat)
  | threadWaitExpiry (t : ThreadId)
  | progressMonitor (die region : Nat)
  | poolStall (die pool : Nat)
  /-- `addr`: the address of the failing line; `reader`: the context that read it -/
  | uncorrectableError (kind : MemKind) (addr : Nat) (reader : Option ThreadId)
  /-- `target`: the SPARE_ENGAGE target of 18 R405 the error belongs to (a row or a page inside a memory) -/
  | correctableError (die : Nat) (e : Element) (target : Nat)
  | bridgeError (die index : Nat) (double : Bool)
  | fenceDrainComplete (dom : Domain)
  | sampleComplete (dom : Domain)
  /-- `failed`: units, lanes and engines (die, element) that fail self-test -/
  | resetSelftestComplete (dom : Domain) (failed : List (Nat × Element))
  | retrainComplete (dom : Domain)
  /-- `badCopies`: (die, slot) whose weight copy fails its digest -/
  | restoreComplete (dom : Domain) (badCopies : List (Nat × Nat))
  | replayRoundEnd (dom : Domain)
  | recoveryStepTimeout (dom : Domain)
  | watchdogExpiry
  | pacerTick
  -- streams (09 to 12)
  | pictureStart (stream : Nat) (places : List Placement)
  | adaptMerge (stream : Nat) (run : MergeRun)
  /-- the tile of a picture that a thread has run -/
  | tileComplete (stream picture tile : Nat) (t : ThreadId)
  | pictureComplete (stream : Nat)
  | trainIterationEnd (job : Nat) (run : TrainRun)
  | ingestDecode (stream : Nat)
  | inputRecord (stream : Nat) (bytes : List Byte)
  | streamHeader (stream : Nat)
  | pictureHeader (stream : Nat)
  | delta (stream : Nat)
  | roi (stream : Nat)
  | metadata (stream : Nat)
  | tile (stream : Nat)
  | pictureEnd (stream : Nat)
  | streamEnd (stream : Nat)
  -- Ethernet (14)
  | rdmaWrite (qpn addr rkey : Nat) (bytes : List Byte)
  | cmReq (qpn : Nat) (serviceId mtu : Nat) (altGid : Option Nat) (peer : Nat)
  | rnrNak (qpn : Nat)
  | ceMarkedPacket (qpn : Nat)
  | cnp (qpn : Nat)
  | cnpRateIncrease (qpn : Nat)
  /-- `pause`: for each priority 0 to 7, none: not named; some true: XOFF; some false: XON -/
  | pfcFrame (port : Nat) (pause : List (Option Bool))
  | arp (port : Nat) (senderMac senderIp targetIp : Nat)
  | neighbourDiscovery (port : Nat) (senderMac senderIp targetIp : Nat)
  | icmpEcho (port : Nat) (v6 : Bool) (senderMac senderIp targetIp : Nat) (payload : List Byte)
  | sync (port : Nat) (domain : Nat) (seqId : Nat)
  | followUp (port : Nat) (domain : Nat) (seqId : Nat) (origin : PtpTime)
  | delayReq (port : Nat)
  | delayResp (port : Nat) (domain : Nat) (seqId : Nat) (receive : PtpTime)
  | ethPortDown (port : Nat)
  | ethPortUp (port : Nat)
  | networkDownTimeout (network : Nat)
  -- partner links (14)
  | badFlit (port : Nat) (flit : List Byte)
  | retryReq (port number : Nat)
  | retryMark (port : Nat)
  | retryReqResend (port : Nat)
  | laneMap (port lane : Nat)
  | rdReq (p : PartnerPacket)
  | rdResp (p : PartnerPacket)
  | wr (p : PartnerPacket)
  | wrAck (p : PartnerPacket)
  | err (p : PartnerPacket)
  /-- `key`: the peer's device identity key; the digest of it, the peer's nonce and its signature over both nonces -/
  | ident (port : Nat) (key digest nonce signature : List Byte)
  | linkTrained (port : Nat) (ok : Bool)
  | align (port : Nat) (x : AlignStamps)
  | twin (port role : Nat)
  | config (port pair : Nat) (digest : List Byte)
  | digest (port pair picture : Nat) (digest : List Byte)
  | twinDigestTimeout (stream : Nat)
  | partnerAccessTimeout (port tag : Nat)
  -- sessions and tickets (13)
  | provisionalSessionExpiry (session : Nat)
  | sessionIdleExpiry (session : Nat)
  | ticketExpiry (ticket : Nat)
  -- power, pins and boot (16, 19, 20)
  /-- the die-slice power over the last 10 µs (1/16 W), its mean over 1 ms, and the sensor words of 15 R345 -/
  | powerControllerTick (die power10 power1ms : Nat) (sensors : List Word)
  | classGateTimer (die : Nat)
  /-- `vcore`: the measured VDD_CORE in mV -/
  | vcoreTargetWait (die vcore : Nat)
  | thermalTrip (die sensor : Nat) (temp : Int)
  | pwrGoodFall
  | resetNAssert (widthNs : Nat)
  /-- `bootMode`: the level of BOOT_MODE[1:0] -/
  | resetNRelease (bootMode : BitVec 2)
  | lpddr5xTrained (die : Nat) (ok : Bool)
  | ppsIn
  | ppsOutput
  /-- `deviations`: each rail's deviation from its target in parts per ten thousand -/
  | lifelogSample (deviations : List Int)
  | lifelogSaveTimer
  | lifelogSaveComplete (ok : Bool)
  | unknownOpcode (opcode : BitVec 16) (d : Datagram)
  | unsupportedFrame (port : Nat) (why : FrameFault)
  | ethCfgSaveComplete (die : Nat)
  /-- `pass`: every pin pair of a partner port passes training -/
  | recalComplete (die : Nat) (pass : Bool)
  | islandResumeComplete (die : Nat)
  | partnerLaneFailure (port lane : Nat)
  | idleFlit (port ack crdVc crd : Nat)
  | unknownUnit (stream : Nat)
  /-- `flashOk`: the flash was read without error; `selfTestOk`: the die's self-test, and for another die its bridge training,
  passed -/
  | imageCheckComplete (die : Nat) (flashOk selfTestOk : Bool)
  deriving DecidableEq, Repr

end Sys2Proof
end

