-- ==== Sys2Proof/Machine/Bits.lean ====
section
/-! DEFINITION. Byte orders, bit fields, sign extension and exact integer rounding: the helpers every family uses. -/

namespace Sys2Proof.Machine

/-- The byte holding `n mod 256`. -/
def byte (n : Nat) : Byte := BitVec.ofNat 8 n

/-- `k` bytes of `n`, least significant first (00 R7: memory, rANS words). -/
def leBytes : Nat → Nat → List Byte
  | 0, _ => []
  | k + 1, n => byte n :: leBytes k (n / 256)

/-- `k` bytes of `n`, most significant first (00 R7: command packets, bitstream headers). -/
def beBytes (k n : Nat) : List Byte := (leBytes k n).reverse

/-- The number a little-endian byte string holds. -/
def leNat : List Byte → Nat
  | [] => 0
  | b :: bs => b.toNat + 256 * leNat bs

/-- The number a big-endian byte string holds. -/
def beNat (bs : List Byte) : Nat := leNat bs.reverse

/-- `k` zero bytes. -/
def zeros (k : Nat) : List Byte := List.replicate k 0

/-- `k` bytes of `bs` from position `off`, short where `bs` ends. -/
def slice (bs : List Byte) (off k : Nat) : List Byte := (bs.drop off).take k

/-- The big-endian field of `k` bytes at `off`. -/
def beAt (bs : List Byte) (off k : Nat) : Nat := beNat (slice bs off k)

/-- The little-endian field of `k` bytes at `off`. -/
def leAt (bs : List Byte) (off k : Nat) : Nat := leNat (slice bs off k)

/-- Bits `[lo + width - 1 : lo]` of `n`. -/
def bits (n lo width : Nat) : Nat := n / 2 ^ lo % 2 ^ width

/-- Bit `i` of `n`. -/
def bit (n i : Nat) : Bool := n / 2 ^ i % 2 == 1

/-- The value of a Boolean as a bit. -/
def b01 (b : Bool) : Nat := if b then 1 else 0

/-- Two's complement reading of the low `w` bits of `n`. -/
def signed (w n : Nat) : Int :=
  let m := n % 2 ^ w
  if 2 * m < 2 ^ w then m else (m : Int) - 2 ^ w

/-- The low `w` bits of an integer, as a code. -/
def unsigned (w : Nat) (i : Int) : Nat := (i % (2 ^ w : Int)).toNat

/-- `i` held between `lo` and `hi`. -/
def clampInt (i lo hi : Int) : Int := if i < lo then lo else if i > hi then hi else i

/-- The smallest multiple of `m` at or above `n`. -/
def roundUp (n m : Nat) : Nat := (n + m - 1) / m * m

/-- `ceil (n / m)`. -/
def ceilDiv (n m : Nat) : Nat := (n + m - 1) / m

/-- Round-half-to-even division of an integer by a positive divisor (05 R108 `rne_div`). -/
def rneDiv (n : Int) (d : Nat) : Int :=
  let q := n / d
  let r := n % d
  if 2 * r > d || (2 * r == d && q % 2 == 1) then q + 1 else q

/-- Round-half-to-even division by `2 ^ t`; a negative `t` shifts left (02 R49 `rne_shift`). -/
def rneShift (p t : Int) : Int :=
  if t ≤ 0 then p * 2 ^ (-t).toNat else rneDiv p (2 ^ t.toNat)

/-- `floor (log2 n)`, 0 for 0. -/
def log2 (n : Nat) : Nat := Nat.log2 n

/-- One Newton step of the integer square root, `fuel` at most. -/
def isqrtLoop (n : Nat) : Nat → Nat → Nat
  | 0, y => y
  | k + 1, y =>
    let z := (y + n / y) / 2
    if z < y then isqrtLoop n k z else y

/-- `floor (sqrt n)`. -/
def isqrt (n : Nat) : Nat :=
  if n = 0 then 0 else isqrtLoop n (log2 n + 8) (2 ^ (log2 n / 2 + 1))

/-- `floor` of the 256th root, as eight nested square roots. -/
def root256 (n : Nat) : Nat :=
  isqrt (isqrt (isqrt (isqrt (isqrt (isqrt (isqrt (isqrt n)))))))

/-- The bits of a byte, bit 7 first (07 R160, 11 R256: packing order). -/
def byteBits (b : Byte) : List Bool := (List.range 8).map fun i => bit b.toNat (7 - i)

/-- The bits of a byte string in packing order. -/
def toBits (bs : List Byte) : List Bool := bs.flatMap byteBits

/-- The number spelled by bits, most significant first. -/
def bitsNat (l : List Bool) : Nat := l.foldl (fun a b => 2 * a + b01 b) 0

/-- The `w` bits of `n`, most significant first. -/
def natBits (w n : Nat) : List Bool := (List.range w).map fun i => bit n (w - 1 - i)

/-- Bits packed into bytes from bit 7 of each byte down, the last byte's unused bits 0 (07 R160). -/
def packBitsFuel : Nat → List Bool → List Byte
  | 0, _ => []
  | k + 1, l => if l.isEmpty then [] else
      byte (bitsNat ((l.take 8) ++ List.replicate (8 - (l.take 8).length) false)) :: packBitsFuel k (l.drop 8)

/-- Bits packed into bytes (07 R160). -/
def packBits (l : List Bool) : List Byte := packBitsFuel (l.length / 8 + 1) l

/-- Replaces element `i` of a list by `f` of it; a list without it is unchanged. -/
def modifyAt {α : Type} (l : List α) (i : Nat) (f : α → α) : List α :=
  l.zipIdx.map fun p => if p.2 = i then f p.1 else p.1

/-- The exclusive-or of two byte strings of equal length. -/
def xorBytes (a b : List Byte) : List Byte := List.zipWith (· ^^^ ·) a b

/-- The elements of `l`, each kept once, in order of first standing. -/
def dedup {α : Type} [BEq α] (l : List α) : List α :=
  l.foldl (fun acc a => if acc.contains a then acc else acc ++ [a]) []

/-- `l` in ascending order of `key`, equal keys in their order (stable insertion). -/
def sortBy {α : Type} (le : α → α → Bool) (l : List α) : List α :=
  l.foldl (fun acc a => acc.takeWhile (fun b => le b a) ++ a :: acc.dropWhile (fun b => le b a)) []

end Sys2Proof.Machine
end

