-- ==== Sys2Proof/Machine/Crypto.lean ====
section
/-! DEFINITION. The published functions the rules name (00 R9): SHAKE256 and KMAC256 (FIPS 202, SP 800-185), X448 (RFC 7748),
Ed448 and Ed448ph (RFC 8032), CRC-32C (RFC 3720) and the CRC-24 of 14 R324. The bodies of the standards are PRESUMED (log 14);
the check values the spec prints agree with them. -/

namespace Sys2Proof.Machine

/-- Rotation offsets of Keccak's rho step, lane x + 5 y. -/
def keccakRot : List Nat :=
  [0, 1, 62, 28, 27, 36, 44, 6, 55, 20, 3, 10, 43, 25, 39, 41, 45, 15, 21, 8, 18, 2, 61, 56, 14]

/-- Round constants of Keccak's iota step. -/
def keccakRC : List (BitVec 64) :=
  [0x0000000000000001, 0x0000000000008082, 0x800000000000808A, 0x8000000080008000, 0x000000000000808B, 0x0000000080000001,
   0x8000000080008081, 0x8000000000008009, 0x000000000000008A, 0x0000000000000088, 0x0000000080008009, 0x000000008000000A,
   0x000000008000808B, 0x800000000000008B, 0x8000000000008089, 0x8000000000008003, 0x8000000000008002, 0x8000000000000080,
   0x000000000000800A, 0x800000008000000A, 0x8000000080008081, 0x8000000000008080, 0x0000000080000001, 0x8000000080008008]

/-- One round of Keccak-f[1600] over 25 lanes. -/
def keccakRound (a : List (BitVec 64)) (rc : BitVec 64) : List (BitVec 64) :=
  let g := fun (l : List (BitVec 64)) (i : Nat) => l.getD i 0
  let c := (List.range 5).map fun x => g a x ^^^ g a (x + 5) ^^^ g a (x + 10) ^^^ g a (x + 15) ^^^ g a (x + 20)
  let d := (List.range 5).map fun x => g c ((x + 4) % 5) ^^^ (g c ((x + 1) % 5)).rotateLeft 1
  let t := (List.range 25).map fun i => (g a i ^^^ g d (i % 5)).rotateLeft (keccakRot.getD i 0)
  -- pi: lane (x, y) moves to (y, 2 x + 3 y)
  let b := (List.range 25).map fun i =>
    let x := i % 5
    let y := i / 5
    g t ((x + 3 * y) % 5 + 5 * x)
  let chi := (List.range 25).map fun i =>
    let y := i / 5 * 5
    let x := i % 5
    g b i ^^^ (~~~ g b (y + (x + 1) % 5) &&& g b (y + (x + 2) % 5))
  chi.zipIdx.map fun p => if p.2 = 0 then p.1 ^^^ rc else p.1

/-- Keccak-f[1600]. -/
def keccakF (a : List (BitVec 64)) : List (BitVec 64) := keccakRC.foldl keccakRound a

/-- A byte block exclusive-ored into the lanes. -/
def absorbBlock (a : List (BitVec 64)) (blk : List Byte) : List (BitVec 64) :=
  a.zipIdx.map fun p => p.1 ^^^ BitVec.ofNat 64 (leAt blk (8 * p.2) 8)

/-- The sponge's rate of SHAKE256 in bytes. -/
def shakeRate : Nat := 136

/-- Absorbing whole blocks. -/
def absorb : Nat → List (BitVec 64) → List Byte → List (BitVec 64)
  | 0, a, _ => a
  | k + 1, a, bs => absorb k (keccakF (absorbBlock a (bs.take shakeRate))) (bs.drop shakeRate)

/-- Squeezing blocks. -/
def squeeze : Nat → List (BitVec 64) → List Byte
  | 0, _ => []
  | k + 1, a => (a.flatMap fun l => leBytes 8 l.toNat).take shakeRate ++ squeeze k (keccakF a)

/-- The sponge with a domain byte `dom` and `n` bytes of output. -/
def sponge (dom : Nat) (bs : List Byte) (n : Nat) : List Byte :=
  let pad := shakeRate - bs.length % shakeRate
  let padded := if pad = 1 then bs ++ [byte (dom + 0x80)] else bs ++ byte dom :: zeros (pad - 2) ++ [0x80]
  (squeeze (ceilDiv n shakeRate) (absorb (padded.length / shakeRate) (List.replicate 25 0) padded)).take n

/-- SHAKE256 with `n` bytes of output. -/
def shake256 (bs : List Byte) (n : Nat) : List Byte := sponge 0x1F bs n

/-- `left_encode` and `right_encode` of SP 800-185. -/
def encLen (n : Nat) : List Byte := beBytes (max 1 (log2 n / 8 + 1)) n
def leftEncode (n : Nat) : List Byte := byte (encLen n).length :: encLen n
def rightEncode (n : Nat) : List Byte := encLen n ++ [byte (encLen n).length]
def encodeString (s : List Byte) : List Byte := leftEncode (8 * s.length) ++ s
def bytepad (x : List Byte) : List Byte :=
  let z := leftEncode shakeRate ++ x
  z ++ zeros (roundUp z.length shakeRate - z.length)

/-- The bytes of an ASCII string. -/
def ascii (s : String) : List Byte := s.toList.map fun c => byte c.toNat

/-- KMAC256 (SP 800-185) with `n` bytes of output. -/
def kmac256 (key x : List Byte) (n : Nat) (custom : String) : List Byte :=
  sponge 0x04 (bytepad (encodeString (ascii "KMAC") ++ encodeString (ascii custom)) ++ bytepad (encodeString key) ++ x ++
    rightEncode (8 * n)) n

/-- A bitwise CRC step of a reflected CRC. -/
def crcBits (poly : Nat) : Nat → Nat → Nat
  | 0, c => c
  | k + 1, c => crcBits poly k (if c % 2 = 1 then (c / 2) ^^^ poly else c / 2)

/-- CRC-32C of 12 R267: 0xE306_9283 over "123456789". -/
def crc32c (bs : List Byte) : Nat :=
  (bs.foldl (fun c b => crcBits 0x82F63B78 8 (c ^^^ b.toNat)) 0xFFFFFFFF) ^^^ 0xFFFFFFFF

/-- A bitwise step of the CRC-24 of 14 R324. -/
def crc24Bits : Nat → Nat → Nat
  | 0, c => c
  | k + 1, c => crc24Bits k (if bit c 23 then (c * 2 % 2 ^ 24) ^^^ 0x864CFB else c * 2 % 2 ^ 24)

/-- CRC-24 of 14 R324: 0xCD_E703 over "123456789". -/
def crc24 (bs : List Byte) : Nat :=
  bs.foldl (fun c b => crc24Bits 8 (c ^^^ (b.toNat * 65536))) 0

/-- The field prime of Curve448 and Edwards448. -/
def p448 : Nat := 2 ^ 448 - 2 ^ 224 - 1

/-- `b ^ e mod m`, over the bits of `e` from the lowest. -/
def powMod (m : Nat) : Nat → Nat → Nat → Nat → Nat
  | 0, _, _, acc => acc
  | k + 1, b, e, acc => powMod m k (b * b % m) (e / 2) (if e % 2 = 1 then acc * b % m else acc)

/-- The inverse modulo the field prime. -/
def inv448 (a : Nat) : Nat := powMod p448 448 (a % p448) (p448 - 2) 1

/-- `a - b` modulo the field prime. -/
def sub448 (a b : Nat) : Nat := (a + p448 - b % p448) % p448

/-- The Montgomery ladder of RFC 7748 over bits `k - 1` to 0 of the scalar. -/
def x448Ladder (scalar u : Nat) : Nat → Nat × Nat × Nat × Nat → Nat × Nat × Nat × Nat
  | 0, q => q
  | k + 1, (x2, z2, x3, z3) =>
    let sw := bit scalar k
    let (x2, z2, x3, z3) := if sw then (x3, z3, x2, z2) else (x2, z2, x3, z3)
    let a := (x2 + z2) % p448
    let aa := a * a % p448
    let b := sub448 x2 z2
    let bb := b * b % p448
    let e := sub448 aa bb
    let da := sub448 x3 z3 * a % p448
    let cb := (x3 + z3) % p448 * b % p448
    let s := (da + cb) % p448
    let t := sub448 da cb
    let nx := aa * bb % p448
    let nz := e * ((aa + 39081 * e) % p448) % p448
    let mx := s * s % p448
    let mz := u * (t * t % p448) % p448
    x448Ladder scalar u k (if sw then (mx, mz, nx, nz) else (nx, nz, mx, mz))

/-- X448 (RFC 7748): scalar and u-coordinate as 56 bytes each. -/
def x448 (scalar u : List Byte) : List Byte :=
  let k := leNat (scalar.take 56)
  let k := k / 4 * 4 % 2 ^ 447 + 2 ^ 447
  let q := x448Ladder k (leNat (u.take 56) % p448) 448 (1, 0, leNat (u.take 56) % p448, 1)
  leBytes 56 (q.1 * inv448 q.2.1 % p448)

/-- The base point 5 of Curve448. -/
def x448Base : List Byte := 5 :: zeros 55

/-- The order of the base point of Edwards448. -/
def ed448L : Nat := 2 ^ 446 - 13818066809895115352007386748515426880336692474882178609894547503885

/-- Projective points of Edwards448 (x, y, z), with d = -39081. -/
abbrev EdPt := Nat × Nat × Nat

def edAdd (p q : EdPt) : EdPt :=
  let a := p.2.2 * q.2.2 % p448
  let b := a * a % p448
  let c := p.1 * q.1 % p448
  let d := p.2.1 * q.2.1 % p448
  let e := sub448 0 (39081 * (c * d % p448) % p448)
  let f := sub448 b e
  let g := (b + e) % p448
  let h := (p.1 + p.2.1) % p448 * ((q.1 + q.2.1) % p448) % p448
  (a * f % p448 * sub448 (sub448 h c) d % p448, a * g % p448 * sub448 d c % p448, f * g % p448)

/-- Scalar multiplication over `k` bits of the scalar, from the highest. -/
def edMul (s : Nat) (p : EdPt) : Nat → EdPt → EdPt
  | 0, acc => acc
  | k + 1, acc =>
    let d := edAdd acc acc
    edMul s p k (if bit s k then edAdd d p else d)

def edNeutral : EdPt := (0, 1, 1)

/-- The base point of Edwards448 (RFC 8032). -/
def edBase : EdPt :=
  (224580040295924300187604334099896036246789641632564134246125461686950415467406032909029192869357953282578032075146446173674602635247710,
   298819210078481492676017930443930673437544040154080242095928241372331506189835876003536878655418784733982303233503462500531545062832660, 1)

/-- A point in its 57 bytes. -/
def edEncode (p : EdPt) : List Byte :=
  let zi := inv448 p.2.2
  leBytes 57 (p.2.1 * zi % p448 + (p.1 * zi % p448) % 2 * 2 ^ 455)

/-- A point from its 57 bytes; none where RFC 8032 fails. -/
def edDecode (bs : List Byte) : Option EdPt :=
  let n := leNat (bs.take 57)
  let y := n % 2 ^ 455
  let sgn := n / 2 ^ 455 % 2
  if bs.length ≠ 57 ∨ y ≥ p448 then none
  else
    let yy := y * y % p448
    let u := sub448 yy 1
    let v := sub448 (sub448 0 (39081 * yy % p448)) 1
    let u3v := u * u % p448 * u % p448 * v % p448
    let u5v3 := u3v * u % p448 * u % p448 * v % p448 * v % p448
    let x := u3v * powMod p448 448 u5v3 ((p448 - 3) / 4) 1 % p448
    if v * (x * x % p448) % p448 ≠ u then none
    else if x = 0 ∧ sgn = 1 then none
    else some ((if x % 2 = sgn then x else p448 - x), y, 1)

/-- `dom4` of RFC 8032. -/
def dom4 (ph : Nat) (ctx : String) : List Byte := ascii "SigEd448" ++ [byte ph, byte ctx.length] ++ ascii ctx

/-- The secret scalar and prefix of a 57-byte private key. -/
def edSecret (priv : List Byte) : Nat × List Byte :=
  let h := shake256 priv 114
  let a := leNat (h.take 56) / 4 * 4 % 2 ^ 447 + 2 ^ 447
  (a, h.drop 57)

/-- The Ed448 public key of a private key. -/
def ed448Public (priv : List Byte) : List Byte := edEncode (edMul (edSecret priv).1 edBase 448 edNeutral)

/-- An Ed448 signature of 114 bytes. -/
def ed448Sign (priv msg : List Byte) (ctx : String) (ph : Nat := 0) : List Byte :=
  let sk := edSecret priv
  let pub := ed448Public priv
  let r := leNat (shake256 (dom4 ph ctx ++ sk.2 ++ msg) 114) % ed448L
  let rb := edEncode (edMul r edBase 448 edNeutral)
  let k := leNat (shake256 (dom4 ph ctx ++ rb ++ pub ++ msg) 114) % ed448L
  rb ++ leBytes 57 ((r + k * sk.1) % ed448L)

/-- Verification of an Ed448 signature. -/
def ed448Verify (pub msg sig : List Byte) (ctx : String) (ph : Nat := 0) : Bool :=
  match edDecode pub, edDecode (sig.take 57) with
  | some a, some r =>
    let s := leNat (sig.drop 57)
    let k := leNat (shake256 (dom4 ph ctx ++ sig.take 57 ++ pub ++ msg) 114) % ed448L
    sig.length == 114 && s < ed448L &&
      edEncode (edMul s edBase 448 edNeutral) == edEncode (edAdd r (edMul k a 448 edNeutral))
  | _, _ => false

/-- Verification of an Ed448ph signature: the prehash is SHAKE256 with 64 bytes (19 R422). -/
def ed448phVerify (pub msg sig : List Byte) (ctx : String) : Bool := ed448Verify pub (shake256 msg 64) sig ctx 1

end Sys2Proof.Machine
end

