-- ==== Sys2Proof/Config.lean ====
section
/-! DEFINITION. What the part or its environment fixes and the spec leaves open: free values without a body. -/

namespace Sys2Proof.Config

/-- The value of the `n`-th free draw (log 2): a random number of 13 R290, R292, a number firmware chooses, a value the rules
leave undefined. State counts the draws. -/
opaque freeValue : Nat → Nat

/-- Fuse IDENTITY_SEED of each die (19 R417). -/
opaque identitySeed : Nat → BitVec 256

/-- Fuse SERIAL of each die (19 R417). -/
opaque serial : Nat → BitVec 64

/-- Fuse OWNER_DIGEST of each die (19 R417); dies that differ fail the boot (R418). -/
opaque ownerDigest : Nat → BitVec 256

/-- Fuse BASE_MAC (19 R417). -/
opaque baseMac : BitVec 48

/-- The version and the SHAKE256-256 digest of each die's Germ ROM (19 R432). -/
opaque romVersion : Nat → BitVec 32
opaque romDigest : Nat → BitVec 256

/-- The fused lowest VDD_CORE in mV of a die at a STEP (20 R441). -/
opaque stepVoltage : Nat → Nat → Nat

/-- A flash controller register, an SFDP word, a training or SerDes word as it stands at power-on (15 R345): by die, space,
instance and word. -/
opaque slowSpace : Nat → Nat → Nat → Nat → Word

/-- What an ingest decoder makes of the bytes that have come, by the published standards HEVC (0) and AV1 (1) of 00 R9 and the
bytes before them (the second argument is a fresh draw): the raw pictures of 10 R223 it puts out, each with whether it arrived reordered
(10 R246), and the film grain parameter sets met; or none for a bitstream error, a size or a tool it does not support (10 R245). -/
opaque ingestDecode : Nat → Nat → List Byte → Option (List (List Byte × Bool) × Nat)

/-- The CM service identifier of a queue pair (14 R317), by its number. -/
opaque serviceId : Nat → BitVec 64

/-- The message an IDENT signature covers, from the signer's and the other part's nonce, and its context (14 R328). -/
opaque identMessage : List Byte → List Byte → List Byte
opaque identContext : String

/-- The bytes of an encoding stream's largest tile output, and of a LATENT stream's, which admission takes from the profile and the open
entries (10 R239) and no rule computes. -/
opaque tileOutput : List Byte → List Byte → Nat

/-- The granules that the decoded picture buffers of an ingest stream take, by its format, width and height (10 R245 gives no size). -/
opaque ingestGranules : Nat → Nat → Nat → Nat

/-- The grey picture's reference features (10 R226 gives none), a code by the profile's digest, the MOTION network, channel, row and
column. -/
opaque greyFeature : List Byte → Nat → Nat → Nat → Nat → BitVec 64

/-- The moments a TRAIN job begins with: an INT8 code, and the scale and zero point of its block, by the profile's digest, the layer, which
of the four (first and second of U, first and second of V) and the element or block. 09 R218 gives none. -/
opaque initialCode : List Byte → Nat → Nat → Nat → BitVec 8
opaque initialScale : List Byte → Nat → Nat → Nat → BitVec 32
opaque initialZero : List Byte → Nat → Nat → Nat → BitVec 8

/-- Whether the FP32 result of a function (by its order in 04 R79) at the seam `i / 32` is always the greater of the two values that
bracket it, where the last input below the seam has the same two (04 R87); else that input's is always the lower (log 50). -/
opaque seamHigh : Nat → Int → Bool

/-- The picture interval in ns that the rate controller of a stream without a declared one uses (10 R237). -/
opaque pictureInterval : Nat → Nat

/-- The status of the context condemned by tag, where 17 R397 gives none, by a fresh draw. -/
opaque condemnStatus : Nat → Status

/-- The chain depth, less 1, of the ZLZ stream of a MOTION sub-unit (12 R279 names none). -/
opaque motionDepth : Nat

end Sys2Proof.Config
end

