-- ==== Sys2Proof/Machine/State.lean ====
section
/-! DEFINITION. The state of the block as plain data, and the state right after reset. A field's default is its value at
reset; where the spec gives none, the comment names the log entry. -/

namespace Sys2Proof.Machine

/-- Why the machine stops. -/
inductive Fault where
  /-- Raised by the event commands that name a die, port, region, unit or engine the part does not have (00 R4): no such event
  can occur. Safe: nothing runs on. -/
  | absentElement
  deriving DecidableEq, Repr

/-- Why a command has no meaning here. -/
inductive Refusal where
  /-- Raised by an arm of exec whose command has no meaning yet. Safe. -/
  | notModelled (mnemonic : String)
  deriving DecidableEq, Repr

/-- The parts of 00 R1. -/
inductive Part where
  | zlk202 | zlk204 | zlk208
  deriving DecidableEq, Repr

/-- What the part is doing (19 R423, R425; 17 R389; 20 R453). -/
inductive Phase where
  /-- RESET_N or PWR_GOOD low -/
  | inReset
  /-- the Germ ROM checks the image -/
  | checking
  /-- the checked image waits for D0's LPDDR5X -/
  | memWait
  /-- firmware runs -/
  | running
  | netRecovery
  /-- every die held idle with ALERT_N asserted (modes 10, 11; result MEMORY) -/
  | idle
  /-- test access (mode 10 with TEST_LOCK clear) -/
  | testAccess
  /-- every die in RESET after a failed package recovery -/
  | failed
  /-- clocks stopped by the thermal trip -/
  | tripped
  deriving DecidableEq, Repr

/-- An event record (16 R372). -/
structure EventRec where
  gts : BitVec 64
  src : BitVec 16
  code : BitVec 16
  arg : BitVec 32
  deriving DecidableEq, Repr

/-- An instance record (15 R347). -/
structure ElemRec where
  present : Bool := true
  up : Bool := true
  quiesced : Bool := false
  lost : Bool := false
  spare : Bool := false
  ceCount : BitVec 16 := 0
  deriving DecidableEq, Repr

/-- A region of a die: its CLK_RGN, HUL_RGN and RGN_OWNER fields and its timers. -/
structure Region where
  /-- CLK_RGN.STEP, CAP, LOCKED, QUIESCED (15 R352) -/
  step : Nat := 0
  cap : BitVec 3 := 4
  locked : Bool := true
  quiesced : Bool := false
  /-- GTS of the latest STEP change -/
  stepAt : Nat := 0
  /-- a raise waiting for VDD_CORE since this GTS (20 R441) -/
  raiseWait : Option Nat := none
  /-- HUL_RGN state and recoveries (15 R356) -/
  hul : Nat := 0
  recoveries : BitVec 8 := 0
  /-- RGN_OWNER (15 R358) -/
  owner : BitVec 32 := 0xFFFFFFFF
  /-- GTS of the latest chunk completion of the region (17 R384) -/
  lastChunk : Nat := 0
  deriving DecidableEq, Repr

/-- The port configuration record (15 R361). -/
structure PortCfg where
  flags : Word := 0
  ipv4 : Word := 0
  prefixes : Word := 0
  ipv6a : BitVec 128 := 0
  ipv6b : BitVec 128 := 0
  ptp : Word := 0
  deriving DecidableEq, Repr

/-- A wall-time sample (16 R371). -/
structure PtpSample where
  seqId : BitVec 16 := 0
  valid : Bool := false
  t1 : PtpTime := ⟨0, 0⟩
  t2 : BitVec 64 := 0
  t3 : BitVec 64 := 0
  t4 : PtpTime := ⟨0, 0⟩
  domain : BitVec 7 := 0
  delaySeq : BitVec 16 := 0
  deriving DecidableEq, Repr

/-- The latest Sync of a port: domain, sequenceId, arrival GTS, and its Follow_Up's origin (16 R371). -/
structure SyncRec where
  domain : Nat
  seqId : Nat
  arrival : Nat
  origin : Option PtpTime := none
  deriving DecidableEq, Repr

/-- An open Delay_Req: its sequenceId, departure GTS and the Sync it is paired with (16 R371). -/
structure DelayRec where
  seqId : Nat
  departure : Nat
  sync : Option SyncRec := none
  deriving DecidableEq, Repr

/-- An Ethernet port (14 R310 to R322, 15 R359 to R362, 16 R371). -/
structure Eth where
  up : Bool := false
  blockLock : Bool := false
  fecAlign : Bool := false
  trained : Bool := false
  anDone : Bool := false
  saveBusy : Bool := false
  /-- a SAVE arrived while one runs -/
  saveAgain : Bool := false
  /-- the record the running SAVE writes -/
  saving : PortCfg := {}
  mode : BitVec 2 := 0
  pendingCfg : PortCfg := {}
  current : PortCfg := {}
  /-- the port went down at this GTS; none while up or never up -/
  downAt : Option Nat := none
  /-- addresses and the MAC of the peer's latest frame (15 R362) -/
  neighbours : List (Nat × Nat) := []
  /-- priorities on which transmission is paused (14 R312) -/
  paused : List Bool := List.replicate 8 false
  /-- priorities for which this part's XOFF stands (14 R312) -/
  xoff : List Bool := List.replicate 8 false
  /-- the PTP ring, its head and count (16 R371) -/
  ring : List PtpSample := List.replicate 16 {}
  head : Nat := 0
  count : BitVec 16 := 0
  lastSync : Option SyncRec := none
  delayReq : Option DelayRec := none
  delaySeq : BitVec 16 := 0
  /-- GTS of the latest Delay_Req -/
  delayAt : Nat := 0
  /-- AUTH_FAIL replies of 13 R293 sent in the second that began at this GTS -/
  authSecond : Nat := 0
  authCount : Nat := 0
  deriving DecidableEq, Repr

/-- A DATA flit kept for retry (14 R325): its number, its virtual channel and the packet it begins or continues. -/
structure TxFlit where
  number : Nat
  vc : Nat
  packet : PartnerPacket
  /-- TYPE of 14 R327, and whether it is the packet's last flit -/
  type : Nat
  eop : Bool
  deriving DecidableEq, Repr

/-- An access of this part to a partner, waiting for its answer. -/
structure LinkTag where
  tag : Nat
  thread : ThreadId
  /-- where the descriptor of its operation lies -/
  descr : Nat
  /-- the address in the partner window that it reads or writes -/
  dest : Nat
  length : Nat
  isWrite : Bool
  issuedAt : Nat
  /-- what a write carries -/
  data : List Byte := []
  /-- the request has left; at most 4,096 are outstanding (14 R327) -/
  sent : Bool := false
  /-- the answer: read data, or an empty list for a write -/
  got : Option (List Byte) := none
  deriving DecidableEq, Repr

/-- A partner port and its link (14 R323 to R329, 15 R363, R364). -/
structure Plk where
  up : Bool := false
  training : Bool := false
  identOk : Bool := false
  spareInUse : Bool := false
  lanes : Nat := 0
  twin : Bool := false
  /-- PLK_LANE_MAP: active lane i on pin pair i (log 11) -/
  laneMap : BitVec 32 := 0x76543210
  /-- PLK_PEER -/
  peer : BitVec 256 := 0
  /-- the PEER the port was configured with -/
  configured : Option (BitVec 256) := none
  /-- this part's nonce of the running IDENT exchange -/
  nonce : BitVec 256 := 0
  txNext : Nat := 0
  txBuf : List TxFlit := []
  /-- flits waiting for a credit or for room in the retry buffer, oldest first -/
  txWait : List TxFlit := []
  rxNext : Nat := 0
  /-- DATA flits are discarded until a RETRY_MARK -/
  discarding : Bool := false
  /-- a RETRY_REQ this part sent: the flit named, GTS of sending -/
  retryOpen : Option (Nat × Nat) := none
  /-- consecutive RETRY_REQs received naming the same flit -/
  retrySeen : Option (Nat × Nat) := none
  /-- credits by VC, and the CRD value last seen by VC -/
  credits : List Nat := List.replicate 4 512
  crdSeen : List Nat := List.replicate 4 0
  /-- receive slots freed, by VC, as this part reports them -/
  freed : List Nat := List.replicate 4 0
  tags : List LinkTag := []
  retrainFails : Nat := 0
  /-- a spare-lane switch under way: the active lane and the DATA flits still to come (14 R329) -/
  laneSwitch : Option (Nat × Nat) := none
  deriving DecidableEq, Repr

/-- The buffer of one stage of a tile of a stream (06 R140, R141): granules of a pool that it holds or asks for. -/
structure Hold where
  owner : Nat
  cls : Nat
  picture : Nat
  tile : Nat
  stage : Nat
  granules : Nat
  deriving DecidableEq, Repr

/-- A buffer pool of a die (06 R139 to R143). -/
structure Pool where
  /-- granules reserved, by owner (stream or job number) -/
  reserved : List (Nat × Nat) := []
  /-- reserved slots that tiles hold -/
  slots : List Hold := []
  /-- shared granules held -/
  shared : List Hold := []
  /-- requests waiting, in the order of arrival -/
  waiting : List Hold := []
  /-- GTS of the latest release or POOL_STALL record -/
  releasedAt : Nat := 0
  /-- a POOL_STALL record stands and no granule has been released since -/
  stalled : Bool := false
  /-- granules holding a pending page or a range retired at once (18 R407), and granules dropped -/
  pendingGran : List Nat := []
  dropped : Nat := 0
  /-- drops deferred, and whether 0x0B09 has been written for them -/
  deferred : List Nat := []
  deferNoted : Bool := false
  /-- granules held by profile weights, by slot -/
  weights : List (Nat × Nat) := []
  deriving DecidableEq, Repr

/-- The islands of 18 R410. -/
structure Island where
  /-- 0 region, 1 Ethernet port, 2 partner port, 3 LPDDR5X channel -/
  kind : Nat
  index : Nat
  deriving DecidableEq, Repr

/-- A request whose final reply is due (13 R296). -/
structure Req where
  session : Nat
  sequence : Nat
  deriving DecidableEq, Repr

/-- The service of an island (18 R411). -/
structure IslandService where
  island : Island
  /-- 0 quiescing, 1 quiesced, 2 recalibrating, 3 resuming, 4 loading a module -/
  stage : Nat
  /-- GTS of the stage's start -/
  since : Nat
  /-- requests waiting: of the quiesce, of the resume, of the recalibration -/
  quiesceReq : List Req := []
  resumeReq : List Req := []
  recalReq : List Req := []
  /-- a RECAL of an island in service: returns to service afterwards -/
  recal : Bool := false
  /-- quiesced for FW_ACTIVATE -/
  activation : Bool := false
  deriving DecidableEq, Repr

/-- A spare engagement under way (18 R403). -/
structure Engagement where
  kind : Nat
  target : Nat
  since : Nat
  reqs : List Req
  deriving DecidableEq, Repr

/-- One die's own state. -/
structure Die where
  /-- event queue, in the order of 16 R374, and records discarded since it filled (R375) -/
  events : List EventRec := []
  discarded : Nat := 0
  sticky : BitVec 64 := 0
  /-- sticky bits set since the clock last moved (00 R8) -/
  fresh : BitVec 64 := 0
  alert : BitVec 64 := 0
  regions : List Region := List.replicate 8 {}
  /-- CLK_LOCK[13:8] (log 12) -/
  islandLock : BitVec 6 := 0x3F
  /-- PWR block (15 R353) -/
  pwrStatus : BitVec 4 := 0
  pwrPower : BitVec 16 := 0
  pwrLimit : BitVec 16 := 0x04B0
  pwrTj : BitVec 16 := 0
  vcore : BitVec 12 := 0
  /-- published VDD_CORE target in mV; none before firmware publishes one (20 R441) -/
  vcoreTarget : Option Nat := none
  /-- power controller timers (20 R449, R450) -/
  lastOver : Option Nat := none
  lastRaise : Nat := 0
  floorSince : Option Nat := none
  /-- classes 1 to 3 gated -/
  gated : List Nat := []
  gateAt : Nat := 0
  tj105Noted : Bool := false
  /-- GTS from which PWR_TJ has stayed below 102 °C -/
  coolSince : Option Nat := some 0
  /-- SPR block (15 R354, R355) -/
  svcMode : BitVec 2 := 3
  thresh : List Word := List.replicate 5 0x0E100010
  /-- HUL_DIE[3:0], HUL_LIMITS, HUL_MODE (15 R356, R357) -/
  hul : Nat := 0
  hulLimits : Word := 0x00320064
  hulMode : BitVec 1 := 0
  eth : Eth := {}
  plk : Plk := {}
  /-- instance records (15 R347); RGN by region × 36 + i -/
  d2d : List ElemRec := List.replicate 4 {}
  memCh : List ElemRec := List.replicate 16 {}
  dsr : List ElemRec := List.replicate 2 {}
  ent : List ElemRec := []
  lze : List ElemRec := List.replicate 8 {}
  mse : List ElemRec := List.replicate 10 {}
  rgn : List ElemRec := []
  /-- consecutive replays of the transfer in hand, by bridge (14 R331) -/
  replays : List Nat := List.replicate 4 0
  /-- CNT counters 0 to 13 (15 R365) -/
  cnt : List (BitVec 64) := List.replicate 14 0
  /-- words written to the indirect spaces: space, instance, word (15 R345) -/
  ind : List ((Nat × Nat × Nat) × Word) := []
  sensors : List Word := List.replicate 16 0
  /-- correctable errors inside the threshold window: KIND, TARGET, GTS (18 R404) -/
  ceTimes : List (Nat × Nat × Nat) := []
  /-- engaged spares: KIND, TARGET -/
  engaged : List (Nat × Nat) := []
  engaging : List Engagement := []
  /-- retired LPDDR5X granules of 4 KiB (offset / 4096), and pages pending retirement -/
  retired : List Nat := []
  /-- retired deep SRAM ranges of 4 KiB (offset / 4096) (17 R385) -/
  retiredDs : List Nat := []
  pendingPages : List Nat := []
  service : Option IslandService := none
  poolLp : Pool := {}
  poolDs : Pool := {}
  /-- fuses that can change or that the boot reads (19 R417; log 7) -/
  rollback : Nat := 0
  testLock : Bool := true
  /-- the die's own image check and LPDDR5X training of this boot -/
  checked : Bool := false
  trained : Bool := false
  keyReady : Bool := false
  deriving DecidableEq, Repr

/-- A reply as it leaves the part (13 R289). -/
structure Reply where
  port : Nat
  addr : Nat
  udp : Nat
  flags : Nat
  session : Nat
  sequence : Nat
  opcode : Nat
  status : Status
  gts : Nat
  params : List Byte
  tag : List Byte
  deriving DecidableEq, Repr

/-- A cached reply (13 R295, R296). -/
structure CacheEntry where
  sequence : Nat
  tag : List Byte
  opcode : Nat
  reply : Reply
  pending : Bool
  deriving DecidableEq, Repr

/-- A session, provisional or open (13 R290 to R295). -/
structure Session where
  number : Nat
  isOpen : Bool
  hostKey : List Byte
  keyIn : List Byte
  keyOut : List Byte
  transcript : List Byte
  privileged : Bool := false
  idle : Nat := 60
  /-- GTS of the HELLO reply, or of the latest request that passed its tag check -/
  lastAt : Nat
  h : Nat := 0
  cache : List CacheEntry := []
  deriving DecidableEq, Repr

/-- A staging area (09 R200, 18 R413, 19 R425): kind 0 profile, 1 firmware, 2 network recovery. -/
structure Staging where
  id : Nat
  kind : Nat
  session : Nat
  length : Nat
  base : Nat
  rkey : Nat
  qpn : Nat
  verified : Bool := false
  deriving DecidableEq, Repr

/-- A queue pair (14 R316 to R322): owner true for a stream, false for a staging area. -/
structure QueuePair where
  qpn : Nat
  ofStream : Bool
  owner : Nat
  cls : Nat
  network : Nat
  port : Nat
  alt : Option Nat
  connected : Bool := false
  peer : Nat := 0
  /-- send rate in bit/s (14 R319) -/
  rate : Nat := 100000000000
  cnpSentAt : Option Nat := none
  cnpAt : Option Nat := none
  rateAt : Nat := 0
  rnrSince : Option Nat := none
  deriving DecidableEq, Repr

/-- A distribution table (04 R90): OFF and the frequencies of index 0 to N (the escape last). -/
structure Table where
  off : Nat
  freq : List Nat
  deriving DecidableEq, Repr

/-- A loaded profile (09 R192 to R204); its sections are read from the image. -/
structure Profile where
  image : List Byte
  digest : List Byte
  /-- bank set slot of each table set (07 R165) -/
  setSlots : List Nat
  deriving DecidableEq, Repr

/-- A load waiting for its bank steps (07 R165). -/
structure LoadRun where
  req : Req
  stageId : Nat
  slot : Nat
  image : List Byte
  setSlots : List Nat
  deriving DecidableEq, Repr

/-- Memory bytes an operation touches: base and length, scratchpad addresses in the global view (06 R465). -/
structure Span where
  base : Nat
  len : Nat
  deriving DecidableEq, Repr

/-- What a lane saves of an operation at a chunk boundary (07 R148): its 16 states and its positions: symbol, word port, bypass bit. -/
structure LaneSave where
  states : List Nat := []
  symbol : Nat := 0
  word : Nat := 0
  bit : Nat := 0
  deriving DecidableEq, Repr

/-- An outstanding operation (06 R118). -/
structure Outst where
  engine : Engine
  opIndex : Nat
  opcode : Nat
  reads : List Span
  writes : List Span
  chunks : Nat := 0
  /-- GTS at which its engine took the running chunk; none while queued -/
  taken : Option Nat := none
  /-- the bank it is bound to from its first chunk on (07 R164) -/
  bank : Option Nat := none
  /-- the lane of its running chunk, and what lanes will save at its inner chunk boundaries (07 R148, R467) -/
  lane : Nat := 0
  saves : List LaneSave := []
  /-- GTS at which it took a resident context of the match engine (07 R168) -/
  resident : Option Nat := none
  /-- its effect has taken place (log 13) -/
  ran : Bool := true
  done : Bool := false
  /-- a PREFETCH issued before its own tile began (06 R136) -/
  early : Bool := false
  /-- where its descriptor and its list lie -/
  descr : Nat := 0
  list : Nat := 0
  deriving DecidableEq, Repr

/-- A carried scale (03 R74, 08 R185): the profile's operation (NET, LIST, OP) and the scale and zero point of each block. -/
structure Carry where
  net : Nat
  list : Nat
  op : Nat
  scales : List (Nat × Int)
  deriving DecidableEq, Repr

/-- What a BLOCKED thread waits on (06 R116). -/
inductive WaitOn where
  | hazard
  | engineFull
  | fence
  | pool
  | barrier (counter : Nat)
  | word (addr : Nat) (target : BitVec 64) (timeoutUs : Nat)
  deriving DecidableEq, Repr

/-- The states of a context (06 R116). -/
inductive CtxState where
  | free | idle | ready | blocked | stopped
  deriving DecidableEq, Repr

/-- The list a thread runs (06 R117). -/
structure CurList where
  addr : Nat
  exact : Bool
  lastList : Bool
  opCount : Nat
  length : Nat
  stream : Nat
  tile : Nat
  picture : Nat
  /-- index and byte offset of the next operation to issue -/
  opIndex : Nat := 0
  offset : Nat := 32
  deriving DecidableEq, Repr

/-- Sticky bit numbers of 16 R377. -/
inductive Sticky where
  | evqOverflow | accessViolation | scaleSkew | domainViolation | streamDamaged | class0Late | twinDiverge | poolStall
  | ethDown | plkDown | bridgeDown | throttle | tj100 | tj105 | recovery | spareEngaged | lost | gtsAlignLost | lifelogFail
  deriving DecidableEq, Repr

/-- Why an operation stops its thread beside its status: event records of the thread's unit, a sticky bit, and damage of the
tile by CAUSE and DETAIL (10 R243). -/
structure Stop where
  status : Status
  events : List (Nat × Nat) := []
  sticky : Option Sticky := none
  damage : Option (Nat × Nat) := none
  deriving DecidableEq, Repr

/-- A context (06 R116 to R120, 17 R392, R396). Contexts not listed in State are FREE. -/
structure Thread where
  id : ThreadId
  state : CtxState := .idle
  /-- the stream or job it is bound to, and its class -/
  binding : Nat := 0
  isJob : Bool := false
  cls : Nat := 3
  status : Status := .ok
  queue : List Nat := []
  cur : Option CurList := none
  out : List Outst := []
  waiting : Option (WaitOn × Nat) := none
  /-- replay point: list address, operation index, offset, declared ranges -/
  ckpt : Option (Nat × Nat × Nat × List Span) := none
  /-- SIGNALs and ATOMIC_ADDs completed since the replay point, and those still to skip (17 R396) -/
  adds : Nat := 0
  skip : Nat := 0
  /-- prefetches issued early: list address and operation index, with the fault held for it -/
  early : List (Nat × Nat × Option Stop) := []
  /-- prefetches that wait to be issued early: list address, operation index and offset -/
  late : List (Nat × Nat × Nat) := []
  /-- what a lane saved of its operation at the latest chunk boundary (07 R148) -/
  saved : LaneSave := {}
  /-- GTS of the latest chunk completion, and of the latest change to READY -/
  lastDone : Nat := 0
  readyAt : Nat := 0
  /-- scales carried for the tile (PICTURE, TILE) -/
  carried : List Carry := []
  carryTile : Nat × Nat := (0, 0)
  deriving DecidableEq, Repr

/-- A list in the instruction store of a cluster (06 R117): its address and the bytes fetched that are not zero. -/
structure Fetched where
  die : Nat
  cluster : Nat
  list : Nat
  cells : List Host.Cell
  deriving DecidableEq, Repr

/-- A barrier counter (06 R132): die and COUNTER, the stream or job it is allocated to, participants and arrivals of the running
generation. -/
structure Barrier where
  die : Nat
  counter : Nat
  owner : Nat
  participants : Option Nat := none
  arrived : List ThreadId := []
  deriving DecidableEq, Repr

/-- Stream parameters (13 R303), defaults of 10 R222, 11 R248, R252. -/
structure StreamParams where
  width : Nat := 0
  height : Nat := 0
  bitDepth : Nat := 0
  sampling : Nat := 0
  tileSize : Nat := 0
  refreshN : Nat := 0
  interval : Nat := 0
  maxInput : Nat := 0
  maxOutput : Nat := 0
  sampleRate : Nat := 0
  channels : Nat := 0
  azimuth : Nat := 0
  beams : Nat := 0
  returnPlane : Nat := 0
  rangeE : Nat := 0
  imode : Nat := 1
  ei : Nat := 0
  resDepth : Nat := 8
  shareCap : Nat := 25
  adapt : Nat := 0
  refSearch : Nat := 1
  ltAuto : Nat := 0
  emitIncomplete : Nat := 0
  source : Nat := 0
  reconDigest : Nat := 0
  digestReport : Nat := 0
  digestCheck : Nat := 1
  archive : Nat := 0
  heads : Nat := 0
  ingestFormat : Nat := 0
  reorder : Nat := 0
  network : Nat := 0
  deriving DecidableEq, Repr

/-- Rate-control settings (10 R236). -/
structure RateCfg where
  mode : Nat := 0
  qiFixed : Nat := 32
  qiInit : Nat := 32
  qiMin : Nat := 0
  qiMax : Nat := 63
  bitrate : Nat := 0
  buf : Nat := 0
  lmv0 : Nat := 256
  deriving DecidableEq, Repr

/-- A rectangle of 10 R235. -/
structure RoiRect where
  x0 : Nat
  y0 : Nat
  x1 : Nat
  y1 : Nat
  dq : Int
  deriving DecidableEq, Repr

/-- A damage report (10 R243): tile none is 0xFFFF_FFFF. -/
structure Damage where
  picture : Nat
  tile : Option Nat
  cause : Nat
  detail : Nat
  deriving DecidableEq, Repr

/-- An input picture (14 R320). -/
structure InputPic where
  picture : Nat
  metadata : List Byte
  samples : List Byte
  complete : Bool
  arrivedAt : Nat
  /-- every condition of 10 R240 has held for it so far -/
  bounded : Bool := true
  deriving DecidableEq, Repr

/-- A list template instantiated for a tile (09 R195): where it lies, its network and its place there, the addresses its buffers are
bound to, and whether it has been queued. -/
structure ListRef where
  addr : Nat
  net : Nat
  list : Nat
  buffers : List (Nat × Nat) := []
  queued : Bool := false
  deriving DecidableEq, Repr

/-- What a MOTION network made of a tile (10 R226), or, of a LATENT stream, its latents under the numbers from 256 (11 R261): the network, the tile, the tensor's shape, its codes in the order C, H, W, and its
scale packets. -/
structure Feature where
  net : Nat
  tile : Nat
  c : Nat
  h : Nat
  w : Nat
  codes : List Nat
  packets : List Byte
  deriving DecidableEq, Repr

/-- A slot of the reference store (10 R226): the picture it holds, none the grey picture, its samples and its features. -/
structure RefSlot where
  picture : Option Nat := none
  planes : List (List Int) := []
  features : List Feature := []
  deriving DecidableEq, Repr

/-- What ENC, DEC and MSEARCH have done for one tile of a picture. -/
structure TileWork where
  tile : Nat
  /-- the thread its lists were queued on, and its lists in order -/
  home : Option ThreadId := none
  lists : List ListRef := []
  /-- rANS segments by step, and the BYPASS_END of each step that has run (07 R162) -/
  segments : List (Nat × List Byte) := []
  ends : List (Nat × Nat) := []
  bypass : List Byte := []
  bypassBits : Nat := 0
  motion : List Byte := []
  /-- decoder: the tile's unit and the motion field decompressed from it -/
  unit : List Byte := []
  /-- reconstruction planes of the tile as raw sample values, row by row, and its reference features -/
  planes : List (List Int) := []
  features : List Feature := []
  done : Bool := false
  deriving DecidableEq, Repr

/-- A picture under way. -/
structure Pic where
  picture : Nat
  qi : Nat := 32
  startedAt : Nat := 0
  input : Option InputPic := none
  /-- decoder: picture header body, delta bodies, ROI, decompressed metadata -/
  header : List Byte := []
  deltas : List (List Byte) := []
  roi : List RoiRect := []
  metadata : List Byte := []
  hasRoi : Bool := false
  hasMeta : Bool := false
  tiles : List TileWork := []
  /-- encoder: units written for the picture so far; LATENT decoder: feature records -/
  unitsOut : List (List Byte) := []
  digestIn : Option (List Byte) := none
  started : Bool := false
  ended : Bool := false
  /-- the parameters in force for it (13 R304) -/
  params : StreamParams := {}
  /-- damage of its tiles so far -/
  damage : List Damage := []
  /-- decoder: the stream stops with this before the picture, once earlier ones are complete -/
  doom : Option Status := none
  /-- bytes of its units, and the slots LT0 to LT3 it is copied into -/
  bytes : Nat := 0
  marks : Nat := 0
  deriving DecidableEq, Repr

/-- A delta in force (09 R211): layer, the codes and their scale packets. -/
structure DeltaRec where
  layer : Nat
  /-- the picture that carried it -/
  since : Nat
  body : List Byte
  deriving DecidableEq, Repr

/-- A merged copy of an adaptable layer (09 R214): its WEIGHT_ID, the parity of the pictures that use it, the die it serves and its
address. -/
structure MergedCopy where
  weight : Nat
  parity : Nat
  die : Nat
  addr : Nat
  deriving DecidableEq, Repr

/-- Twin archive state of a stream (14 R334). -/
structure TwinArchive where
  ownConfig : Option (List Byte) := none
  peerConfig : Option (List Byte) := none
  own : List (Nat × List Byte × Nat) := []
  peer : List (Nat × List Byte) := []
  /-- completed pictures held for their digests: the records to emit -/
  held : List (Nat × List (List Byte)) := []
  deriving DecidableEq, Repr

/-- Directions of a stream. -/
inductive Dir where
  | encode | decode | ingest
  deriving DecidableEq, Repr

/-- STATE of 13 R306. -/
inductive StreamState where
  | open_ | ended | stopped | closing
  deriving DecidableEq, Repr

/-- A stream. -/
structure Stream where
  number : Nat
  owner : List Byte
  slot : Nat
  digest : List Byte
  cls : Nat
  dir : Dir
  latent : Bool
  media : Nat
  params : StreamParams
  /-- the open parameter entries as given, for CONFIG of 14 R334 -/
  entries : List Byte := []
  state : StreamState := .open_
  status : Status := .ok
  damage : Option Damage := none
  lastPicture : Option Nat := none
  lastStarted : Option Nat := none
  lastQi : Nat := 0
  /-- rate control (10 R237) -/
  rate : RateCfg := {}
  rateF : Int := 0
  resetAt : Nat := 0
  qis : List (Nat × Nat) := []
  sizes : List (Nat × Nat) := []
  pendingRate : List (Nat × RateCfg) := []
  roi : List RoiRect := []
  pendingRoi : List (Nat × List RoiRect) := []
  pendingCfg : List (Nat × List Byte) := []
  marks : List (Nat × Nat) := []
  /-- reference store: ST0 to ST3, LT0 to LT3 (10 R226) -/
  refs : List RefSlot := List.replicate 8 {}
  deltas : List DeltaRec := []
  /-- merged copies of adaptable layers (09 R214) -/
  copies : List MergedCopy := []
  /-- the picture the latest merge was for -/
  mergedFor : Option Nat := none
  /-- the picture of the refresh period the decoder began with -/
  firstPicture : Option Nat := none
  header : List Byte := []
  /-- decoder: a stream header read and not yet followed by its picture -/
  headerPending : Option (List Byte) := none
  inBytes : List Byte := []
  /-- bytes of the stream that a decoder has read, counted in 64 bits (12 R283) -/
  bytesRead : BitVec 64 := 0
  endSeen : Bool := false
  nextInput : Nat := 0
  /-- GTS of the last byte of the latest complete input picture -/
  lastArrival : Option Nat := none
  inputs : List InputPic := []
  pics : List Pic := []
  highBits : Nat := 0
  discarded : Nat := 0
  adaptSat : Nat := 0
  /-- film grain parameter sets that an ingest decoder has ignored (10 R244) -/
  grains : Nat := 0
  late : Nat := 0
  digestRep : Option (Nat × Bool × List Byte) := none
  regions : List (Nat × Nat) := []
  boundUs : Nat := 0
  /-- service windows that extend the bound (18 R412): start, end (none while open), extension in µs (0: the window's length, 80 ms
  at most) -/
  windows : List (Nat × Option Nat × Nat) := []
  resLp : Nat := 0
  resDs : Nat := 0
  qpn : Nat := 0
  twin : TwinArchive := {}
  /-- STREAM_CLOSE requests waiting for their final reply -/
  closing : List Req := []
  deriving DecidableEq, Repr

/-- Kinds of job. -/
inductive JobKind where
  | list | train | lzPack | lzUnpack
  deriving DecidableEq, Repr

/-- A moment of 09 R218 as 03 R70 keeps it: INT8 codes, and the scale and zero point of each block of 64. -/
structure Moment where
  codes : List Nat
  packets : List (Nat × Int)
  deriving DecidableEq, Repr

/-- The factors a TRAIN job learns for a layer as FP32 bits, U by output channel and then rank, V by rank and then column (09 R211), and
the first and second moments of both. -/
structure Factor where
  layer : Nat
  u : List Nat
  v : List Nat
  um : Moment
  uv : Moment
  vm : Moment
  vv : Moment
  deriving DecidableEq, Repr

/-- A job (13 R301, 09 R216). -/
structure Job where
  number : Nat
  owner : List Byte
  kind : JobKind
  cls : Nat
  /-- 0 queued, 1 running, 2 complete, 3 stopped, 4 cancelled -/
  state : Nat := 0
  status : Status := .ok
  done : Nat := 0
  result : Nat := 0
  /-- the parameters as submitted -/
  params : List Byte
  slot : Option Nat := none
  count : Nat
  cancel : Bool := false
  resLp : Nat := 0
  resDs : Nat := 0
  dies : Nat := 0
  factors : List Factor := []
  deriving DecidableEq, Repr

/-- An admission ticket (10 R239, 13 R304). -/
structure Ticket where
  number : Nat
  owner : List Byte
  openParams : List Byte
  regions : List (Nat × Nat)
  boundUs : Nat
  createdAt : Nat
  resLp : Nat
  resDs : Nat
  params : StreamParams
  /-- the queue pair bound at admission -/
  qpn : Nat
  deriving DecidableEq, Repr

/-- A suspect, or an outside thread, of a recovery (17 R387, R393, R401). -/
structure Suspect where
  /-- the context as it stood at Fence -/
  thread : Thread
  /-- the context as it stands while it is kept from running; while it is replayed, the queued lists kept from it -/
  held : Thread
  outside : Bool := false
  suspect : Bool := true
  /-- OUTCOME of 17 R401 -/
  outcome : Nat := 0
  round : Nat := 0xFF
  status : Status := .ok
  deriving DecidableEq, Repr

/-- A recovery under way (17 R386). -/
structure Recovery where
  dom : Domain
  trigger : Nat
  event : Option EventRec
  /-- 0 Fence, 1 Sample, 2 Reset, 3 Retrain, 4 Restore, 5 Replay -/
  step : Nat := 0
  beganAt : Nat
  stepAt : Nat
  stepUs : List Nat := []
  suspects : List Suspect := []
  round : Nat := 0
  condemned : Nat := 0
  compat : Bool := false
  /-- the context named by tag (17 R397) -/
  named : Option ThreadId := none
  seq : Nat
  reqs : List Req := []
  /-- contexts condemned with TIMEOUT by an engine's chunk: die, engine, place, context, and its stream's or job's number
  (17 R395) -/
  hung : List (Nat × Engine × Nat × ThreadId × Nat) := []
  /-- streams and jobs so stopped: number, whether a job, and a stream's state and regions before -/
  undo : List (Nat × Bool × StreamState × List (Nat × Nat)) := []
  fromStaged : Bool := false
  deriving DecidableEq, Repr

/-- A crash record (17 R399 to R402): its place in the area, the header's changing fields, and what was sampled. -/
structure CrashRec where
  offset : Nat
  dom : Domain
  trigger : Nat
  compat : Bool
  seq : Nat
  gtsBegin : Nat
  gtsEnd : Nat := 0
  condemned : Nat := 0
  event : Option EventRec
  stepUs : List Nat := []
  contexts : List Suspect
  /-- the descriptors of the contexts' OP_INDEX -/
  descrs : List (ThreadId × List Byte)
  /-- sampled lines in record order -/
  samples : List Byte
  nUnits : Nat
  deriving DecidableEq, Repr

/-- A measurement-log entry (19 R432). -/
structure LogEntry where
  type : Nat
  index : Nat
  image : Nat
  isPartial : Bool
  version : Nat
  gts : Nat
  digest : List Byte
  deriving DecidableEq, Repr

/-- A firmware activation (18 R414). -/
structure Activation where
  req : Req
  stageId : Nat
  image : List Byte
  /-- 1 regions, 4 flash write -/
  step : Nat
  region : Nat := 0
  attempts : Nat := 0
  restart : Bool := false
  deriving DecidableEq, Repr

/-- The life log (16 R379); its image is rendered from these fields. -/
structure LifeLog where
  seconds : Nat := 0
  recoveries : List Nat := [0, 0, 0]
  throttleMs : List Nat := List.replicate 8 0
  temps : List (List Nat) := List.replicate 8 (List.replicate 16 0)
  volts : List (List Nat) := List.replicate 16 (List.replicate 16 0)
  latency : List Nat := List.replicate 32 0
  retrains : List (List Nat) := List.replicate 8 (List.replicate 6 0)
  spares : List (List Nat) := List.replicate 8 (List.replicate 5 0)
  /-- correctable errors: die, index in record order, count -/
  ce : List (Nat × Nat × Nat) := []
  saveSeq : Nat := 0
  saveGts : Nat := 0
  deriving DecidableEq, Repr

/-- Board flash (19 R419; contents at power-on: log 6). -/
structure Flash where
  certs : List Byte := []
  allow : List (List Byte) := [[], []]
  portCfg : List (List (Option PortCfg × Nat)) := List.replicate 8 [(none, 0), (none, 0)]
  image : List Byte := []
  lifeLog : List LifeLog := []
  /-- a write of the image is under way, or its last read-back failed -/
  broken : Bool := false
  hasSfdp : Bool := true
  deriving DecidableEq, Repr

/-- PARTNER_CONFIG under way (14 R330): the request, the table asked for, and the ports that have answered. -/
structure PartnerPending where
  req : Req
  table : List (Nat × Nat × BitVec 256)
  results : List (Nat × Nat) := []
  deriving DecidableEq, Repr

/-- Twin mode (14 R332, R333). -/
structure TwinState where
  on : Bool := false
  role : Nat := 0
  peer : BitVec 256 := 0
  pendingReq : Option Req := none
  since : Nat := 0
  roleOk : Bool := false
  /-- messages of the peer for pairs not open here yet: pair, picture (none for CONFIG), digest -/
  early : List (Nat × Option Nat × List Byte) := []
  deriving DecidableEq, Repr

/-- TIME_SYNC ALIGN and tracking (16 R369). -/
structure AlignState where
  req : Option Req := none
  port : Nat := 0
  partner : Nat := 0
  exchanges : List AlignStamps := []
  aligned : Bool := false
  lost : Bool := false
  reference : Nat := 0
  offset : BitVec 16 := 0
  trackAt : Nat := 0
  deriving DecidableEq, Repr

/-- What leaves the part (the model's own record of it, log 3). -/
inductive Out where
  | reply (r : Reply)
  | smbus (words : List (BitVec 16))
  | regValue (m : Master) (v : Word)
  | regStatus (m : Master) (st : Status)
  | record (stream : Nat) (bytes : List Byte)
  | unit (stream : Nat) (bytes : List Byte)
  | frame (port : Nat) (kind : String) (dest : Nat) (bytes : List Byte)
  | flit (port : Nat) (kind : String) (number : Nat)
  | packet (p : PartnerPacket) (type : Nat)
  | pin (name : String) (level : Bool)
  deriving DecidableEq, Repr

/-- The state of the block. -/
structure State where
  /-- commands waiting, first in, first out -/
  pending : List Instr
  /-- which part it is (log 4) -/
  part : Part
  phase : Phase
  gts : Nat
  /-- GTS still to be withheld by slewing, and nanoseconds since the last withheld or added tick (16 R369) -/
  slew : Int
  slewPhase : Nat
  freeCtr : Nat
  out : List Out
  /-- pins (20 R438; log 5) -/
  resetN : Bool
  pwrGood : Bool
  thermTrip : Bool
  gtsPps : Nat
  align : AlignState
  /-- SHL_BOOT: mode sampled, source, result, die named -/
  bootMode : BitVec 2
  bootSource : Nat
  bootResult : Nat
  bootDie : Nat
  chainOk : Bool
  /-- the running image, and the GTS at which a commit's reboot is due -/
  image : List Byte
  rebootAt : Option Nat
  /-- allow-list record in force -/
  allow : List Byte
  log : List LogEntry
  logSeq : Nat
  /-- GTS of the latest rise of LOG_SEQ (19 R431: one rise a tick) -/
  logAt : Option Nat
  flash : Flash
  dies : List Die
  /-- HUL_DIE[7:4] -/
  hulPackage : Nat
  hulEvtOut : Word
  hulT7 : Word
  t7At : Nat
  mem : List Host.Cell
  threads : List Thread
  /-- outlier side tensors (03 R69) by the address of their narrow tensor, BF16 codes; where they lie is private -/
  sides : List (Nat × List Nat)
  /-- addresses of the scale streams that QSCAN and carried-scale operations have written (03 R65; log 79) -/
  dynamic : List Nat
  barriers : List Barrier
  /-- the clusters' instruction stores -/
  istore : List Fetched
  /-- table store: two banks of four set slots, the active bank (07 R163) -/
  banks : List (List (List Table))
  activeBank : Nat
  profiles : List (Option Profile)
  loading : Option LoadRun
  sessionCtr : Option Nat
  sessions : List Session
  /-- IND_ADDR and IND_STATUS by master and die (15 R343) -/
  indRegs : List ((Master × Nat) × (Word × BitVec 2))
  staging : List Staging
  qps : List QueuePair
  streams : List Stream
  jobs : List Job
  tickets : List Ticket
  nextNumber : Nat
  routing : List (Nat × Nat × BitVec 256)
  partnerPending : Option PartnerPending
  twin : TwinState
  recoveries : List Recovery
  crash : List CrashRec
  recoverySeq : Nat
  activation : Option Activation
  lifeLog : LifeLog
  lifBusy : Bool
  lifAgain : Bool
  lifOk : Bool
  /-- the image the running save writes, and the GTS of the latest save -/
  lifSaving : LifeLog
  lifAt : Nat
  deriving DecidableEq, Repr

/-- Instance records of 40 lanes: index 4 of each region's five is its spare (15 R347). -/
def lanesReset : List ElemRec := (List.range 40).map fun i => if i % 5 = 4 then { spare := true, up := false } else {}

/-- Instance records of 288 units: index 8 of each cluster's nine is its spare (15 R347). -/
def unitsReset : List ElemRec := (List.range 288).map fun i => if i % 9 = 8 then { spare := true, up := false } else {}

/-- A die right after reset. -/
def Die.reset : Die := { ent := lanesReset, rgn := unitsReset }

/-- The machine right after reset: RESET_N low, every register at its reset value, nothing loaded. -/
def State.reset : State where
  pending := []
  part := .zlk208
  phase := .inReset
  gts := 0
  slew := 0
  slewPhase := 0
  freeCtr := 0
  out := []
  resetN := false
  pwrGood := true
  thermTrip := false
  gtsPps := 0
  align := {}
  bootMode := 0
  bootSource := 0
  bootResult := 0
  bootDie := 0
  chainOk := false
  image := []
  rebootAt := none
  allow := []
  log := []
  logSeq := 0
  logAt := none
  flash := {}
  dies := List.replicate 8 Die.reset
  hulPackage := 0
  hulEvtOut := 0x00006401
  hulT7 := 0x00271001
  t7At := 0
  mem := []
  threads := []
  sides := []
  dynamic := []
  barriers := []
  istore := []
  banks := [[[], [], [], []], [[], [], [], []]]
  activeBank := 0
  profiles := [none, none, none, none]
  loading := none
  sessionCtr := none
  sessions := []
  indRegs := []
  staging := []
  qps := []
  streams := []
  jobs := []
  tickets := []
  nextNumber := 1
  routing := []
  partnerPending := none
  twin := {}
  recoveries := []
  crash := []
  recoverySeq := 0
  activation := none
  lifeLog := {}
  lifBusy := false
  lifAgain := false
  lifOk := false
  lifSaving := {}
  lifAt := 0

end Sys2Proof.Machine
end

