-- ==== Sys2Proof/Machine/Ops.lean ====
section
/-! DEFINITION. The named operations every command uses: memory and the address map (06 R121 to R125), the dies, events and
sticky bits (16 R372 to R378), numbers and free values, and stopping a thread, a stream or a job once (02 R57). -/

namespace Sys2Proof.Machine

open Sys2Proof (Byte Word DWord)

/-- The codes of 13 R300. -/
def statusCode : Status → Nat
  | .ok => 0x0000 | .pending => 0x0001 | .badOpcode => 0x0010 | .badParam => 0x0011 | .badShape => 0x0012
  | .badAddress => 0x0013 | .noResource => 0x0020 | .resourceBusy => 0x0021 | .notPrivileged => 0x0030 | .authFail => 0x0031
  | .seqConflict => 0x0032 | .stale => 0x0033 | .profileMissing => 0x0040 | .profileMismatch => 0x0041
  | .admissionRefused => 0x0042 | .streamDamaged => 0x0050 | .scaleSkew => 0x0051 | .domainViolation => 0x0052
  | .fenced => 0x0060 | .recovering => 0x0061 | .timeout => 0x0062 | .twinDiverge => 0x0070

/-! ### Memory -/

/-- The canonical form of memory: addresses strictly rising, and no byte listed that an unlisted address reads as (0). -/
def Memory.wf : List Host.Cell → Bool
  | [] => true
  | [c] => c.2 != 0
  | c :: d :: rest => c.2 != 0 && c.1 < d.1 && Memory.wf (d :: rest)

/-- What an address reads as: an unlisted address reads 0 (log 1). -/
def Memory.read (m : List Host.Cell) (a : Nat) : Byte :=
  match m with
  | [] => 0
  | c :: rest => if c.1 = a then c.2 else if a < c.1 then 0 else Memory.read rest a

/-- Writing one byte, in canonical form: a byte 0 removes its entry. -/
def Memory.write (m : List Host.Cell) (a : Nat) (b : Byte) : List Host.Cell :=
  match m with
  | [] => if b = 0 then [] else [(a, b)]
  | c :: rest =>
    if c.1 < a then c :: Memory.write rest a b
    else if c.1 = a then (if b = 0 then rest else (a, b) :: rest)
    else if b = 0 then c :: rest else (a, b) :: c :: rest

/-- Writing bytes at rising addresses. -/
def Memory.writeBytes (m : List Host.Cell) (a : Nat) : List Byte → List Host.Cell
  | [] => m
  | b :: bs => Memory.writeBytes (Memory.write m a b) (a + 1) bs

/-- Writing several runs of bytes, in order. -/
def Memory.writeRuns (m : List Host.Cell) : List (Nat × List Byte) → List Host.Cell
  | [] => m
  | r :: rs => Memory.writeRuns (Memory.writeBytes m r.1 r.2) rs

/-- Clearing every byte of `[lo, hi)` to 0 (17 R388, R391: cleared memory reads zero afterwards). -/
def Memory.clear (m : List Host.Cell) (lo hi : Nat) : List Host.Cell := m.filter fun c => c.1 < lo || hi ≤ c.1

/-- The byte memory reads at an address. -/
def State.byteAt (s : State) (a : Nat) : Byte := Memory.read s.mem a

/-- `k` bytes from an address. -/
def State.bytesAt (s : State) (a k : Nat) : List Byte := (List.range k).map fun i => s.byteAt (a + i)

/-- The little-endian number of `k` bytes at an address. -/
def State.numAt (s : State) (a k : Nat) : Nat := leNat (s.bytesAt a k)

/-- The state with bytes written. -/
def State.put (s : State) (a : Nat) (bs : List Byte) : State := { s with mem := Memory.writeBytes s.mem a bs }

/-- The state with several runs of bytes written. -/
def State.putRuns (s : State) (rs : List (Nat × List Byte)) : State := { s with mem := Memory.writeRuns s.mem rs }

/-- The state with a range of memory cleared. -/
def State.clearMem (s : State) (lo hi : Nat) : State := { s with mem := Memory.clear s.mem lo hi }

/-! ### The part and its dies -/

/-- Dies of a part (00 R1). -/
def Part.dies : Part → Nat
  | .zlk202 => 2 | .zlk204 => 4 | .zlk208 => 8

/-- The decimal part number (00 R1). -/
def Part.number : Part → Nat
  | .zlk202 => 202 | .zlk204 => 204 | .zlk208 => 208

def State.dieCount (s : State) : Nat := s.part.dies

/-- Die `d`. -/
def State.die (s : State) (d : Nat) : Die := s.dies.getD d {}

/-- Die `d` replaced by `f` of it. -/
def State.onDie (s : State) (d : Nat) (f : Die → Die) : State := { s with dies := modifyAt s.dies d f }

/-- Every die replaced by `f` of it. -/
def State.onDies (s : State) (f : Die → Die) : State := { s with dies := s.dies.map f }

/-- Columns of the die grid (01 R19). -/
def Part.columns : Part → Nat
  | .zlk202 => 2 | .zlk204 => 2 | .zlk208 => 4

/-- Grid row and column of a die (01 R19). -/
def Part.row (p : Part) (d : Nat) : Nat := d / p.columns
def Part.column (p : Part) (d : Nat) : Nat := d % p.columns

/-- The die across a bridge (15 R347: index 0 the next lower column, 1 the next higher, 2 the other row, 3 always absent). -/
def Part.bridgeTo (p : Part) (d i : Nat) : Option Nat :=
  let c := p.column d
  match i with
  | 0 => if c = 0 then none else some (d - 1)
  | 1 => if c + 1 < p.columns then some (d + 1) else none
  | 2 => if p = .zlk202 then none else some (if p.row d = 0 then d + p.columns else d - p.columns)
  | _ => none

/-- The network of a port: 0 A, 1 B (01 R15). -/
def networkOf (port : Nat) : Nat := port % 2

/-- Something leaves the part (log 3). -/
def State.emit (s : State) (o : Out) : State := { s with out := s.out ++ [o] }

/-- Several things leave the part. -/
def State.emits (s : State) (os : List Out) : State := { s with out := s.out ++ os }

/-- The next free value, and the state with the draw counted (log 2). -/
def State.draw (s : State) : Nat × State := (Config.freeValue s.freeCtr, { s with freeCtr := s.freeCtr + 1 })

/-- `k` free bytes. -/
def State.drawBytes (s : State) (k : Nat) : List Byte × State :=
  ((List.range k).map fun i => byte (Config.freeValue (s.freeCtr + i)), { s with freeCtr := s.freeCtr + k })

/-- The next number for a stream, job, ticket or staging area (log 8). -/
def State.newNumber (s : State) : Nat × State := (s.nextNumber, { s with nextNumber := s.nextNumber + 1 })

/-! ### Events and sticky bits (16 R372 to R378) -/

/-- The order of a queue: by GTS, then by SRC (16 R374). -/
def EventRec.le (a b : EventRec) : Bool :=
  a.gts.toNat < b.gts.toNat || (a.gts == b.gts && a.src.toNat ≤ b.src.toNat)

/-- A record put into its place. -/
def EventRec.insert (r : EventRec) : List EventRec → List EventRec
  | [] => [r]
  | x :: xs => if EventRec.le x r then x :: EventRec.insert r xs else r :: x :: xs

def Sticky.bit : Sticky → Nat
  | .evqOverflow => 0 | .accessViolation => 1 | .scaleSkew => 2 | .domainViolation => 3 | .streamDamaged => 4
  | .class0Late => 5 | .twinDiverge => 6 | .poolStall => 7 | .ethDown => 8 | .plkDown => 9 | .bridgeDown => 10
  | .throttle => 11 | .tj100 => 12 | .tj105 => 13 | .recovery => 14 | .spareEngaged => 15 | .lost => 16
  | .gtsAlignLost => 17 | .lifelogFail => 18

/-- A die with a sticky bit set. -/
def Die.stick (d : Die) (b : Sticky) : Die :=
  { d with sticky := d.sticky ||| (1#64 <<< b.bit), fresh := d.fresh ||| (1#64 <<< b.bit) }

/-- A die with sticky bits cleared by a write of ones: a bit set in the same cycle, which the model takes to be one nanosecond of the
clock, stays set (00 R8; 16 R378; DEDUCED, log 92). -/
def Die.unstick (d : Die) (v : BitVec 64) : Die := { d with sticky := d.sticky &&& ~~~(v &&& ~~~d.fresh) }

/-- A die whose queue takes a record (16 R375): a full queue discards it, the first discard sets EVQ_OVERFLOW. -/
def Die.record (d : Die) (r : EventRec) : Die :=
  if d.events.length < 4096 && d.discarded == 0 then { d with events := r.insert d.events }
  else { d.stick .evqOverflow with discarded := d.discarded + 1 }

/-- A sticky bit set on die `d`. -/
def State.stick (s : State) (d : Nat) (b : Sticky) : State := s.onDie d (·.stick b)

/-- The record of source block `blk` of die `d` at the present GTS. -/
def State.mkEvent (s : State) (d blk code arg : Nat) : EventRec :=
  ⟨BitVec.ofNat 64 s.gts, BitVec.ofNat 16 (d * 8192 + blk), BitVec.ofNat 16 code, BitVec.ofNat 32 arg⟩

/-- An event record of source block `blk` of die `d`, in that die's queue (16 R373). -/
def State.event (s : State) (d blk code arg : Nat) : State := s.onDie d (·.record (s.mkEvent d blk code arg))

/-- Firmware sources (16 R372). -/
def srcStream : Nat := 0x1001
def srcProfiles : Nat := 0x1002
def srcService : Nat := 0x1003
def srcRecovery : Nat := 0x1004

/-- Whether ALERT_N is asserted: a sticky bit under its alert bit on some die (15 R351), the failed state or a trip (20 R459),
or a hold with ALERT_N asserted (19 R423, R424). During reset it is released (20 R438). -/
def State.alertN (s : State) : Bool :=
  match s.phase with
  | .inReset => false
  | .failed | .tripped | .idle => true
  | _ => (s.dies.take s.dieCount).any fun d => d.sticky &&& d.alert != 0

/-- The level of EVT_OUT (20 R456, R459). -/
def State.evtOut (s : State) : Bool :=
  match s.phase with
  | .inReset => false
  | .failed | .tripped => true
  | _ =>
    match s.hulEvtOut.toNat % 4 with
    | 1 => s.alertN
    | 2 => s.gts % 10 ^ 9 < bits s.hulEvtOut.toNat 8 8 * 1000
    | _ => false

/-! ### The address map (06 R121 to R125) -/

/-- Where an address lies. -/
inductive Loc where
  | lpddr (die off : Nat)
  | deepSram (die off : Nat)
  | pod (die cluster off : Nat)
  | scratch (die unit off : Nat)
  | partner (p off : Nat)
  | registers
  | none_
  deriving DecidableEq, Repr

def scratchBase (die unit : Nat) : Nat := 0x310000000000 + die * 0x10000000 + unit * 0x80000
def podBase (die cluster : Nat) : Nat := 0x200000000000 + die * 0x10000000 + cluster * 0x400000
def deepBase (die : Nat) : Nat := 0x100000000000 + die * 0x100000000
def lpBase (die : Nat) : Nat := die * 0x4000000000

/-- The address as a memory location: an own-scratchpad address becomes the global-view address of the calling unit's
scratchpad (06 R465). -/
def canonAddr (t : ThreadId) (a : Nat) : Nat :=
  if 0x300000000000 ≤ a ∧ a < 0x300000080000 then scratchBase t.die t.unit + (a - 0x300000000000) else a

/-- The location of a canonical address, by 06 R121; dies the part does not have are unpopulated (00 R4). -/
def locate (dies : Nat) (a : Nat) : Loc :=
  if a < 0x100000000000 then
    let d := a / 0x4000000000
    let o := a % 0x4000000000
    if d < dies ∧ o < 0x3000000000 then .lpddr d o else .none_
  else if a < 0x200000000000 then
    let b := a - 0x100000000000
    let d := b / 0x100000000
    let o := b % 0x100000000
    if d < dies ∧ o < 0xC0000000 then .deepSram d o else .none_
  else if a < 0x300000000000 then
    let b := a - 0x200000000000
    let d := b / 0x10000000
    let q := b % 0x10000000 / 0x400000
    if d < dies ∧ q < 32 then .pod d q (b % 0x400000) else .none_
  else if 0x310000000000 ≤ a ∧ a < 0x320000000000 then
    let b := a - 0x310000000000
    let d := b / 0x10000000
    let u := b % 0x10000000 / 0x80000
    if d < dies ∧ u < 256 then .scratch d u (b % 0x80000) else .none_
  else if 0x700000000000 ≤ a ∧ a < 0x800000000000 then .registers
  else if 0x800000000000 ≤ a ∧ a < 0x1000000000000 then
    .partner ((a - 0x800000000000) / 0x100000000000) ((a - 0x800000000000) % 0x100000000000)
  else .none_

/-- Two locations of one range of 06 R121 (R122). -/
def Loc.sameRange : Loc → Loc → Bool
  | .lpddr d _, .lpddr e _ => d == e
  | .deepSram d _, .deepSram e _ => d == e
  | .pod d q _, .pod e r _ => d == e && q == r
  | .scratch d u _, .scratch e v _ => d == e && u == v
  | .partner p _, .partner q _ => p == q
  | _, _ => false

/-- The die's domain that holds a location. -/
def Loc.die? : Loc → Option Nat
  | .lpddr d _ | .deepSram d _ | .pod d _ _ | .scratch d _ _ => some d
  | _ => none

/-- Channel, device and channel address of an offset in a die's LPDDR5X (06 R123). -/
def lpChannel (off : Nat) : Nat := off / 4096 % 16
def lpDevice (off : Nat) : Nat := lpChannel off / 8
def lpChannelAddr (off : Nat) : Nat := off / 65536 * 4096 + off % 4096

/-- The dies that traffic from a die passes on its way to another, that one included: along the row to its column, then across rows
(01 R19). -/
def Part.route (p : Part) (a b : Nat) : List Nat :=
  let ca := p.column a
  let cb := p.column b
  let row := p.row a * p.columns
  let along := if ca ≤ cb then (List.range (cb - ca)).map fun i => row + ca + i + 1 else (List.range (ca - cb)).map fun i => row + ca - i - 1
  if p.row a = p.row b then along else along ++ [b]

/-- The dies whose fabric an access of a thread crosses on its way to a location: those of the route, the one of the partner port
included. -/
def State.crossed (s : State) (d : Nat) (l : Loc) : List Nat :=
  match l with
  | .partner p _ => match s.routing.find? (·.1 == p) with
    | some r => d :: s.part.route d r.2.1
    | none => []
  | l => match l.die? with
    | some e => s.part.route d e
    | none => []

/-- Whether a thread may access a span of bytes: populated, inside one range, no retired page, no firmware-reserved byte, and a
partner window only where the routing table names it (06 R122 to R125, 01 R18). -/
def State.accessOk (s : State) (sp : Span) : Bool :=
  sp.len == 0 ||
  (let l := locate s.dieCount sp.base
   let h := locate s.dieCount (sp.base + sp.len - 1)
   l.sameRange h &&
   match l with
   | .lpddr d o =>
     o + sp.len ≤ 0x2FC0000000 &&
       ((s.die d).retired.all fun g => g < o / 4096 || (o + sp.len - 1) / 4096 < g)
   | .deepSram d o => (s.die d).retiredDs.all fun g => g < o / 4096 || (o + sp.len - 1) / 4096 < g
   | .partner p o => s.routing.any (·.1 == p) && o + sp.len ≤ 0x20000000000
   | _ => true)

/-- Whether an access touches the register range (06 R124). -/
def touchesRegisters (sp : Span) : Bool :=
  0x700000000000 < sp.base + sp.len && sp.base < 0x800000000000 && sp.len != 0

/-- Whether two spans share a byte. -/
def Span.overlaps (a b : Span) : Bool := a.len != 0 && b.len != 0 && a.base < b.base + b.len && b.base < a.base + a.len

/-- Whether any span of one list shares a byte with any of the other. -/
def spansMeet (a b : List Span) : Bool := a.any fun x => b.any x.overlaps

/-! ### Finding and replacing threads, streams and jobs -/

def State.thread (s : State) (t : ThreadId) : Option Thread := s.threads.find? (·.id == t)

/-- A context listed in State, replaced. -/
def State.setThread (s : State) (t : Thread) : State :=
  { s with threads := s.threads.map fun u => if u.id = t.id then t else u }

/-- Every context replaced by `f` of it. -/
def State.onThreads (s : State) (f : Thread → Thread) : State := { s with threads := s.threads.map f }

def State.stream (s : State) (n : Nat) : Option Stream := s.streams.find? (·.number == n)

def State.setStream (s : State) (st : Stream) : State :=
  { s with streams := s.streams.map fun u => if u.number = st.number then st else u }

def State.job (s : State) (n : Nat) : Option Job := s.jobs.find? (·.number == n)

def State.setJob (s : State) (j : Job) : State :=
  { s with jobs := s.jobs.map fun u => if u.number = j.number then j else u }

def State.session (s : State) (n : Nat) : Option Session := s.sessions.find? (·.number == n)

def State.setSession (s : State) (x : Session) : State :=
  { s with sessions := s.sessions.map fun u => if u.number = x.number then x else u }

def State.qp (s : State) (n : Nat) : Option QueuePair := s.qps.find? (·.qpn == n)

def State.setQp (s : State) (q : QueuePair) : State :=
  { s with qps := s.qps.map fun u => if u.qpn = q.qpn then q else u }

/-- Cluster and region of a unit (06 R121). -/
def unitRegion (u : Nat) : Nat := u / 32
def unitCluster (u : Nat) : Nat := u / 8

/-- A barrier counter without the arrivals of some contexts; one nobody is counted in begins a new generation. -/
def Barrier.without (b : Barrier) (gone : ThreadId → Bool) : Barrier :=
  let l := b.arrived.filter fun t => !gone t
  { b with arrived := l, participants := if l.isEmpty then none else b.participants }

/-! ### Stopping once (02 R57, 06 R120) -/

/-- Granules of 64 KiB of a die's pool before weights and drops: LPDDR5X less the firmware's gibibyte, or deep SRAM (06 R123,
R139). -/
def poolBase (ds : Bool) : Nat := if ds then 49152 else 3129344

/-- Granules of a pool: what weights and drops leave (06 R139). -/
def Pool.size (p : Pool) (ds : Bool) : Nat := poolBase ds - p.dropped - (p.weights.map (·.2)).sum

/-- Granules reserved. -/
def Pool.granted (p : Pool) : Nat := (p.reserved.map (·.2)).sum

/-- Whether a pool, less its pending granules and `w` granules of new weights, covers what is reserved and `n` more (06 R142,
18 R407). -/
def Pool.covers (p : Pool) (ds : Bool) (n w : Nat) : Bool := p.granted + n + w + p.pendingGran.length ≤ p.size ds

/-- Pending granules at a release: each is dropped while the pool without it covers what is reserved, else it stays (18 R407).
The dropped ones are the answer's second part. -/
def Pool.drops (ds : Bool) : List Nat → Pool → Pool × List Nat
  | [], p => (p, [])
  | g :: gs, p =>
    if p.granted + 1 ≤ p.size ds then
      let q := Pool.drops ds gs { p with
        dropped := p.dropped + 1, pendingGran := p.pendingGran.filter (· != g), deferred := p.deferred.filter (· != g) }
      (q.1, g :: q.2)
    else Pool.drops ds gs { p with deferred := if p.deferred.contains g then p.deferred else p.deferred ++ [g] }

/-- Granules of holdings. -/
def heldGranules (l : List Hold) : Nat := (l.map Hold.granules).sum

/-- Granules that no reservation and no pending page takes (06 R139). -/
def Pool.sharedSize (p : Pool) (ds : Bool) : Nat := p.size ds - p.granted - p.pendingGran.length

/-- Waiting requests served by class and arrival (06 R141): each takes its owner's reserved slot for the stage, if no tile holds it,
else free shared granules within the owner's share `cap` in percent, unless one before it waits for free granules. -/
def Pool.serve (ds : Bool) (cap : Nat → Nat) : List Hold → Bool → Pool → Pool
  | [], _, p => p
  | h :: hs, starved, p =>
    let all := p.sharedSize ds
    let may := 100 * (heldGranules (p.shared.filter (·.owner == h.owner)) + h.granules) ≤ cap h.owner * all
    let room := heldGranules p.shared + h.granules ≤ all
    if !(p.slots.any fun x => x.owner == h.owner && x.stage == h.stage) then
      Pool.serve ds cap hs starved { p with slots := p.slots ++ [h], waiting := p.waiting.erase h }
    else if may ∧ room ∧ starved = false then
      Pool.serve ds cap hs starved { p with shared := p.shared ++ [h], waiting := p.waiting.erase h }
    else Pool.serve ds cap hs (starved || (decide may && !decide room)) p

/-- Every waiting request that can be served, served. -/
def Pool.settle (p : Pool) (ds : Bool) (cap : Nat → Nat) : Pool :=
  Pool.serve ds cap (sortBy (fun (a b : Hold) => decide (a.cls ≤ b.cls)) p.waiting) false p

/-- What some holdings take is released, and requests among them withdrawn; a release restarts the progress monitor (06 R140, R143). -/
def Pool.drop (p : Pool) (gone : Hold → Bool) (now : Nat) : Pool :=
  let q := { p with
    slots := p.slots.filter (! gone ·), shared := p.shared.filter (! gone ·), waiting := p.waiting.filter (! gone ·) }
  if p.slots.any gone || p.shared.any gone then { q with releasedAt := now, stalled := false } else q

/-- Whether an owner holds granules of a pool. -/
def Pool.holds (p : Pool) (owner : Nat) : Bool := p.reserved.any (·.1 == owner) || p.shared.any (·.owner == owner)

/-- What an owner holds of a pool is released (06 R140, R143). -/
def Pool.release (p : Pool) (owner now : Nat) : Pool :=
  let q := p.drop (·.owner == owner) now
  if p.holds owner then { q with reserved := p.reserved.filter (·.1 != owner), releasedAt := now, stalled := false } else q

/-- SHARE_CAP of a stream; a job has the default (06 R141). -/
def State.shareCap (s : State) (owner : Nat) : Nat :=
  match s.stream owner with
  | some x => x.params.shareCap
  | none => 25

/-- Both pools of every die serve what they can. -/
def State.servePools (s : State) : State :=
  s.onDies fun d => { d with poolLp := d.poolLp.settle false s.shareCap, poolDs := d.poolDs.settle true s.shareCap }

/-- Whether a request of a tile waits in a pool of a die. -/
def State.poolWaits (s : State) (die owner picture tile : Nat) : Bool :=
  ((s.die die).poolLp.waiting ++ (s.die die).poolDs.waiting).any fun h => h.owner == owner && h.picture == picture && h.tile == tile

/-- Pages of a list that lie in granules. -/
def pagesIn (pages grans : List Nat) : List Nat := pages.filter fun g => grans.contains (g / 16)

/-- The record of a first deferred drop (18 R407). -/
def Pool.deferRecord (old new : Pool) (die pool now : Nat) : Option EventRec :=
  if new.deferred.isEmpty || old.deferNoted then none
  else some ⟨BitVec.ofNat 64 now, BitVec.ofNat 16 (die * 8192 + 0x1003), 0x0B09,
    BitVec.ofNat 32 (pool * 2 ^ 24 + new.deferred.length)⟩

/-- A die on which granules of both pools have been released: pending granules drop where they can (18 R406, R407). -/
def Die.dropPending (d : Die) (i now : Nat) : Die :=
  let lp := Pool.drops false d.poolLp.pendingGran d.poolLp
  let ds := Pool.drops true d.poolDs.pendingGran d.poolDs
  let d1 := { d with
    poolLp := { lp.1 with deferNoted := !lp.1.deferred.isEmpty }, poolDs := { ds.1 with deferNoted := !ds.1.deferred.isEmpty }
    retired := d.retired ++ pagesIn d.pendingPages lp.2
    pendingPages := d.pendingPages.filter fun g => !lp.2.contains (g / 16) }
  let d2 := match d.poolLp.deferRecord lp.1 i 0 now with
    | some r => d1.record r
    | none => d1
  match d.poolDs.deferRecord ds.1 i 1 now with
  | some r => d2.record r
  | none => d2

/-- An owner's holdings on a die are released. -/
def Die.releaseOwner (d : Die) (i owner now : Nat) : Die :=
  let d1 := { d with poolLp := d.poolLp.release owner now, poolDs := d.poolDs.release owner now }
  if d.poolLp.holds owner || d.poolDs.holds owner then d1.dropPending i now else d1

/-- Releasing a stream's or job's reservations on every die (06 R140). -/
def State.releasePools (s : State) (owner : Nat) : State :=
  ({ s with dies := s.dies.zipIdx.map fun p => p.1.releaseOwner p.2 owner s.gts } : State).servePools

/-- A tile of a stream gives its buffers back: it has moved on from every stage (06 R140, R141). -/
def State.releaseTile (s : State) (owner picture tile : Nat) : State :=
  (s.onDies fun d =>
    let gone := fun (h : Hold) => h.owner == owner && h.picture == picture && h.tile == tile
    { d with poolLp := d.poolLp.drop gone s.gts, poolDs := d.poolDs.drop gone s.gts }).servePools

/-- Freeing the class-0 regions an owner number holds (15 R358). -/
def State.releaseRegions (s : State) (owner : Nat) : State :=
  s.onDies fun d => { d with regions := d.regions.map fun r =>
    if r.owner = BitVec.ofNat 32 owner then { r with owner := 0xFFFFFFFF } else r }

/-- The threads of a stream or job: their queued lists are discarded and they are unbound (06 R120, R116). -/
def State.unbindThreads (s : State) (owner : Nat) : State :=
  { s with
    threads := s.threads.filter fun t => t.binding != owner || t.state == .stopped || t.out.any (! ·.done)
    barriers := s.barriers.filter (·.owner != owner) }

/-- A stream stops once with a status: what it had stopped with before stands (02 R57); its reservations are released
(06 R140). -/
def State.stopStream (s : State) (n : Nat) (st : Status) : State :=
  match s.stream n with
  | some x =>
    if x.state = .stopped then s
    else ((s.setStream { x with state := .stopped, status := st, regions := [] }).releasePools n).releaseRegions n
  | none => s

/-- A job stops once with a status. -/
def State.stopJob (s : State) (n : Nat) (st : Status) : State :=
  match s.job n with
  | some j => if j.state ≥ 2 then s else (s.setJob { j with state := 3, status := st }).releasePools n
  | none => s

/-- The stream or the job of a thread stops once. -/
def State.stopOwner (s : State) (t : Thread) (st : Status) : State :=
  if t.isJob then s.stopJob t.binding st else s.stopStream t.binding st

/-- Whether a domain holds a location (17 R382). -/
def domainHolds (x : Domain) (l : Loc) : Bool :=
  match x, l with
  | .package, _ => true
  | .die d, l => l.die? == some d
  | .region d r, .scratch e u _ => d == e && unitRegion u == r
  | .region d r, .pod e q _ => d == e && q / 4 == r
  | _, _ => false

/-- Whether a domain holds a thread. -/
def domainHas (x : Domain) (t : ThreadId) : Bool := domainHolds x (.scratch t.die t.unit 0)

/-- Whether a recovery is replaying a context and has not judged it. -/
def Recovery.replays (r : Recovery) (t : ThreadId) : Bool :=
  r.step == 5 && domainHas r.dom t && r.suspects.any fun p => p.thread.id == t && p.round == r.round && p.outcome == 0

/-- A context of a recovery condemned. -/
def Recovery.condemn (r : Recovery) (t : ThreadId) (st : Status) (outcome : Nat) : Recovery :=
  { r with
    condemned := r.condemned + 1
    suspects := r.suspects.map fun (p : Suspect) =>
      if p.thread.id = t then { p with outcome := outcome, status := st } else p }

/-- A context that faults while it is replayed is condemned: event 0x0A14 (17 R394). -/
def State.condemned (s : State) (t : Thread) (st : Status) : State :=
  if s.recoveries.any (·.replays t.id) then
    ({ s with recoveries := s.recoveries.map fun (r : Recovery) =>
      if r.replays t.id then r.condemn t.id st 3 else r } : State).event t.id.die t.id.unit 0x0A14 t.binding
  else s

/-- A thread alone stops with a status: it issues nothing more, and its queued lists are discarded (06 R120). -/
def State.haltThread (s : State) (t : Thread) (st : Status) : State :=
  (s.condemned t st).setThread { t with state := .stopped, status := st, queue := [], late := [], waiting := none }

/-- A thread stops with a status, and its stream or job stops once (06 R120). -/
def State.stopThread (s : State) (t : Thread) (st : Status) : State := (s.haltThread t st).stopOwner t st

/-! ### Recoveries and phases -/

/-- Whether a die is in die or package recovery, or a region in any recovery (17 R390). -/
def State.dieRecovering (s : State) (d : Nat) : Bool :=
  s.recoveries.any fun r => r.dom == .die d || r.dom == .package

def State.regionRecovering (s : State) (d r : Nat) : Bool :=
  s.dieRecovering d || s.recoveries.any fun x => x.dom == .region d r

def State.packageRecovering (s : State) : Bool := s.recoveries.any (·.dom == .package)

/-- The instance record of a unit number: cluster × 9 + k (15 R347). -/
def unitRecord (u : Nat) : Nat := unitCluster u * 9 + u % 8

/-- Whether a unit number has a working element (18 R404, R408). -/
def State.unitUp (s : State) (d u : Nat) : Bool := ((s.die d).rgn.getD (unitRecord u) {}).up

/-- Whether a unit takes new lists: in service, in a region in service, and not about to be replaced by its spare (06 R116; 18 R403,
R404, R411). -/
def State.unitTakes (s : State) (d u : Nat) : Bool :=
  s.unitUp d u && !s.regionRecovering d (unitRegion u) &&
    (match (s.die d).regions[unitRegion u]? with
     | some r => !r.quiesced && r.hul == 0
     | none => false) &&
    !((s.die d).engaging.any fun e => e.kind == 0 && e.target == u)

/-- Whether the firmware answers: it runs, and no package recovery has it restart (17 R388, 20 R442). -/
def State.firmwareRuns (s : State) : Bool := s.phase == .running && !s.packageRecovering

/-- An event command that names die `d` runs only where the part has that die (00 R4). -/
def onPresent (s : State) (d : Nat) (k : State) : Host.Outcome State Fault Refusal :=
  if d < s.dieCount then .next k else .fault .absentElement

end Sys2Proof.Machine
end

