-- ==== Sys2Proof/Machine/Image.lean ====
section
/-! DEFINITION. Firmware images, certificates, allow-list records and the measurement log (19 R418 to R433). -/

namespace Sys2Proof.Machine

/-- A module of an image (19 R421). -/
structure Module where
  number : Nat
  target : Nat
  offset : Nat
  length : Nat
  deriving DecidableEq, Repr

/-- The module table of an image. -/
def imageModules (img : List Byte) : List Module :=
  (List.range (leAt img 14 2)).map fun i =>
    let o := 128 + 16 * i
    ⟨leAt img o 1, leAt img (o + 1) 1, leAt img (o + 4) 4, leAt img (o + 8) 4⟩

/-- Modules in ascending OFFSET, without overlap, from `lo` to `hi` (19 R421). -/
def modulesFit (hi : Nat) : Nat → List Module → Bool
  | lo, [] => lo ≤ hi
  | lo, m :: ms => lo ≤ m.offset && modulesFit hi (m.offset + m.length) ms

/-- Whether an image is well formed (19 R421). -/
def imageWellFormed (img : List Byte) : Bool :=
  let n := leAt img 14 2
  let len := leAt img 16 8
  let ms := imageModules img
  leAt img 0 2 == 0x5A57 && leAt img 2 1 == 1 && leAt img 3 1 == 0 && 1 ≤ n && n ≤ 32 && 1024 ≤ len && len ≤ 268435456 &&
    img.length == len && leNat (slice img 36 28) == 0 && leNat (slice img 121 7) == 0 &&
    (List.range n).all (fun i => leAt img (128 + 16 * i) 1 == i && leAt img (128 + 16 * i + 1) 1 ≤ 5 &&
      leAt img (128 + 16 * i + 2) 2 == 0 && leAt img (128 + 16 * i + 12) 4 == 0) &&
    modulesFit (len - 114) (128 + 16 * n) ms && (ms.filter (·.target == 0)).length == 1

/-- The owner key an image carries. -/
def imageOwner (img : List Byte) : List Byte := slice img 64 57

/-- The digest of an image (19 R422): the first 32 bytes of its prehash. -/
def imageDigest (img : List Byte) : List Byte := (shake256 (img.take (img.length - 114)) 64).take 32

/-- Whether a key is the owner's (19 R417). -/
def ownerKey (d : Nat) (key : List Byte) : Bool := beNat (shake256 key 32) == (Config.ownerDigest d).toNat

/-- The checks of 19 R422 on die `d`: the result code of R424, 0 for OK. -/
def State.imageCheck (s : State) (d : Nat) (img : List Byte) : Nat :=
  if !imageWellFormed img then 2
  else if !ownerKey d (imageOwner img) then 3
  else if !ed448phVerify (imageOwner img) (img.take (img.length - 114)) (img.drop (img.length - 114)) "ZLK-FW" then 4
  else if leAt img 24 8 < (s.die d).rollback ∨ 64 < leAt img 24 8 then 5
  else 0

/-- Whether an allow-list record is valid under the owner key (19 R429). -/
def allowValid (key rec : List Byte) : Bool :=
  rec.length == 594 && leAt rec 0 2 == 0x5A4B && leAt rec 2 1 == 1 && leAt rec 3 1 ≤ 8 && leNat (slice rec 468 12) == 0 &&
    ed448Verify key (rec.take 480) (rec.drop 480) "ZLK-ALLOW"

/-- SEQ of an allow-list record, 0 for none. -/
def allowSeq (rec : List Byte) : Nat := leAt rec 4 8

/-- The flash copy in force at boot: the higher SEQ whose signature verifies (19 R429). -/
def pickAllow (key : List Byte) (copies : List (List Byte)) : List Byte :=
  (copies.filter (allowValid key)).foldl (fun best r => if allowSeq best < allowSeq r then r else best) []

/-- The record an image carries at ALLOW_OFFSET (19 R430), none for 0. -/
def imageAllow (img : List Byte) : Option (List Byte) :=
  let o := leAt img 32 4
  if o = 0 then none else some (slice img o 594)

/-- Installing an image's allow-list record (19 R430): only a higher SEQ with a good signature; over the older flash copy. -/
def State.installAllow (s : State) (img : List Byte) : State :=
  match imageAllow img with
  | some r =>
    if allowValid (imageOwner img) r && allowSeq s.allow < allowSeq r then
      let a := s.flash.allow.getD 0 []
      let b := s.flash.allow.getD 1 []
      let copies := if allowSeq a ≤ allowSeq b then [r, b] else [a, r]
      { s with allow := r, flash := { s.flash with allow := copies } }
    else s
  | none => s

/-- Raising ROLLBACK on every die to an image's counter when that is higher (19 R420). -/
def State.raiseRollback (s : State) (img : List Byte) : State :=
  s.onDies fun d => { d with rollback := max d.rollback (leAt img 24 8) }

/-- One certificate of 19 R427. -/
def cert (chain : List Byte) (i : Nat) : List Byte := slice chain (256 * i) 256
def certKey (c : List Byte) : List Byte := slice c 20 57

/-- Whether the chain verifies link by link down to the device key of D0 (19 R427). -/
def chainValid (chain deviceKey : List Byte) : Bool :=
  (List.range 3).all (fun i =>
    let c := cert chain i
    let issuer := cert chain (if i = 0 then 0 else i - 1)
    c.length == 256 && leAt c 0 2 == 0x5A56 && leAt c 2 1 == 1 && leAt c 3 1 == i &&
      slice c 80 32 == shake256 (certKey issuer) 32 &&
      ed448Verify (certKey issuer) (c.take 142) (c.drop 142) "ZLK-CERT") &&
    certKey (cert chain 2) == deviceKey

/-! ### The measurement log (19 R431, R432) -/

/-- The order of entries: (TYPE, INDEX, IMAGE). -/
def LogEntry.le (a b : LogEntry) : Bool :=
  a.type < b.type || (a.type == b.type && (a.index < b.index || (a.index == b.index && a.image ≤ b.image)))

/-- Same place in the log. -/
def LogEntry.same (a b : LogEntry) : Bool := a.type == b.type && a.index == b.index && a.image == b.image

/-- Same value, whenever taken. -/
def LogEntry.sameValue (a b : LogEntry) : Bool := { a with gts := 0 } == { b with gts := 0 }

/-- The log replaced by new entries: an unchanged entry keeps its GTS, a changed one takes the present GTS, and LOG_SEQ rises by
one when anything changed, at most once a tick (19 R431). -/
def State.relog (s : State) (new : List LogEntry) : State :=
  let placed := new.map fun e =>
    match s.log.find? e.same with
    | some o => if o.sameValue e then o else { e with gts := s.gts }
    | none => { e with gts := s.gts }
  let log := sortBy LogEntry.le placed
  if log = s.log then s
  else
    { s with log := log, logSeq := if s.logAt = some s.gts then s.logSeq else s.logSeq + 1, logAt := some s.gts }

/-- A number's bytes as a digest, most significant first. -/
def digestOf (n : BitVec 256) : List Byte := beBytes 32 n.toNat

/-- The entries of an image: type 5, and type 6 for each module (19 R432). -/
def imageEntries (img : List Byte) (slot : Nat) (isPartial : Bool) : List LogEntry :=
  ⟨5, 0, slot, isPartial, leAt img 4 4, 0, imageDigest img⟩ ::
    (imageModules img).map fun m =>
      ⟨6, m.number, slot, isPartial, leAt img 4 4, 0, shake256 (slice img m.offset m.length) 32⟩

/-- The entries that do not change with profiles or images: Germ ROMs, owner key, anti-rollback, allow-list. -/
def State.baseEntries (s : State) : List LogEntry :=
  (List.range s.dieCount).map (fun d => ⟨1, d, 0, false, (Config.romVersion d).toNat, 0, digestOf (Config.romDigest d)⟩) ++
    [⟨2, 0, 0, false, 0, 0, digestOf (Config.ownerDigest 0)⟩,
     ⟨3, 0, 0, false, (s.die 0).rollback, 0, zeros 32⟩,
     ⟨4, 0, 0, false, allowSeq s.allow % 2 ^ 32, 0, if s.allow = [] then zeros 32 else shake256 (s.allow.take 480) 32⟩]

/-- The entries of loaded profiles (type 7). -/
def State.profileEntries (s : State) : List LogEntry :=
  s.profiles.zipIdx.filterMap fun p => p.1.map fun f => ⟨7, p.2, 0, false, leAt f.image 3 1, 0, f.digest⟩

/-- The whole log rebuilt from the state, keeping the image and module entries it has. -/
def State.relogBase (s : State) : State :=
  s.relog (s.baseEntries ++ (s.log.filter fun e => e.type == 5 || e.type == 6) ++ s.profileEntries)

/-- An entry's bytes. -/
def LogEntry.bytes (e : LogEntry) : List Byte :=
  [byte e.type, byte e.index, byte e.image, byte (b01 e.isPartial)] ++ leBytes 4 e.version ++ leBytes 8 e.gts ++ e.digest ++
    zeros 16

/-- The log's byte image (19 R431). -/
def State.logBytes (s : State) : List Byte :=
  let certs := if s.chainOk then s.flash.certs.take 768 else []
  leBytes 2 0x5A4D ++ [1, byte (b01 s.chainOk)] ++ leBytes 4 (64 + certs.length + 64 * s.log.length) ++ leBytes 8 s.logSeq ++
    leBytes 8 (Config.serial 0).toNat ++ leBytes 2 s.part.number ++ [byte (if s.chainOk then 3 else 0), 0] ++
    leBytes 2 s.log.length ++ zeros 34 ++ certs ++ s.log.flatMap LogEntry.bytes

/-! ### The life log (16 R379 to R381) -/

/-- 32-bit saturation. -/
def sat32 (n : Nat) : Nat := min n 0xFFFFFFFF
def sat64 (n : Nat) : Nat := min n (2 ^ 64 - 1)

/-- Bytes placed over a run of zeros. -/
def overlay (base : List Byte) (off : Nat) (bs : List Byte) : List Byte :=
  base.take off ++ bs ++ base.drop (off + bs.length)

/-- The count at an index of a die's correctable errors. -/
def LifeLog.ceAt (l : LifeLog) (d i : Nat) : Nat :=
  match l.ce.find? fun x => x.1 == d && x.2.1 == i with
  | some x => x.2.2
  | none => 0

/-- The life log's image of 65,536 bytes, with its CRC (16 R379). -/
def LifeLog.image (l : LifeLog) (part : Nat) : List Byte :=
  let l32 := fun (xs : List Nat) => xs.flatMap fun n => leBytes 4 (sat32 n)
  let l64 := fun (xs : List Nat) => xs.flatMap fun n => leBytes 8 (sat64 n)
  let head := leBytes 2 0x5A4A ++ [1, 0] ++ leBytes 4 65536 ++ leBytes 8 l.saveSeq ++ leBytes 8 l.saveGts ++
    leBytes 8 (Config.serial 0).toNat ++ leBytes 2 part
  let ce := (List.range 8).map fun d => (0x1000 + d * 0x600, l32 ((List.range 368).map fun i => l.ceAt d i))
  let parts := [(0, head), (0x40, leBytes 8 (sat64 l.seconds)), (0x48, l32 l.recoveries), (0x80, l64 l.throttleMs),
    (0xC0, l32 (l.temps.flatMap id)), (0x2C0, l32 (l.volts.flatMap id)), (0x6C0, l64 l.latency),
    (0x7C0, l32 (l.retrains.flatMap id)), (0x880, l32 (l.spares.flatMap id))] ++ ce
  let body := parts.foldl (fun b p => overlay b p.1 p.2) (zeros 65532)
  body ++ leBytes 4 (crc32c body)

end Sys2Proof.Machine
end

