-- ==== Sys2Proof/Machine/Links.lean ====
section
/-! DEFINITION. Ethernet ports and queue pairs (14 R310 to R322): binding, migration, a port's change, the life log's and the
port record's saves. -/

namespace Sys2Proof.Machine

/-- Largest picture output × 8 ÷ interval in bit/s. -/
def StreamParams.outputRate (p : StreamParams) : Nat := if p.interval = 0 then 0 else p.maxOutput * 8 * 10 ^ 9 / p.interval

/-- Class-0 output rate of a queue pair in bit/s: largest picture output × 8 ÷ interval (14 R316, R319). -/
def State.qpRate (s : State) (q : QueuePair) : Nat :=
  if q.ofStream && q.cls == 0 then
    match s.stream q.owner, s.tickets.find? (·.number == q.owner) with
    | some st, _ => st.params.outputRate
    | none, some t => t.params.outputRate
    | none, none => 0
  else 0

/-- Class-0 output rate of a port, over every stream for which it is bound or alternate (14 R316). -/
def State.portRate (s : State) (port : Nat) : Nat :=
  ((s.qps.filter fun q => q.port == port || q.alt == some port).map s.qpRate).sum

/-- Up ports of a network, least class-0 rate first, equal ports by number (14 R316). -/
def State.portsUp (s : State) (net : Nat) : List Nat :=
  sortBy (fun a b => s.portRate a ≤ s.portRate b)
    ((List.range s.dieCount).filter fun p => networkOf p == net && (s.die p).eth.up)

/-- Whether a port counts as down for traffic: not up, or quiesced (18 R411). -/
def State.portQuiesced (s : State) (p : Nat) : Bool :=
  match (s.die p).service with
  | some v => v.island.kind == 1 && (v.stage == 1 || v.stage == 2)
  | none => false

/-- A queue pair after its port leaves: it migrates to its alternate, and another up port of the network becomes the new
alternate (14 R322); without an alternate it stays. -/
def QueuePair.migrate (q : QueuePair) (up : List Nat) (port : Nat) : QueuePair :=
  if q.port = port then
    match q.alt with
    | some a => { q with port := a, alt := (up.filter fun p => p != a && p != port).head? }
    | none => q
  else if q.alt = some port then { q with alt := (up.filter fun p => p != q.port && p != port).head? }
  else q

/-- The MAC address of port `n` (14 R313): the base address plus `n` in the last octet, without carry. -/
def macOf (n : Nat) : Nat :=
  let b := Config.baseMac.toNat
  b / 256 * 256 + (b + n) % 256

/-- The link-local address of a port by EUI-64 (14 R313). -/
def linkLocal (n : Nat) : Nat :=
  let m := macOf n
  let hi := m / 2 ^ 24
  let lo := m % 2 ^ 24
  0xFE80 * 2 ^ 112 + (hi ^^^ 0x020000) * 2 ^ 40 + 0xFFFE * 2 ^ 24 + lo

/-- The IPv6 addresses a port holds. -/
def State.ipv6Of (s : State) (port : Nat) : List Nat :=
  let c := (s.die port).eth.current
  [linkLocal port] ++ (if bit c.flags.toNat 1 then [c.ipv6a.toNat] else []) ++ (if bit c.flags.toNat 2 then [c.ipv6b.toNat] else [])

/-- The IPv4 address a port holds. -/
def State.ipv4Of (s : State) (port : Nat) : Option Nat :=
  let c := (s.die port).eth.current
  if bit c.flags.toNat 0 then some c.ipv4.toNat else none

/-- The GID of a port (14 R317): the IPv4 address in its mapped form, else the IPv6 address (the first configured one, else the
link-local one). -/
def State.gidOf (s : State) (port : Nat) : Nat :=
  match s.ipv4Of port with
  | some a => 0xFFFF * 2 ^ 32 + a
  | none => ((s.ipv6Of port).drop 1).headD (linkLocal port)

/-- The CM LAP that loads a connected queue pair's new alternate path (14 R322). -/
def State.lapOf (s : State) (q r : QueuePair) : Option Out :=
  match r.alt with
  | some a => if q.connected && q.alt != some a then some (.frame r.port "CM LAP" q.peer (beBytes 16 (s.gidOf a))) else none
  | none => none

/-- Every queue pair after port `port` leaves service (14 R322). -/
def State.migrateFrom (s : State) (port : Nat) : State :=
  ({ s with qps := s.qps.map fun q => q.migrate (s.portsUp q.network) port } : State).emits
    (s.qps.filterMap fun q => s.lapOf q (q.migrate (s.portsUp q.network) port))

/-- A stream none of whose pictures at hand has a bound any more (10 R241). -/
def Stream.unbound (x : Stream) : Stream :=
  { x with
    inputs := x.inputs.map fun (i : InputPic) => { i with bounded := false }
    pics := x.pics.map fun (p : Pic) => { p with input := p.input.map fun (i : InputPic) => { i with bounded := false } } }

/-- Class-0 streams of queue pairs on a port lose the bound of the pictures at hand (10 R240, R241). -/
def State.unboundPort (s : State) (port : Nat) : State :=
  { s with streams := s.streams.map fun (x : Stream) =>
      if x.cls = 0 ∧ (s.qps.any fun q => q.qpn == x.qpn && q.port == port) then x.unbound else x }

/-- A port that goes down: its bits clear, sticky ETH_DOWN, event 0x0801 (14 R314). -/
def State.dropPort (s : State) (port : Nat) : State :=
  (s.onDie port fun d => { d.stick .ethDown with eth := { d.eth with
    up := false, fecAlign := false, trained := false, downAt := some s.gts } }).event port 0x0220 0x0801 (port * 2 ^ 24)

/-- Port `port` goes down: its bits clear, sticky ETH_DOWN, event 0x0801 and migration (14 R314, R322). -/
def State.portDown (s : State) (port : Nat) : State :=
  ((s.dropPort port).unboundPort port).migrateFrom port

/-- A link retrain of a die counted in the life log: 0 Ethernet, 1 partner, 2 to 5 the bridges (16 R379). -/
def State.countRetrain (s : State) (d i : Nat) : State :=
  { s with lifeLog := { s.lifeLog with
      retrains := modifyAt s.lifeLog.retrains d fun l => modifyAt l i fun n => min 0xFFFFFFFF (n + 1) } }

/-- Port `port` comes up (14 R314): lock, alignment and, for KR1, training and auto-negotiation; a port that was
up before has retrained. -/
def State.portUp (s : State) (port : Nat) : State :=
  let s1 := s.onDie port fun d =>
    let kr := d.eth.mode == 0
    { d with eth := { d.eth with up := true, blockLock := true, fecAlign := true, trained := kr, anDone := kr, downAt := none } }
  (if (s.die port).eth.downAt.isSome then s1.countRetrain port 0 else s1).event port 0x0220 0x0801 (port * 2 ^ 24 + 1)

/-- Starting a SAVE of a port's current record, or noting it for when the running one completes (15 R362). -/
def Eth.save (e : Eth) : Eth :=
  if e.saveBusy then { e with saveAgain := true } else { e with saveBusy := true, saving := e.current }

/-- Starting a save of the life log, or noting it for when the running one completes (16 R381). -/
def State.startLifSave (s : State) : State :=
  if s.lifBusy then { s with lifAgain := true }
  else
    let l := { s.lifeLog with saveSeq := s.lifeLog.saveSeq + 1, saveGts := s.gts }
    { s with lifBusy := true, lifSaving := l, lifAt := s.gts }

/-- Whether any class-0 stream is open or admitted (20 R458). -/
def State.class0Held (s : State) : Bool :=
  !s.tickets.isEmpty || s.streams.any fun st => st.cls == 0 && (st.state == .open_ || st.state == .ended || st.state == .closing)

/-- A new queue pair on the network `net` (14 R316), with its number. -/
def State.newQp (s : State) (ofStream : Bool) (owner cls net : Nat) : Nat × State :=
  let up := s.portsUp net
  let port := up.headD net
  let (n, s) := s.newNumber
  let qpn := n % 2 ^ 24
  (qpn, { s with qps := s.qps ++ [{
    qpn := qpn, ofStream := ofStream, owner := owner, cls := cls, network := net, port := port
    alt := (up.filter (· != port)).head? }] })

/-- Closing the queue pair of a stream or of a staging area. -/
def State.closeQp (s : State) (qpn : Nat) : State := { s with qps := s.qps.filter (·.qpn != qpn) }

end Sys2Proof.Machine
end

