-- ==== Sys2Proof/Machine/Registers.lean ====
section
/-! DEFINITION. The register space of each die (15 R335 to R365, 16 R368, R381, 19 R428, 20 R456 to R458): reading and writing one
register for a master, guarded registers, staging, claims, the indirect window, and the register writes with a row of their
own. -/

namespace Sys2Proof.Machine

/-- Whether a master reaches guarded registers (15 R338). -/
def State.reaches (s : State) : Master → Bool
  | .session n => match s.session n with
    | some x => x.isOpen && x.privileged
    | none => false
  | .shell | .firmware => true

/-- Whether an offset holds a guarded register (15 R338): named registers of the guarded blocks, and those with a -G code.
HUL_EVT_OUT and HUL_T7 stand on D0 only (20 R456). -/
def guarded (d off : Nat) : Bool :=
  off == 0x020010 || off == 0x020014 || off == 0x020020 || off == 0x020024 || off == 0x050008 || off == 0x060000 ||
  (0x060010 ≤ off && off < 0x060024) ||
  off == 0x070000 || off == 0x070004 || (0x070010 ≤ off && off < 0x070068) ||
  off == 0x080004 || (0x080100 ≤ off && off < 0x08010C) || (0x080110 ≤ off && off < 0x080134) || off == 0x08013C ||
  off == 0x200030 || off == 0x200038 || (d == 0 && (off == 0x200040 || off == 0x200044)) || off == 0x210000

/-- An instance record as a word (15 R347). -/
def ElemRec.word (e : ElemRec) : Nat :=
  b01 e.present + 2 * b01 e.up + 4 * b01 e.quiesced + 8 * b01 e.lost + 16 * b01 e.spare + 65536 * e.ceCount.toNat

/-- Word `i` (0 the most significant) of a number of `n` words. -/
def wordMs (v n i : Nat) : Nat := v / 2 ^ (32 * (n - 1 - i)) % 2 ^ 32

def lo32 (v : Nat) : Nat := v % 2 ^ 32
def hi32 (v : Nat) : Nat := v / 2 ^ 32 % 2 ^ 32

/-- Elements in service, for ID_RESOURCES (15 R350): numbers not LOST. -/
def Die.unitsInService (d : Die) : Nat :=
  256 - (d.rgn.filter fun e => e.lost && !e.spare).length
def Die.lanesInService (d : Die) : Nat :=
  32 - (d.ent.filter fun e => e.lost && !e.spare).length

/-- IND_ADDR and IND_STATUS of a master on a die (15 R343). -/
def State.indOf (s : State) (m : Master) (d : Nat) : Word × BitVec 2 :=
  match s.indRegs.find? (·.1 == (m, d)) with
  | some e => e.2
  | none => (0, 0)

def State.setInd (s : State) (m : Master) (d : Nat) (v : Word × BitVec 2) : State :=
  { s with indRegs := ((m, d), v) :: s.indRegs.filter (·.1 != (m, d)) }

/-- Instances of an indirect space (15 R345); none for a reserved space. -/
def indInstances : Nat → Nat
  | 1 => 2 | 2 => 10 | 3 => 1 | 4 => 1 | 5 => 1
  | _ => 0

/-- The device identity key pair of a die's Shell (19 R426). The seed's bytes are most significant first (log 15). -/
def deviceSecret (d : Nat) : List Byte :=
  (shake256 (beBytes 32 (Config.identitySeed d).toNat ++ ascii "ZLK-ID") 57)
def deviceKey (d : Nat) : List Byte := ed448Public (deviceSecret d)

/-- The fuse shadow: 32-bit fuse words in the order of 19 R417, least significant word first (log 15). IDENTITY_SEED reads 0
for every master but the Shell (15 R345). -/
def State.fuseWord (s : State) (m : Master) (d w : Nat) : Nat :=
  let dd := s.die d
  let therm := 2 ^ dd.rollback - 1
  if w < 8 then (if m = .shell then (Config.identitySeed d).toNat / 2 ^ (32 * w) % 2 ^ 32 else 0)
  else if w < 10 then (Config.serial d).toNat / 2 ^ (32 * (w - 8)) % 2 ^ 32
  else if w < 18 then (Config.ownerDigest d).toNat / 2 ^ (32 * (w - 10)) % 2 ^ 32
  else if w < 20 then therm / 2 ^ (32 * (w - 18)) % 2 ^ 32
  else if w < 22 then Config.baseMac.toNat / 2 ^ (32 * (w - 20)) % 2 ^ 32
  else if w = 22 then b01 dd.testLock
  else 0

/-- What an indirect location reads (15 R345, R346). -/
def State.indRead (s : State) (m : Master) (d space inst w : Nat) : Nat :=
  match space with
  | 3 => s.fuseWord m d w
  | 5 => if w < 16 then ((s.die d).sensors.getD w 0).toNat else 0
  | _ =>
    match (s.die d).ind.find? (·.1 == (space, inst, w)) with
    | some e => e.2.toNat
    | none => (Config.slowSpace d space inst w).toNat

/-- After an access to IND_DATA: OFFSET advances under AUTOINC, and passing the end sets WRAP (15 R346). -/
def indAdvance (a : Word) (st : BitVec 2) : Word × BitVec 2 :=
  if bit a.toNat 31 then
    let o := bits a.toNat 2 22
    let n := (o + 1) % 2 ^ 22
    (BitVec.ofNat 32 (bits a.toNat 24 8 * 2 ^ 24 + n * 4), if n = 0 then st ||| 2 else st)
  else (a, st)

/-- One access to IND_DATA, reading, or writing `w`: the value read, whether it was a guarded access refused, and the state
(15 R346). -/
def State.indAccess (s : State) (m : Master) (d : Nat) (w : Option Word) : Nat × Bool × State :=
  let (a, st) := s.indOf m d
  let space := bits a.toNat 28 3
  let inst := bits a.toNat 24 4
  let word := bits a.toNat 2 22
  let exists_ := inst < indInstances space
  let st := if exists_ then st else st ||| 1
  -- guarded: fuse shadow and flash controller for any access, the others' writes to training and SerDes
  let guard := exists_ && (space == 3 || space == 4 || (w.isSome && (space == 1 || space == 2))) && !s.reaches m
  let v := if exists_ && !guard then s.indRead m d space inst word else 0
  let s1 := match w with
    | some x =>
      if exists_ && !guard && (space == 1 || space == 2 || space == 4) then
        s.onDie d fun e => { e with ind := ((space, inst, word), x) :: e.ind.filter (·.1 != (space, inst, word)) }
      else s
    | none => s
  (v, guard, s1.setInd m d (indAdvance a st))

/-- GTS_ALIGN (16 R368). -/
def State.gtsAlignWord (s : State) : Nat :=
  b01 s.align.aligned + 2 * s.align.reference % 16 + 16 * b01 s.align.lost + 65536 * s.align.offset.toNat

/-- A PTP sample's word (16 R371). -/
def PtpSample.word (p : PtpSample) (i : Nat) : Nat :=
  match i with
  | 0 => p.seqId.toNat + 65536 * b01 p.valid
  | 1 => p.t1.ns.toNat
  | 2 => lo32 p.t1.sec.toNat
  | 3 => hi32 p.t1.sec.toNat
  | 4 => lo32 p.t2.toNat
  | 5 => hi32 p.t2.toNat
  | 6 => lo32 p.t3.toNat
  | 7 => hi32 p.t3.toNat
  | 8 => p.t4.ns.toNat
  | 9 => lo32 p.t4.sec.toNat
  | 10 => hi32 p.t4.sec.toNat
  | 11 => p.domain.toNat + 65536 * p.delaySeq.toNat
  | _ => 0

/-- PLK_STATUS (15 R363). -/
def State.plkStatus (s : State) (d : Nat) : Nat :=
  let p := (s.die d).plk
  let route := s.routing.find? (·.2.1 == d)
  b01 p.up + 2 * b01 p.training + 4 * b01 p.identOk + 8 * b01 p.spareInUse + 16 * p.lanes +
    (match route with
     | some r => 256 * r.1 + 2048
     | none => 0) + 4096 * b01 p.twin

/-- D2D records, with absent bridges reading PRESENT 0 (15 R347). -/
def State.d2dWord (s : State) (d i : Nat) : Nat :=
  if (s.part.bridgeTo d i).isSome then ((s.die d).d2d.getD i {}).word else 0

/-- Bits 31:16 of the firmware header fields the ID block reports: FW_VERSION, ABI_MIN, ABI_MAX of the running image
(19 R421). -/
def State.fwVersion (s : State) : Nat := leAt s.image 4 4
def State.abiMin (s : State) : Nat := leAt s.image 12 1
def State.abiMax (s : State) : Nat := leAt s.image 13 1

/-- The value a register holds at an offset of a die; reserved offsets read 0 (15 R337). IND_DATA is not read here. -/
def State.regValue (s : State) (m : Master) (d off : Nat) : Nat :=
  let e := s.die d
  let blk := off / 65536
  let o := off % 65536
  let i := o / 4
  match blk with
  | 0x00 =>
    match o with
    | 0x00 => s.part.number + 65536 * s.dieCount + 0xA0 * 2 ^ 24
    | 0x04 => d + 8 * b01 (d == 0) + 16 * (d % 2) + 32 * s.part.row d + 256 * s.part.column d
    | 0x08 => lo32 (Config.serial d).toNat
    | 0x0C => hi32 (Config.serial d).toNat
    | 0x10 => s.fwVersion
    | 0x14 => s.abiMin + 256 * s.abiMax
    | 0x18 => e.unitsInService + 65536 * e.lanesInService + 8 * 2 ^ 24
    | _ => 0
  | 0x01 =>
    match o with
    | 0x00 => lo32 s.gts
    | 0x04 => hi32 s.gts
    | 0x08 => if d = 0 then lo32 s.gtsPps else 0
    | 0x0C => if d = 0 then hi32 s.gtsPps else 0
    | 0x10 => s.gtsAlignWord
    | _ => 0
  | 0x02 =>
    match o with
    | 0x00 => e.events.length
    | 0x10 | 0x18 => lo32 e.sticky.toNat
    | 0x14 | 0x1C => hi32 e.sticky.toNat
    | 0x20 => lo32 e.alert.toNat
    | 0x24 => hi32 e.alert.toNat
    | _ => 0
  | 0x03 =>
    match o with
    | 0x00 => (s.indOf m d).1.toNat
    | 0x08 => (s.indOf m d).2.toNat
    | _ => 0
  | 0x04 =>
    if o < 0x20 then
      let r := e.regions.getD i {}
      r.step + 256 * r.cap.toNat + 65536 * b01 r.locked + 2 ^ 17 * b01 r.quiesced
    else if o = 0x20 then
      ((e.regions.map fun r => b01 r.locked).zipIdx.map fun p => p.1 * 2 ^ p.2).sum + 256 * e.islandLock.toNat
    else 0
  | 0x05 =>
    match o with
    | 0x00 => e.pwrStatus.toNat
    | 0x04 => e.pwrPower.toNat
    | 0x08 => e.pwrLimit.toNat
    | 0x0C => e.pwrTj.toNat
    | 0x10 => e.vcore.toNat
    | _ => 0
  | 0x06 =>
    if o = 0 then e.svcMode.toNat else if 0x10 ≤ o ∧ o < 0x24 then (e.thresh.getD (i - 4) 0).toNat else 0
  | 0x07 =>
    match o with
    | 0x00 => b01 e.keyReady + 2 * b01 (d == 0 && s.chainOk) + 4 * b01 e.testLock
    | 0x04 => s.bootMode.toNat + 4 * s.bootSource + 256 * s.bootResult + 65536 * s.bootDie
    | 0x50 => lo32 e.rollback
    | 0x58 => lo32 (leAt s.allow 4 8)
    | 0x5C => hi32 (leAt s.allow 4 8)
    | 0x60 => if d = 0 then lo32 s.logSeq else 0
    | 0x64 => if d = 0 then hi32 s.logSeq else 0
    | _ =>
      if 0x10 ≤ o ∧ o < 0x30 then (if e.keyReady then wordMs (beNat (shake256 (deviceKey d) 32)) 8 (i - 4) else 0)
      else if 0x30 ≤ o ∧ o < 0x50 then wordMs (Config.ownerDigest d).toNat 8 (i - 12)
      else 0
  | 0x08 =>
    let h := e.eth
    let c := h.pendingCfg
    match o with
    | 0x000 => b01 h.up + 2 * b01 h.blockLock + 4 * b01 h.fecAlign + 8 * b01 h.trained + 16 * b01 h.anDone + 32 * b01 h.saveBusy
        + 256 * d
    | 0x004 => h.mode.toNat
    | 0x008 => lo32 (macOf d)
    | 0x00C => hi32 (macOf d)
    | 0x100 => c.flags.toNat
    | 0x104 => c.ipv4.toNat
    | 0x108 => c.prefixes.toNat
    | 0x130 => c.ptp.toNat
    | 0x200 => h.head + 65536 * h.count.toNat
    | _ =>
      if 0x110 ≤ o ∧ o < 0x120 then wordMs c.ipv6a.toNat 4 (i - 0x44)
      else if 0x120 ≤ o ∧ o < 0x130 then wordMs c.ipv6b.toNat 4 (i - 0x48)
      else if 0x400 ≤ o ∧ o < 0x800 then (h.ring.getD ((o - 0x400) / 64) {}).word (i % 16)
      else 0
  | 0x09 =>
    match o with
    | 0x00 => s.plkStatus d
    | 0x04 => e.plk.laneMap.toNat
    | _ => if 0x10 ≤ o ∧ o < 0x30 then (if e.plk.identOk then wordMs e.plk.peer.toNat 8 (i - 4) else 0) else 0
  | 0x0A => if i < 4 then s.d2dWord d i else 0
  | 0x0B => if i < 16 then (e.memCh.getD i {}).word else 0
  | 0x0C => if i < 2 then (e.dsr.getD i {}).word else 0
  | 0x0D => if i < 40 then (e.ent.getD i {}).word else 0
  | 0x0E => if i < 8 then (e.lze.getD i {}).word else 0
  | 0x0F => if i < 10 then (e.mse.getD i {}).word else 0
  | 0x20 =>
    match o with
    | 0x00 => e.hul + 16 * s.hulPackage
    | 0x30 => e.hulLimits.toNat
    | 0x38 => e.hulMode.toNat
    | 0x40 => if d = 0 then s.hulEvtOut.toNat else 0
    | 0x44 => if d = 0 then s.hulT7.toNat else 0
    | _ =>
      if 0x10 ≤ o ∧ o < 0x30 then
        let r := e.regions.getD (i - 4) {}
        r.hul + 256 * r.recoveries.toNat
      else 0
  | 0x21 =>
    if d = 0 then
      match o with
      | 0x04 => b01 s.lifBusy + 2 * b01 s.lifOk
      | 0x08 => lo32 s.lifeLog.saveSeq
      | 0x0C => hi32 s.lifeLog.saveSeq
      | _ => 0
    else 0
  | 0x22 => if i < 28 then (if i % 2 = 0 then lo32 (e.cnt.getD (i / 2) 0).toNat else hi32 (e.cnt.getD (i / 2) 0).toNat) else 0
  | _ =>
    if 0x10 ≤ blk ∧ blk < 0x18 then
      let r := blk - 0x10
      if o < 0x90 then (e.rgn.getD (r * 36 + i) {}).word
      else if o = 0x200 then (e.regions.getD r {}).owner.toNat
      else 0
    else 0

/-- Reading one register for a master: the value, whether it was a refused guarded access, and the state (15 R337, R338,
R346). -/
def State.regRead (s : State) (m : Master) (d off : Nat) : Nat × Bool × State :=
  if off = 0x030004 then s.indAccess m d none
  else if guarded d off && !s.reaches m then (0, true, s)
  else (s.regValue m d off, false, s)

/-- Why a register write is not applied. -/
inductive WriteErr where
  | range
  | busy
  deriving DecidableEq, Repr

/-- What follows from writing HUL_EVT_OUT (20 R456, R458). -/
def State.writeEvtOut (s : State) (v : Nat) : Except WriteErr State :=
  let func := v % 4
  let cur := s.hulEvtOut.toNat % 4
  if func = 3 ∨ bits v 8 8 = 0 then .error .range
  else if func ≠ 0 ∧ cur ≠ 0 ∧ func ≠ cur then .error .busy
  else .ok { s with hulEvtOut := BitVec.ofNat 32 (func + 256 * bits v 8 8) }

/-- What follows from writing HUL_T7 (20 R457, R458). -/
def State.writeT7 (s : State) (v : Nat) : Except WriteErr State :=
  let func := v % 4
  let period := v / 256
  let cur := s.hulT7.toNat % 4
  if func = 3 ∨ (func = 1 ∧ (period < 1000 ∨ 600000 < period)) ∨ (func = 2 ∧ (period < 100 ∨ 1000000 < period)) then .error .range
  else if func ≠ 0 ∧ cur ≠ 0 ∧ func ≠ cur then .error .busy
  else if func ≠ cur ∧ (func = 2 ∨ cur = 2) ∧ s.class0Held then .error .busy
  else .ok { s with
    hulT7 := BitVec.ofNat 32 (func + 256 * period), t7At := if func = 2 then (if cur = 2 then s.t7At else 0) else s.gts }

/-- The addresses a configuration record gives a port, and its VID (15 R361, 14 R313). -/
def PortCfg.addresses (c : PortCfg) : List (Option Nat) × Nat :=
  let f := c.flags.toNat
  ([if bit f 0 then some c.ipv4.toNat else none, if bit f 1 then some c.ipv6a.toNat else none,
    if bit f 2 then some c.ipv6b.toNat else none], bits f 16 12)

/-- A write to the port configuration record or its control register (15 R361, R362). -/
def State.writeEth (s : State) (d o v : Nat) : Except WriteErr State :=
  let set := fun (f : PortCfg → PortCfg) => Except.ok (ε := WriteErr) (s.onDie d fun e =>
    { e with eth := { e.eth with pendingCfg := f e.eth.pendingCfg } })
  let putWord := fun (x : BitVec 128) (i : Nat) =>
    BitVec.ofNat 128 (x.toNat - wordMs x.toNat 4 i * 2 ^ (32 * (3 - i)) + v * 2 ^ (32 * (3 - i)))
  if o = 0x004 then
    if v % 4 = 3 then .error .range
    else if BitVec.ofNat 2 v = (s.die d).eth.mode then .ok s
    else
      let s1 := s.onDie d fun e => { e with eth := { e.eth with mode := BitVec.ofNat 2 v } }
      .ok (if (s.die d).eth.up then s1.portDown d else s1)
  else if o = 0x100 then
    if bits v 16 12 > 4094 then .error .range
    else set fun c => { c with flags := BitVec.ofNat 32 (v % 8 + 65536 * bits v 16 12) }
  else if o = 0x104 then set fun c => { c with ipv4 := BitVec.ofNat 32 v }
  else if o = 0x108 then
    if bits v 0 6 > 32 ∨ bits v 8 7 > 128 ∨ bits v 16 7 > 128 then .error .range
    else set fun c => { c with prefixes := BitVec.ofNat 32 (bits v 0 6 + 256 * bits v 8 7 + 65536 * bits v 16 7) }
  else if 0x110 ≤ o ∧ o < 0x120 then set fun c => { c with ipv6a := putWord c.ipv6a ((o - 0x110) / 4) }
  else if 0x120 ≤ o ∧ o < 0x130 then set fun c => { c with ipv6b := putWord c.ipv6b ((o - 0x120) / 4) }
  else if o = 0x130 then
    if signed 4 (bits v 8 4) < -4 ∨ 4 < signed 4 (bits v 8 4) then .error .range
    else set fun c => { c with ptp := BitVec.ofNat 32 (bits v 0 7 + 256 * bits v 8 4) }
  else if o = 0x13C then
    let e := (s.die d).eth
    let apply := bit v 0
    let moves := e.pendingCfg.addresses != e.current.addresses
    if apply && moves && s.qps.any (fun q => q.connected && (q.port == d)) then .error .busy
    else
      let s1 := if apply then s.onDie d fun x => { x with eth := { x.eth with current := x.eth.pendingCfg } } else s
      .ok (if bit v 1 then s1.onDie d fun x => { x with eth := x.eth.save } else s1)
  else .ok s

/-- Writing a value a master may write (range checks of 15 R341; effects of each register). `staged`: the low half of a 64-bit
register held for this command (15 R342). -/
def State.regWriteIn (s : State) (m : Master) (d off v : Nat) (staged : Option Nat) : Except WriteErr (State × Option Nat) :=
  let keep := fun (t : State) => Except.ok (ε := WriteErr) (t, staged)
  let blk := off / 65536
  let o := off % 65536
  match blk with
  | 0x02 =>
    match o with
    | 0x10 => keep (s.onDie d fun e => e.unstick (BitVec.ofNat 64 v))
    | 0x14 => keep (s.onDie d fun e => e.unstick (BitVec.ofNat 64 (v * 2 ^ 32)))
    | 0x20 => .ok (s, some v)
    | 0x24 =>
      let lo := staged.getD (lo32 (s.die d).alert.toNat)
      .ok (s.onDie d fun e => { e with alert := BitVec.ofNat 64 (v * 2 ^ 32 + lo) }, none)
    | _ => keep s
  | 0x03 =>
    match o with
    | 0x00 => keep (s.setInd m d (BitVec.ofNat 32 (v / 4 * 4), (s.indOf m d).2))
    | 0x08 => keep (s.setInd m d ((s.indOf m d).1, (s.indOf m d).2 &&& ~~~ BitVec.ofNat 2 v))
    | _ => keep s
  | 0x04 =>
    if o < 0x20 then
      if bits v 8 3 > 4 then .error .range
      else keep (s.onDie d fun e => { e with regions := modifyAt e.regions (o / 4) fun r => { r with cap := BitVec.ofNat 3 (bits v 8 3) } })
    else keep s
  | 0x05 =>
    if o = 8 then
      if v % 65536 < 480 ∨ 1200 < v % 65536 then .error .range
      else keep (s.onDie d fun e => { e with pwrLimit := BitVec.ofNat 16 v })
    else keep s
  | 0x06 =>
    if o = 0 then keep (s.onDies fun e => { e with svcMode := BitVec.ofNat 2 v })
    else if 0x10 ≤ o ∧ o < 0x24 then
      if v % 65536 = 0 ∨ v / 65536 = 0 then .error .range
      else keep (s.onDie d fun e => { e with thresh := modifyAt e.thresh ((o - 0x10) / 4) fun _ => BitVec.ofNat 32 v })
    else keep s
  | 0x08 => (s.writeEth d o v).map fun t => (t, staged)
  | 0x20 =>
    if o = 0x30 then
      if v % 65536 < 1 ∨ 10000 < v % 65536 ∨ v / 65536 < 1 ∨ 1000 < v / 65536 then .error .range
      else keep (s.onDies fun e => { e with hulLimits := BitVec.ofNat 32 v })
    else if o = 0x38 then keep (s.onDies fun e => { e with hulMode := BitVec.ofNat 1 v })
    else if o = 0x40 ∧ d = 0 then (s.writeEvtOut v).map fun t => (t, staged)
    else if o = 0x44 ∧ d = 0 then (s.writeT7 v).map fun t => (t, staged)
    else keep s
  | 0x21 => if o = 0 ∧ d = 0 ∧ bit v 0 then keep s.startLifSave else keep s
  | _ => keep s

/-- Writing one register for a master: an error, or the state with whether it was a refused guarded access (15 R338, R341). -/
def State.regWrite (s : State) (m : Master) (d off v : Nat) (staged : Option Nat) : Except WriteErr (State × Bool × Option Nat) :=
  if off = 0x030004 then
    let (_, g, t) := s.indAccess m d (some (BitVec.ofNat 32 v))
    .ok (t, g, staged)
  else if guarded d off && !s.reaches m then .ok (s, true, staged)
  else (s.regWriteIn m d off v staged).map fun p => (p.1, false, p.2)

/-- What a command that met a guarded register from an ordinary session leaves: sticky ACCESS_VIOLATION on D0, one event
0x0901 with the session number, and the counter (15 R338, R365; 16 R377). -/
def State.violation (s : State) (m : Master) : State :=
  match m with
  | .session n =>
    ((s.stick 0 .accessViolation).event 0 0x1000 0x0901 n).onDie 0 fun d =>
      { d with cnt := modifyAt d.cnt 13 (· + 1) }
  | _ => s

/-- One register write on its own account, as a row of the table: what REG_WRITE does with one value (15 R335, R340, R341). The
master's answer stands in `out`. Only while the part runs does any master reach a register. -/
def State.accessWrite (s : State) (m : Master) (d off v : Nat) : State :=
  let answer := fun (t : State) (st : Status) => t.emit (.regStatus m st)
  if s.phase ≠ .running then s
  else if s.dieCount ≤ d then answer s .badParam
  else if s.dieRecovering d then answer s .recovering
  else
    match s.regWrite m d off v none with
    | .error .range => answer s .badParam
    | .error .busy => answer s .resourceBusy
    | .ok (t, true, _) => answer (t.violation m) .ok
    | .ok (t, false, _) => answer t .ok

/-- CLK_RGN: a write of a region's CAP (15 R352). -/
def execClkRgn (a : Access) (region : Nat) (s : State) : Host.Outcome State Fault Refusal :=
  if region < 8 then .next (s.accessWrite a.master a.die (0x040000 + 4 * region) a.value.toNat) else .fault .absentElement

/-- PWR_LIMIT: a write of the die power limit (15 R353). -/
def execPwrLimit (a : Access) (s : State) : Host.Outcome State Fault Refusal :=
  .next (s.accessWrite a.master a.die 0x050008 a.value.toNat)

/-- SPR_SVC_MODE: a package-wide write (15 R354, R339). -/
def execSprSvcMode (a : Access) (s : State) : Host.Outcome State Fault Refusal :=
  .next (s.accessWrite a.master a.die 0x060000 a.value.toNat)

/-- SPR_THRESHk (15 R355). -/
def execSprThresh (a : Access) (kind : Nat) (s : State) : Host.Outcome State Fault Refusal :=
  if kind < 5 then .next (s.accessWrite a.master a.die (0x060010 + 4 * kind) a.value.toNat) else .fault .absentElement

/-- HUL_LIMITS: a package-wide write (15 R357, R339). -/
def execHulLimits (a : Access) (s : State) : Host.Outcome State Fault Refusal :=
  .next (s.accessWrite a.master a.die 0x200030 a.value.toNat)

/-- HUL_MODE: a package-wide write (15 R357, R339). -/
def execHulMode (a : Access) (s : State) : Host.Outcome State Fault Refusal :=
  .next (s.accessWrite a.master a.die 0x200038 a.value.toNat)

/-- IND_DATA: an access to the location the master's IND_ADDR names (15 R346). -/
def execIndData (a : Access) (write : Bool) (s : State) : Host.Outcome State Fault Refusal :=
  if write then .next (s.accessWrite a.master a.die 0x030004 a.value.toNat)
  else if s.phase ≠ .running then .next s
  else if s.dieCount ≤ a.die then .next (s.emit (.regStatus a.master .badParam))
  else if s.dieRecovering a.die then .next (s.emit (.regStatus a.master .recovering))
  else
    let (v, g, t) := s.regRead a.master a.die 0x030004
    .next ((if g then t.violation a.master else t).emit (.regValue a.master (BitVec.ofNat 32 v)))

/-- Writes of one or both halves of a 64-bit register in one command (15 R342): the low half first. -/
def State.accessWrite64 (s : State) (m : Master) (d off : Nat) (half : Half) (v : DWord) : State :=
  match half with
  | .lo => s.accessWrite m d off (lo32 v.toNat)
  | .hi => s.accessWrite m d (off + 4) (hi32 v.toNat)
  | .both =>
    if s.phase ≠ .running then s
    else if s.dieCount ≤ d then s.emit (.regStatus m .badParam)
    else if s.dieRecovering d then s.emit (.regStatus m .recovering)
    else
      match s.regWrite m d off (lo32 v.toNat) none with
      | .error _ => s.emit (.regStatus m .badParam)
      | .ok (t, g, stg) =>
        match t.regWrite m d (off + 4) (hi32 v.toNat) stg with
        | .error _ => s.emit (.regStatus m .badParam)
        | .ok (u, g', _) => (if g || g' then u.violation m else u).emit (.regStatus m .ok)

/-- EVT_STICKY: a W1C write (15 R351, 16 R378). -/
def execEvtSticky (a : Access) (half : Half) (value : DWord) (s : State) : Host.Outcome State Fault Refusal :=
  .next (s.accessWrite64 a.master a.die 0x020010 half value)

/-- EVT_ALERT: a write of the alert mask (15 R351, R342). -/
def execEvtAlert (a : Access) (half : Half) (value : DWord) (s : State) : Host.Outcome State Fault Refusal :=
  .next (s.accessWrite64 a.master a.die 0x020020 half value)

/-- ETH_MODE (15 R360). -/
def execEthMode (a : Access) (s : State) : Host.Outcome State Fault Refusal :=
  .next (s.accessWrite a.master a.die 0x080004 a.value.toNat)

/-- ETH_CFG_CTRL.APPLY (15 R362). -/
def execEthCfgApply (a : Access) (s : State) : Host.Outcome State Fault Refusal :=
  .next (s.accessWrite a.master a.die 0x08013C 1)

/-- ETH_CFG_CTRL.SAVE (15 R362). -/
def execEthCfgSave (a : Access) (s : State) : Host.Outcome State Fault Refusal :=
  .next (s.accessWrite a.master a.die 0x08013C 2)

/-- LIF_CTRL.SAVE (16 R381). -/
def execLifCtrlSave (a : Access) (s : State) : Host.Outcome State Fault Refusal :=
  .next (s.accessWrite a.master a.die 0x210000 1)

/-- HUL_EVT_OUT (20 R456, R458). -/
def execHulEvtOut (a : Access) (s : State) : Host.Outcome State Fault Refusal :=
  .next (s.accessWrite a.master a.die 0x200040 a.value.toNat)

/-- HUL_T7 (20 R457, R458). -/
def execHulT7 (a : Access) (s : State) : Host.Outcome State Fault Refusal :=
  .next (s.accessWrite a.master a.die 0x200044 a.value.toNat)

/-! ### SMBus (20 R442) -/

/-- One word per die in die order, absent dies 0; while the firmware is not running the address is not acknowledged. -/
def State.smbusRead (s : State) (f : Nat → Die → Nat) : State :=
  if s.firmwareRuns then
    s.emit (.smbus ((List.range 8).map fun d => if d < s.dieCount then BitVec.ofNat 16 (f d (s.die d)) else 0))
  else s

/-- VCORE_TARGET: target in mV, bit 15 VALID. -/
def execVcoreTarget (s : State) : Host.Outcome State Fault Refusal :=
  .next (s.smbusRead fun _ d => match d.vcoreTarget with
    | some v => 0x8000 + v
    | none => 0)

/-- VCORE_MEASURED: PWR_VCORE in mV. -/
def execVcoreMeasured (s : State) : Host.Outcome State Fault Refusal := .next (s.smbusRead fun _ d => d.vcore.toNat)

/-- TEMPERATURE: PWR_TJ. -/
def execTemperature (s : State) : Host.Outcome State Fault Refusal := .next (s.smbusRead fun _ d => d.pwrTj.toNat)

/-- POWER: PWR_POWER. -/
def execPower (s : State) : Host.Outcome State Fault Refusal := .next (s.smbusRead fun _ d => d.pwrPower.toNat)

/-- STATUS: PWR_STATUS[3:0], bit 8 THERMTRIP latched. -/
def execStatus (s : State) : Host.Outcome State Fault Refusal :=
  .next (s.smbusRead fun _ d => d.pwrStatus.toNat + 256 * b01 s.thermTrip)

end Sys2Proof.Machine
end

