-- ==== Sys2Proof/Machine/Time.lean ====
section
/-! DEFINITION. The passing of time: what a step does when no command waits (log 9; 16 R366, R369). -/

namespace Sys2Proof.Machine

/-- Whether GTS counts: not in reset, and not with the clocks stopped (16 R366, 20 R453). -/
def State.counts (s : State) : Bool := s.phase != .inReset && s.phase != .tripped

/-- A cycle is over: what was set in it can be cleared (00 R8). -/
def State.cycleOver (s : State) : State := s.onDies fun d => { d with fresh := 0 }

/-- One nanosecond. While the part is ahead of its reference GTS advances 15 ticks in every 16 ns, and while tracking finds it
behind 17 ticks in every 16 ns, until the gap closes (16 R369). -/
def State.nanosecond (s : State) : State :=
  if s.counts then
    let ph := (s.slewPhase + 1) % 16
    let due := ph == 0
    let step : Nat := if due && s.slew < 0 then 0 else if due && s.slew > 0 then 2 else 1
    let slew : Int := if due && s.slew < 0 then s.slew + 1 else if due && s.slew > 0 then s.slew - 1 else s.slew
    { s.cycleOver with gts := (s.gts + step) % 2 ^ 64, slewPhase := ph, slew := slew }
  else s

end Sys2Proof.Machine
end

