-- ==== Sys2Proof/Machine/Boot.lean ====
section
/-! DEFINITION. Reset and boot (19 R418 to R425, 20 R443 to R446): RESET_N and PWR_GOOD, the Germ ROM's checks, the start of the
firmware, and the pins PPS_IN and EVT_OUT. -/

namespace Sys2Proof.Machine

/-- The newer valid copy of a die's port record in flash (15 R362). -/
def Flash.portRecord (f : Flash) (d : Nat) : PortCfg :=
  match f.portCfg.getD d [] with
  | [a, b] =>
    match a.1, b.1 with
    | some x, some y => if a.2 < b.2 then y else x
    | some x, none => x
    | none, some y => y
    | none, none => {}
  | _ => {}

/-- The valid life-log slot with the highest SAVE_SEQ; a zero image without one (16 R381). -/
def Flash.latestLifeLog (f : Flash) : LifeLog :=
  f.lifeLog.foldl (fun best l => if best.saveSeq < l.saveSeq then l else best) {}

/-- A die after a release of RESET_N: everything at its reset value but the fuses; the port record comes from flash. -/
def Die.powerOn (old : Die) (cfg : PortCfg) : Die :=
  { Die.reset with
    rollback := old.rollback, testLock := old.testLock
    eth := { pendingCfg := cfg, current := cfg } }

/-- The state after a power-on reset (16 R366, R378, R381; 13 R292; 17 R399; 20 R446): what the board and the fuses keep, and
reset values for the rest. -/
def State.powerOn (s : State) : State :=
  { State.reset with
    pending := s.pending, part := s.part, out := s.out, freeCtr := s.freeCtr, flash := s.flash
    resetN := true, pwrGood := true
    dies := s.dies.zipIdx.map fun p => p.1.powerOn (s.flash.portRecord p.2)
    lifeLog := s.flash.latestLifeLog }

/-- Entering network recovery, idle or test access with a result (19 R424). -/
def State.bootEnds (s : State) (ph : Phase) (source result die : Nat) : State :=
  { s with phase := ph, bootSource := source, bootResult := result, bootDie := die
           allow := pickAllow (imageOwner s.flash.image)
             (if ownerKey 0 (imageOwner s.flash.image) then s.flash.allow else []) }

/-- The fuses collected at boot (19 R418): the first die whose OWNER_DIGEST differs, none when all agree. -/
def State.ownerDiffers (s : State) : Option Nat :=
  (List.range s.dieCount).find? fun d => Config.ownerDigest d != Config.ownerDigest 0

/-- ROLLBACK of every die raised to the highest (19 R418). -/
def State.levelRollback (s : State) : State :=
  let top := (s.dies.take s.dieCount).foldl (fun m d => max m d.rollback) 0
  s.onDies fun d => { d with rollback := top }

/-- Mode 00: the boot from flash begins (19 R423 step 1). -/
def State.bootFromFlash (s : State) : State :=
  match s.ownerDiffers with
  | some d => s.bootEnds .netRecovery 1 6 d
  | none =>
    { s.levelRollback with
      phase := .checking, bootSource := 0, bootResult := 0
      dies := s.levelRollback.dies.map fun d => { d with checked := false, trained := false } }

/-- RESET_N_RELEASE (19 R423): GTS restarts, BOOT_MODE is sampled, and the boot or a mode hold begins. A tripped part stays
stopped until PWR_GOOD has fallen (20 R453). -/
def execResetNRelease (bootMode : BitVec 2) (s : State) : Host.Outcome State Fault Refusal :=
  if s.resetN then .next s
  else if s.phase = .tripped then .next { s with resetN := true }
  else
    let t := { s.powerOn with bootMode := bootMode }
    .next (match bootMode.toNat with
      | 0 => t.bootFromFlash
      | 1 => t.levelRollback.bootEnds .netRecovery 1 0 0
      | 2 => if (t.die 0).testLock then t.bootEnds .idle 0 8 0 else { t with phase := .testAccess }
      | _ => t.bootEnds .idle 0 8 0)

/-- The part held in reset: every signal in its state during reset (20 R438); THERMTRIP_N keeps its state. -/
def State.holdReset (s : State) : State :=
  if s.phase = .tripped then { s with resetN := false } else { s with resetN := false, phase := .inReset }

/-- RESET_N_ASSERT: 1 µs or longer resets the whole part, a shorter pulse is ignored (20 R446). -/
def execResetNAssert (widthNs : Nat) (s : State) : Host.Outcome State Fault Refusal :=
  if widthNs < 1000 then .next s else .next s.holdReset

/-- PWR_GOOD_FALL: as RESET_N driven low; a trip ends (20 R445, R453). -/
def execPwrGoodFall (s : State) : Host.Outcome State Fault Refusal :=
  let t : State := { s with pwrGood := false, resetN := false, phase := .inReset, thermTrip := false }
  .next (if s.thermTrip then t.emit (.pin "THERMTRIP_N" true) else t)

/-- A die when the firmware starts: its device key is there and its first VDD_CORE target published (19 R426, 20 R441). -/
def Die.startUp (d : Die) (i : Nat) : Die :=
  { d with keyReady := true, vcoreTarget := some (roundUp (Config.stepVoltage i 0 + 15) 5) }

/-- The firmware starts (19 R423 steps 4 and 5): image, log, chain, keys; the sessions of network recovery end. -/
def State.startFirmware (s : State) (img : List Byte) (source : Nat) : State :=
  let ok := chainValid s.flash.certs (deviceKey 0)
  let s1 := { s with
    phase := .running, image := img, bootSource := source, bootResult := 0, chainOk := ok, sessions := [], indRegs := []
    staging := [], qps := [], allow := pickAllow (imageOwner img) s.flash.allow, lifAt := s.gts, t7At := s.gts
    dies := s.dies.zipIdx.map fun (p : Die × Nat) => p.1.startUp p.2 }
  s1.relog (s1.baseEntries ++ imageEntries img 0 false ++ s1.profileEntries)

/-- Whether every die has checked the image and D0's LPDDR5X is trained. -/
def State.bootReady (s : State) : Bool :=
  (s.dies.take s.dieCount).all (·.checked) && (s.die 0).trained

/-- The firmware starts once everything it needs is there. -/
def State.maybeStart (s : State) : State :=
  if (s.phase == .checking || s.phase == .memWait) && s.bootReady then s.startFirmware s.flash.image 0
  else if s.phase == .checking && (s.dies.take s.dieCount).all (·.checked) then { s with phase := .memWait }
  else s

/-- IMAGE_CHECK_COMPLETE (19 R423 steps 2 and 3, R424): after a broken write no image is valid, and which check fails is free
(18 R415). -/
def execImageCheckComplete (die : Nat) (flashOk selfTestOk : Bool) (s : State) : Host.Outcome State Fault Refusal :=
  if s.dieCount ≤ die then .fault .absentElement
  else if s.phase ≠ .checking ∨ (s.die die).checked then .next s
  else if die = 0 then
    if !selfTestOk then .next (s.bootEnds .idle 0 7 0)
    else if !flashOk || !s.flash.hasSfdp then .next (s.bootEnds .netRecovery 1 1 0)
    else if s.flash.broken then
      let (v, s1) := s.draw
      .next (s1.bootEnds .netRecovery 1 (2 + v % 3) 0)
    else
      let r := s.imageCheck 0 s.flash.image
      if r ≠ 0 then .next (s.bootEnds .netRecovery 1 r 0)
      else .next (s.onDie 0 fun d => { d with checked := true }).maybeStart
  else if !(s.die 0).checked then .next s
  else if !selfTestOk || s.imageCheck die s.flash.image ≠ 0 then .next (s.bootEnds .netRecovery 1 6 die)
  else .next (s.onDie die fun d => { d with checked := true }).maybeStart

/-- LPDDR5X_TRAINED (19 R423 step 4, R424): a die whose training fails starts with its channels out of service. -/
def execLpddr5xTrained (die : Nat) (ok : Bool) (s : State) : Host.Outcome State Fault Refusal :=
  if s.dieCount ≤ die then .fault .absentElement
  else if s.phase = .inReset ∨ s.phase = .tripped ∨ (s.die die).trained then .next s
  else if ok then .next (s.onDie die fun d => { d with trained := true }).maybeStart
  else .next (s.onDie die fun d => { d with memCh := d.memCh.map fun e => { e with up := false } })

/-- RECOVER_REBOOT (19 R425): 100 ms after a commit's final OK the part boots from flash; GTS keeps counting. -/
def execRecoverReboot (s : State) : Host.Outcome State Fault Refusal :=
  match s.rebootAt with
  | some t => if s.phase = .netRecovery ∧ t ≤ s.gts then .next { s with rebootAt := none }.bootFromFlash else .next s
  | none => .next s

/-- PPS_IN: a rising edge latches GTS (16 R368; 20 R438 ignores it during reset). -/
def execPpsIn (s : State) : Host.Outcome State Fault Refusal :=
  if s.phase = .inReset ∨ s.phase = .tripped then .next s else .next { s with gtsPps := s.gts }

/-- PPS_OUTPUT: EVT_OUT as PPS rises when GTS is a multiple of 10^9 (20 R456), and stays high for PPS_WIDTH µs. -/
def execPpsOutput (s : State) : Host.Outcome State Fault Refusal :=
  if s.hulEvtOut.toNat % 4 = 2 ∧ s.gts % 10 ^ 9 = 0 ∧ s.phase ≠ .inReset ∧ s.phase ≠ .tripped ∧ s.phase ≠ .failed then
    .next (s.emit (.pin "EVT_OUT" true))
  else .next s

/-! ### The life log's samples and saves (16 R379 to R381) -/

/-- The temperature bin of a PWR_TJ in 1/16 °C (16 R380). -/
def tempBin (t : Int) : Nat :=
  if t < 480 then 0 else if t ≥ 1600 then 15 else ((t - 480) / 80).toNat + 1

/-- The voltage bin of a deviation in parts per ten thousand (16 R380). -/
def voltBin (d : Int) : Nat :=
  if d < -700 then 0 else if d ≥ 700 then 15 else ((d + 700) / 100).toNat + 1

/-- The latency bin of a class-0 picture in ns (16 R380). -/
def latencyBin (ns : Nat) : Nat := if ns < 512 then 0 else min 31 (log2 ns - 8)

/-- Rails the part has: VDD_CORE of absent dies hold zero (16 R379). -/
def State.railPresent (s : State) (r : Nat) : Bool := r < s.dieCount || 8 ≤ r

/-- LIFELOG_SAMPLE: each second (16 R379, R380). -/
def execLifelogSample (deviations : List Int) (s : State) : Host.Outcome State Fault Refusal :=
  if !s.firmwareRuns then .next s
  else
    let l := s.lifeLog
    let temps := l.temps.zipIdx.map fun p =>
      if p.2 < s.dieCount then modifyAt p.1 (tempBin (signed 16 (s.die p.2).pwrTj.toNat)) fun n => sat32 (n + 1) else p.1
    let volts := l.volts.zipIdx.map fun p =>
      match deviations[p.2]? with
      | some v => if s.railPresent p.2 then modifyAt p.1 (voltBin v) fun n => sat32 (n + 1) else p.1
      | none => p.1
    let thr := l.throttleMs.zipIdx.map fun p =>
      if p.2 < s.dieCount ∧ bit (s.die p.2).pwrStatus.toNat 0 then sat64 (p.1 + 1000) else p.1
    .next { s with lifeLog := { l with seconds := sat64 (l.seconds + 1), temps := temps, volts := volts, throttleMs := thr } }

/-- LIFELOG_SAVE_TIMER: every 6 hours of on-time (16 R381). -/
def execLifelogSaveTimer (s : State) : Host.Outcome State Fault Refusal :=
  if s.firmwareRuns && s.lifAt + 6 * 3600 * 10 ^ 9 ≤ s.gts then .next s.startLifSave else .next s

/-- LIFELOG_SAVE_COMPLETE: the slot is written, or its read-back fails; a save that reset or a trip cut off leaves the previous slot
(16 R381). -/
def execLifelogSaveComplete (ok : Bool) (s : State) : Host.Outcome State Fault Refusal :=
  if !s.lifBusy || !s.counts then .next s
  else
    let s1 :=
      if ok then
        { s with
          lifBusy := false, lifOk := true
          lifeLog := { s.lifeLog with saveSeq := s.lifSaving.saveSeq, saveGts := s.lifSaving.saveGts }
          flash := { s.flash with lifeLog := (s.lifSaving :: s.flash.lifeLog).take 512 } }
      else { s.stick 0 .lifelogFail with lifBusy := false, lifOk := false }
    .next (if s1.lifAgain then { s1 with lifAgain := false }.startLifSave else s1)

/-- ETH_CFG_SAVE_COMPLETE (15 R362): the record is in the older of the two copies; a SAVE that waited runs with the record
current now; one that reset or a trip cut off leaves the previous record. -/
def execEthCfgSaveComplete (die : Nat) (s : State) : Host.Outcome State Fault Refusal :=
  if s.dieCount ≤ die then .fault .absentElement
  else
    let e := (s.die die).eth
    if !e.saveBusy || !s.counts then .next s
    else
      let copies := s.flash.portCfg.getD die []
      let newest := copies.foldl (fun m c => max m c.2) 0
      let put := match copies with
        | [a, b] => if a.2 ≤ b.2 then [(some e.saving, newest + 1), b] else [a, (some e.saving, newest + 1)]
        | c => c
      let s1 := { s with flash := { s.flash with portCfg := modifyAt s.flash.portCfg die fun _ => put } }
      .next (s1.onDie die fun d =>
        if d.eth.saveAgain then { d with eth := { d.eth with saveAgain := false, saving := d.eth.current } }
        else { d with eth := { d.eth with saveBusy := false } })

/-- LIFELOG_READ (13 R308): the live image. -/
def lifelogPage (s : State) (off len : Nat) : List Byte :=
  slice (s.lifeLog.image s.part.number) off (min len (65536 - off))

end Sys2Proof.Machine
end

