-- ==== Sys2Proof/Machine/Engines.lean ====
section
/-! DEFINITION. Engines and their chunks (06 R118, R119, R138; 07 R148, R168): where an operation runs and which thread an engine
serves next. -/

namespace Sys2Proof.Machine

/-- Engines a region shares: entropy lanes, match engine, motion engine. -/
def engineRegional : Engine → Bool
  | .lane | .match_ | .motion => true
  | _ => false

/-- The engine of a thread: its unit, or its region. -/
def engineAt (e : Engine) (t : ThreadId) : Nat := if engineRegional e then unitRegion t.unit else t.unit

/-- Chunks an engine runs at once: a region's four lanes, the four contexts of its match engine, else one. -/
def engineRoom : Engine → Nat
  | .lane | .match_ => 4
  | _ => 1

/-- ENGINE codes of 17 R401. -/
def engineCode : Engine → Nat
  | .tensor => 0 | .vector => 1 | .sfu => 2 | .agen => 3 | .lane => 4 | .match_ => 5 | .motion => 6 | .fabric => 7

/-- The source block number of an engine (16 R372): a unit's own, a lane's, or a region engine's. -/
def engineSource (e : Engine) (place : Nat) : Nat :=
  match e with
  | .lane => 0x0100 + place * 4
  | .match_ => 0x0140 + place
  | .motion => 0x0148 + place
  | _ => place

/-- The first operation of a thread that an engine still has to run. -/
def Thread.nextOn (t : Thread) (e : Engine) : Option Outst := t.out.find? fun o => o.engine == e && !o.done

/-- Whether a thread belongs to an engine's place on a die. -/
def Thread.at (t : Thread) (die : Nat) (e : Engine) (place : Nat) : Bool := t.id.die == die && engineAt e t.id == place

/-- Chunks an engine is running. -/
def State.runningOn (s : State) (die : Nat) (e : Engine) (place : Nat) : List (ThreadId × Nat) :=
  (s.threads.filter (·.at die e place)).flatMap fun t =>
    t.out.filterMap fun o => if o.engine = e ∧ o.done = false then o.taken.map fun g => (t.id, g) else none

/-- The order of contexts in rotation: unit, then context. -/
def ctxOrder (t : ThreadId) : Nat := t.unit * 16 + t.ctx

/-- Lanes of a region that may take a chunk: in service, not about to be replaced, and running none (07 R148, R150). -/
def State.freeLanes (s : State) (die region : Nat) : List Nat :=
  (List.range 4).filter fun k =>
    ((s.die die).ent.getD (region * 5 + k) {}).up &&
    !((s.die die).engaging.any fun e => e.kind == 1 && e.target == region * 4 + k) &&
    !(s.threads.any fun t => t.at die .lane region && t.out.any fun o => o.engine == .lane && !o.done && o.taken.isSome && o.lane == k)

/-- Whether an engine is in service: its unit, one of a region's lanes, or the region's match or motion engine; an element that has
been taken out of service or is LOST takes no work (18 R404, R408). -/
def State.engineInService (s : State) (die : Nat) (e : Engine) (place : Nat) : Bool :=
  match e with
  | .lane => (List.range 4).any fun k => ((s.die die).ent.getD (place * 5 + k) {}).up
  | .match_ => ((s.die die).lze.getD place {}).up
  | .motion => ((s.die die).mse.getD place {}).up
  | .fabric => true
  | _ => s.unitUp die place

/-- Whether an engine may take another chunk. -/
def State.hasRoom (s : State) (die : Nat) (e : Engine) (place : Nat) : Bool :=
  match e with
  | .lane => !(s.freeLanes die place).isEmpty
  | _ => s.engineInService die e place && decide ((s.runningOn die e place).length < engineRoom e)

/-- Jobs resident on a match engine (07 R168): class, GTS of their start, thread. -/
def State.residents (s : State) (die place : Nat) : List (Nat × Nat × ThreadId) :=
  (s.threads.filter (·.at die .match_ place)).flatMap fun t =>
    t.out.filterMap fun o => if o.engine = .match_ ∧ o.done = false then o.resident.map fun g => (t.cls, g, t.id) else none

/-- Whether an operation may take a chunk of its engine: on a match engine it is resident, or a context is free (07 R168). -/
def State.mayTake (s : State) (die : Nat) (e : Engine) (place : Nat) (o : Outst) : Bool :=
  o.taken.isNone && (e != .match_ || o.resident.isSome || decide ((s.residents die place).length < 4))

/-- The thread an engine serves next: lowest class first; equal classes in rotation after the thread served last (06 R119). A
gated class takes no chunk (20 R450). -/
def State.nextThread (s : State) (die : Nat) (e : Engine) (place : Nat) (last : Option ThreadId) : Option Thread :=
  let cands := (s.threads.filter (·.at die e place)).filter fun t =>
    !((s.die die).gated.contains t.cls) && match t.nextOn e with
      | some o => s.mayTake die e place o
      | none => false
  let n := match last with
    | some t => ctxOrder t + 1
    | none => 0
  let key := fun (t : Thread) => t.cls * 8192 + (ctxOrder t.id + 4096 - n % 4096) % 4096
  (sortBy (fun a b => key a ≤ key b) cands).head?

/-- The thread's first operation on an engine replaced by `f` of it. -/
def Thread.onFirst (t : Thread) (e : Engine) (f : Outst → Outst) : Thread :=
  { t with out := modifyAt t.out (t.out.findIdx fun o => o.engine == e && !o.done) f }

/-- An operation whose chunk an engine takes at a GTS: on a lane, and on a match engine with a resident context. -/
def Thread.take (t : Thread) (e : Engine) (lane now : Nat) : Thread :=
  t.onFirst e fun o => { o with taken := some now, lane := lane, resident := if e = .match_ then o.resident.or (some now) else none }

/-- The resident job that gives way to a waiting one of a lower class number: all four contexts are held, and it is the one of the
highest class number, latest started among equals (07 R168). -/
def State.evicted (s : State) (die place : Nat) : Option ThreadId :=
  let held := s.residents die place
  let waits := (s.threads.filter (·.at die .match_ place)).filter fun t => match t.nextOn .match_ with
    | some o => o.resident.isNone
    | none => false
  match (sortBy (fun (a b : Nat × Nat × ThreadId) => decide (b.1 < a.1) || (a.1 == b.1 && decide (b.2.1 ≤ a.2.1))) held).head? with
  | some v => if held.length = 4 ∧ (waits.any fun t => decide (t.cls < v.1)) then some v.2.2 else none
  | none => none

/-- An engine takes chunks while it has room (06 R119). -/
def State.takeChunks (s : State) (die : Nat) (e : Engine) (place : Nat) (last : Option ThreadId) : Nat → State
  | 0 => s
  | k + 1 =>
    if !s.hasRoom die e place then s
    else
      match s.nextThread die e place last with
      | some t => (s.setThread (t.take e ((s.freeLanes die place).headD 0) s.gts)).takeChunks die e place (some t.id) k
      | none => s

/-- The engine of one thread takes what it can. -/
def State.serveEngine (s : State) (t : ThreadId) (e : Engine) (last : Option ThreadId) : State :=
  s.takeChunks t.die e (engineAt e t) last (engineRoom e)

end Sys2Proof.Machine
end

