-- ==== Sys2Proof/Machine/Numeric.lean ====
section
/-! DEFINITION. The nine tensor formats and XACC (02 R35 to R39), exact element values, the XACC grid (02 R40 to R45, R460)
and every rounding into a stored format (02 R47 to R54). -/

namespace Sys2Proof.Machine

/-- The formats of 02 R35 and the accumulator XACC of R40, in the code order of 05 R96. -/
inductive Fmt where
  | fp32 | bf16 | fp16 | e4m3 | e5m2 | int8 | int4 | lns16 | lns8 | xacc
  deriving DecidableEq, Repr

/-- The format of a code of 05 R96; any other code names none. -/
def Fmt.ofCode : Nat → Option Fmt
  | 0 => some .fp32 | 1 => some .bf16 | 2 => some .fp16 | 3 => some .e4m3 | 4 => some .e5m2
  | 5 => some .int8 | 6 => some .int4 | 7 => some .lns16 | 8 => some .lns8 | 9 => some .xacc
  | _ => none

/-- The width of an element in bits (02 R35). -/
def Fmt.width : Fmt → Nat
  | .fp32 => 32 | .bf16 => 16 | .fp16 => 16 | .e4m3 => 8 | .e5m2 => 8
  | .int8 => 8 | .int4 => 4 | .lns16 => 16 | .lns8 => 8 | .xacc => 64

/-- FP32, BF16, FP16, E4M3 and E5M2. -/
def Fmt.isFloat : Fmt → Bool
  | .fp32 | .bf16 | .fp16 | .e4m3 | .e5m2 => true
  | _ => false

/-- INT8 and INT4. -/
def Fmt.isInt : Fmt → Bool
  | .int8 | .int4 => true
  | _ => false

/-- LNS16 and LNS8. -/
def Fmt.isLns : Fmt → Bool
  | .lns16 | .lns8 => true
  | _ => false

/-- A format that 05 R96 marks always scaled. -/
def Fmt.alwaysScaled (f : Fmt) : Bool := f.isInt

/-- A format that 05 R96 marks never scaled. -/
def Fmt.neverScaled : Fmt → Bool
  | .fp32 | .bf16 | .fp16 | .xacc => true
  | _ => false

/-- The least code of an integer format (02 R49). -/
def Fmt.qmin : Fmt → Int
  | .int4 => -8
  | _ => -128

/-- The greatest code of an integer format (02 R49). -/
def Fmt.qmax : Fmt → Int
  | .int4 => 7
  | _ => 127

/-- Precision (with the implicit bit) of a float format (02 R35). -/
def Fmt.prec : Fmt → Nat
  | .fp32 => 24 | .bf16 => 8 | .fp16 => 11 | .e4m3 => 4 | .e5m2 => 3
  | _ => 0

/-- The exponent of the smallest normal of a float format (02 R35). -/
def Fmt.emin : Fmt → Int
  | .fp32 => -126 | .bf16 => -126 | .fp16 => -14 | .e4m3 => -6 | .e5m2 => -14
  | _ => 0

/-- Magnitude bits of the largest finite value (02 R35, R52). -/
def Fmt.maxMag : Fmt → Nat
  | .fp32 => 0x7F7FFFFF | .bf16 => 0x7F7F | .fp16 => 0x7BFF | .e4m3 => 0x7E | .e5m2 => 0x7B
  | _ => 0

/-- Magnitude bits written for an overflow in IEEE mode: infinity, or NaN in E4M3 (02 R52). -/
def Fmt.infMag : Fmt → Nat
  | .fp32 => 0x7F800000 | .bf16 => 0x7F80 | .fp16 => 0x7C00 | .e4m3 => 0x7F | .e5m2 => 0x7C
  | _ => 0

/-- The canonical NaN of a float format (02 R36). -/
def Fmt.nanCode : Fmt → Nat
  | .fp32 => 0x7FC00000 | .bf16 => 0x7FC0 | .fp16 => 0x7E00 | .e4m3 => 0x7F | .e5m2 => 0x7E
  | _ => 0

/-- Fractional bits of the log field of an LNS format as steps of 1/256 (02 R38). -/
def Fmt.logStep : Fmt → Int
  | .lns8 => 32
  | _ => 1

/-- The greatest log field of an LNS format, its saturation code (02 R39). -/
def Fmt.logMax : Fmt → Int
  | .lns8 => 63
  | _ => 16383

/-- The code that reads as zero and that the part writes for it (02 R39); the code of an integer zero is its zero point. -/
def Fmt.zeroCode (f : Fmt) (zp : Int) : Nat :=
  match f with
  | .lns16 => 0x4000
  | .lns8 => 0x40
  | .int8 => unsigned 8 zp
  | .int4 => unsigned 4 zp
  | _ => 0

/-- The exact value an element stands for: not a number, an infinity, or `n / d * 2 ^ (k / 256)`; `negZero` tells a
float's -0 from +0. -/
inductive EV where
  | nan
  | inf (neg : Bool)
  | num (n : Int) (d : Nat) (k : Int) (negZero : Bool)
  deriving DecidableEq, Repr

/-- The exact zero. -/
def EV.zero : EV := .num 0 1 0 false

/-- Exact one. -/
def EV.one : EV := .num 1 1 0 false

/-- An integer as a value. -/
def EV.ofInt (i : Int) : EV := .num i 1 0 false

/-- Whether the value is infinite or NaN. -/
def EV.nonfinite : EV → Bool
  | .num .. => false
  | _ => true

/-- Whether the value reads as zero. -/
def EV.isZero : EV → Bool
  | .num n _ _ _ => n == 0
  | _ => false

/-- Whether the value is below zero (an infinity by its sign). -/
def EV.isNeg : EV → Bool
  | .num n _ _ nz => n < 0 || nz
  | .inf s => s
  | .nan => false

/-- The value of a float code (02 R35, R36: subnormals honoured). -/
def decodeFloat (f : Fmt) (code : Nat) : EV :=
  let w := f.width
  let neg := bit code (w - 1)
  let mag := code % 2 ^ (w - 1)
  let mb := f.prec - 1
  let e := mag / 2 ^ mb
  let frac := mag % 2 ^ mb
  let lsb := f.emin - mb
  if mag > f.maxMag then
    if mag = f.infMag && f != .e4m3 then .inf neg else .nan
  else
    let m : Int := if e = 0 then frac else frac + 2 ^ mb
    let ex : Int := if e = 0 then lsb else lsb + e - 1
    .num (if neg then -m else m) 1 (256 * ex) (neg && m == 0)

/-- The value of an LNS code (02 R38, R39: either zero pattern reads as +0). -/
def decodeLns (f : Fmt) (code : Nat) : EV :=
  let w := f.width
  let neg := bit code (w - 1)
  let k := signed (w - 1) code
  if k = -(f.logMax + 1) then .zero
  else .num (if neg then -1 else 1) 1 (k * f.logStep) false

/-- The log field of an LNS code (02 R38). -/
def lnsLog (f : Fmt) (code : Nat) : Int := signed (f.width - 1) code

/-- The value of a stored code before any scale: a float or LNS value, an integer code, or XACC `n * 2 ^ (-fx)`. -/
def decodeCode (f : Fmt) (fx : Nat) (code : Nat) : EV :=
  match f with
  | .int8 => .ofInt (signed 8 code)
  | .int4 => .ofInt (signed 4 code)
  | .lns16 | .lns8 => decodeLns f code
  | .xacc => .num (signed 64 code) 1 (-256 * fx) false
  | _ => decodeFloat f code

/-- Sign of a finite or infinite value for products: true when negative. -/
def EV.sign : EV → Bool := EV.isNeg

/-- The exact product (02 R41); infinities and NaN by IEEE 754. -/
def EV.mul : EV → EV → EV
  | .num n d k z, .num n' d' k' z' =>
    .num (n * n') (d * d') (k + k') (n * n' == 0 && (xor (n < 0 || z) (n' < 0 || z')))
  | .nan, _ => .nan
  | _, .nan => .nan
  | .inf s, b => if b.isZero then .nan else .inf (xor s b.sign)
  | a, .inf s => if a.isZero then .nan else .inf (xor a.sign s)

/-- The exact quotient by a positive finite value; a zero divisor gives zero and is never used. -/
def EV.divPos (a : EV) : EV → EV
  | .num n d k _ =>
    match a with
    | .num m e j z => if n ≤ 0 then .zero else .num (m * d) (e * n.toNat) (j - k) z
    | x => x
  | _ => .zero

/-- The negated value. -/
def EV.neg : EV → EV
  | .num n d k z => .num (-n) d k (n == 0 && !z)
  | .inf s => .inf (!s)
  | .nan => .nan

/-- The magnitude. -/
def EV.abs : EV → EV
  | .num n d k _ => .num n.natAbs d k false
  | .inf _ => .inf false
  | .nan => .nan

/-- `floor (log2 (n / d))` for positive `n`, `d`. -/
def floorLog2Ratio (n d : Nat) : Int :=
  let l : Int := (log2 n : Int) - log2 d
  let below := if 0 ≤ l then n < d * 2 ^ l.toNat else n * 2 ^ (-l).toNat < d
  if below then l - 1 else l

/-- The magnitude `n / d * 2 ^ (k / 256 + f)` rounded to the nearest integer, ties to even. For `k` not a multiple of 256 the
value is irrational and never ties: the rounding goes up exactly when `(2 n0 + 1) ^ 256` is below `2 ^ 256` times its
256th power (02 R44). -/
def gridMag (n d : Nat) (k f : Int) : Nat :=
  let e := k + 256 * f
  if e % 256 = 0 then
    let q := e / 256
    if 0 ≤ q then (rneDiv (n * 2 ^ q.toNat : Nat) d).toNat else (rneDiv n (d * 2 ^ (-q).toNat)).toNat
  else
    let num := n ^ 256 * (if 0 ≤ e then 2 ^ e.toNat else 1)
    let den := d ^ 256 * (if 0 ≤ e then 1 else 2 ^ (-e).toNat)
    let n0 := root256 (num / den)
    if (2 * n0 + 1) ^ 256 * den < 2 ^ 256 * num then n0 + 1 else n0

/-- The largest magnitude a placed value keeps (02 R42). -/
def gridLimit : Nat := 2 ^ 47 - 1

/-- A value placed on the XACC grid, with what it counts. -/
structure Placed where
  n : Int
  sat : Bool
  nonfin : Bool
  deriving DecidableEq, Repr

/-- Placing a value on the grid `2 ^ (-f)`, held in 48 bits (02 R42, R44, R460). -/
def place (f : Nat) : EV → Placed
  | .nan => ⟨0, false, true⟩
  | .inf s => ⟨if s then -(gridLimit : Int) else gridLimit, true, true⟩
  | .num n d k _ =>
    let g := gridMag n.natAbs d k f
    let m : Int := if g > gridLimit then gridLimit else g
    ⟨if n < 0 then -m else m, g > gridLimit, false⟩

/-- Three-way comparison of finite magnitudes `n / d * 2 ^ (k / 256)`: whether the first is at most the second. -/
def magLe (n d : Nat) (k : Int) (n' d' : Nat) (k' : Int) : Bool :=
  let e := k - k'
  if e % 256 = 0 then
    let q := e / 256
    if 0 ≤ q then n * d' * 2 ^ q.toNat ≤ n' * d else n * d' ≤ n' * d * 2 ^ (-q).toNat
  else
    let a := (n * d') ^ 256
    let b := (n' * d) ^ 256
    if 0 ≤ e then a * 2 ^ e.toNat ≤ b else a ≤ b * 2 ^ (-e).toNat

/-- Whether the first value is at most the second by real value, infinities at the ends (05 R464); NaN compares false. -/
def EV.le : EV → EV → Bool
  | .nan, _ => false
  | _, .nan => false
  | .inf true, _ => true
  | _, .inf false => true
  | .inf false, _ => false
  | _, .inf true => false
  | .num n d k _, .num n' d' k' _ =>
    if n < 0 then (if n' < 0 then magLe n'.natAbs d' k' n.natAbs d k else true)
    else if n' < 0 then false
    else magLe n.natAbs d k n'.natAbs d' k'

/-- Whether the first value is strictly greater, where +0 counts as greater than -0 (05 R107). -/
def EV.gt (a b : EV) : Bool :=
  match a, b with
  | .num n _ _ z, .num n' _ _ z' => if n = 0 && n' = 0 then !z && z' else !(EV.le a b)
  | .nan, _ => false
  | _, .nan => false
  | _, _ => !(EV.le a b)

/-- A value converted into a format: its code and what it counts (03 R71, R72). -/
structure Conv where
  code : Nat
  sat : Bool
  nonfin : Bool
  deriving DecidableEq, Repr

/-- A finite value rounded once into a float format (02 R50), overflow by the operation's OVF (`satMode`; 02 R52). -/
def toFloat (f : Fmt) (satMode : Bool) (n : Int) (d : Nat) (k : Int) (negZero : Bool) : Conv :=
  let s := if n < 0 || negZero then 2 ^ (f.width - 1) else 0
  if n = 0 then ⟨s, false, false⟩
  else
    let a := n.natAbs
    let e := if k % 256 = 0 then floorLog2Ratio a d + k / 256
             else (floorLog2Ratio (a ^ 256) (d ^ 256) + k) / 256
    let lsbMin := f.emin - (f.prec - 1)
    let lsb := max e f.emin - (f.prec - 1)
    let sig := gridMag a d k (-lsb)
    let mag := sig + (lsb - lsbMin).toNat * 2 ^ (f.prec - 1)
    if sig = 0 then ⟨s, false, false⟩
    else if mag > f.maxMag then ⟨if satMode then s + f.maxMag else if f = .e4m3 then f.infMag else s + f.infMag, true, false⟩
    else ⟨s + mag, false, false⟩

/-- The log field nearest a positive value, in steps of the format; a tie, which only a power of two scaled by a log field
can give, goes to even (02 R47, R51, R54; 04 R81). -/
def nearestLog (f : Fmt) (n d : Nat) (k : Int) : Int :=
  let g := floorLog2Ratio n d
  let pow2 := if 0 ≤ g then n == d * 2 ^ g.toNat else n * 2 ^ (-g).toNat == d
  if pow2 then rneDiv (256 * g + k) f.logStep.toNat
  else
    let i := floorLog2Ratio (n ^ 512) (d ^ 512) + 2 * k
    (i / f.logStep + 1) / 2

/-- A finite value rounded into an LNS format (02 R51): underflow collapses to zero, overflow to the saturation code. -/
def toLns (f : Fmt) (n : Int) (d : Nat) (k : Int) : Conv :=
  if n = 0 then ⟨f.zeroCode 0, false, false⟩
  else
    let s := if n < 0 then 2 ^ (f.width - 1) else 0
    let j := nearestLog f n.natAbs d k
    if j ≤ -(f.logMax + 1) then ⟨f.zeroCode 0, false, false⟩
    else if j ≥ f.logMax then ⟨s + f.logMax.toNat, true, false⟩
    else ⟨s + unsigned (f.width - 1) j, false, false⟩

/-- A value rounded into an integer format with zero point `zp`, clamped once (02 R49, 03 R62). -/
def toInt (f : Fmt) (zp : Int) : EV → Conv
  | .nan => ⟨unsigned f.width zp, false, true⟩
  | .inf s => ⟨unsigned f.width (if s then f.qmin else f.qmax), true, true⟩
  | .num n d k _ =>
    let g : Int := gridMag n.natAbs d k 0
    let v := (if n < 0 then -g else g) + zp
    ⟨unsigned f.width (clampInt v f.qmin f.qmax), v < f.qmin || v > f.qmax, false⟩

/-- A 64-bit stored XACC integer; a value outside becomes the nearer end and counts a saturation (02 R48, R461). -/
def storeXacc (n : Int) : Conv :=
  let c := clampInt n (-(2 ^ 63)) (2 ^ 63 - 1)
  ⟨unsigned 64 c, c != n, false⟩

/-- A value converted into a stored format (02 R50 to R54, R460; 03 R62): `satMode` is the operation's OVF, `zp` the zero
point of an integer destination, `keepInf` a conversion into a wider float, which keeps an infinity (02 R52, R54). -/
def convertEV (f : Fmt) (fx : Nat) (satMode keepInf : Bool) (zp : Int) (v : EV) : Conv :=
  match f with
  | .int8 | .int4 => toInt f zp v
  | .xacc => let p := place fx v; ⟨unsigned 64 p.n, p.sat, p.nonfin⟩
  | .lns16 | .lns8 =>
    match v with
    | .nan => ⟨f.zeroCode 0, false, true⟩
    | .inf s => ⟨(if s then 2 ^ (f.width - 1) else 0) + f.logMax.toNat, true, true⟩
    | .num n d k _ => toLns f n d k
  | _ =>
    match v with
    | .nan => ⟨f.nanCode, false, true⟩
    | .inf s =>
      let sb := if s then 2 ^ (f.width - 1) else 0
      if keepInf && f != .e4m3 then ⟨sb + f.infMag, false, true⟩
      else if satMode then ⟨sb + f.maxMag, true, true⟩
      else ⟨if f = .e4m3 then f.infMag else sb + f.infMag, false, true⟩
    | .num n d k z => toFloat f satMode n d k z

/-- Whether a code is a saturation code (02 R39). -/
def saturated (f : Fmt) (code : Nat) : Bool := f.isLns && code % 2 ^ (f.width - 1) == f.logMax.toNat

/-- A conversion between floats that 02 R54 calls one into a wider float: one into a format of more bits. Between formats of one
width (FP16 and BF16, E4M3 and E5M2) neither is the wider, and an infinity follows OVF (DESIGN CHOICE, log 77). -/
def widerFloat (src dst : Fmt) : Bool := src.isFloat && dst.isFloat && src.width < dst.width

/-- Whether a stored code reads as zero (03 R72: the code `z`, ±0, the LNS zero). -/
def readsZero (f : Fmt) (zp : Int) (code : Nat) : Bool :=
  match f with
  | .int8 | .int4 => code == unsigned f.width zp
  | .lns16 | .lns8 => (decodeLns f code).isZero
  | .xacc => code == 0
  | _ => code % 2 ^ (f.width - 1) == 0

/-- One IEEE 754 FP32 rounding, to nearest even with overflow to infinity (02 R46, 05 R111), as a value again. -/
def roundFP32 : EV → EV
  | .num n d k z => decodeFloat .fp32 (toFloat .fp32 false n d k z).code
  | v => v

/-- The exact sum of two FP32 values (both have rational value). -/
def EV.addExact : EV → EV → EV
  | .num n d k z, .num n' d' k' z' =>
    let lo := min k k'
    let a := n * d' * 2 ^ ((k - lo) / 256).toNat
    let b := n' * d * 2 ^ ((k' - lo) / 256).toNat
    .num (a + b) (d * d') lo (a + b == 0 && n == 0 && n' == 0 && z && z')
  | .nan, _ => .nan
  | _, .nan => .nan
  | .inf s, .inf s' => if s = s' then .inf s else .nan
  | .inf s, _ => .inf s
  | _, .inf s => .inf s

/-- One FP32 addition, rounding to nearest even (02 R46). -/
def fpAdd (a b : EV) : EV := roundFP32 (a.addExact b)

/-- One FP32 multiplication, rounding to nearest even. -/
def fpMul (a b : EV) : EV := roundFP32 (a.mul b)

/-- The sum of a group by the balanced tree of 02 R46: its first `ceil (n/2)` products and its last `floor (n/2)`. -/
def treeSum : Nat → List EV → EV
  | 0, _ => .zero
  | k + 1, l =>
    match l with
    | [] => .zero
    | [a] => a
    | _ => fpAdd (treeSum k (l.take (ceilDiv l.length 2))) (treeSum k (l.drop (ceilDiv l.length 2)))

/-- The FP32 sum of products in K order: groups of 32 by the tree, each later group sum added to the running accumulator
(02 R46). -/
def fp32Groups : Nat → Option EV → List EV → EV
  | 0, acc, _ => acc.getD .zero
  | k + 1, acc, l =>
    if l.isEmpty then acc.getD .zero
    else
      let g := treeSum 6 (l.take 32)
      fp32Groups k (some (match acc with | none => g | some a => fpAdd a g)) (l.drop 32)

/-- The FP32 accumulator's result over the products of one output, in K order (02 R46). -/
def fp32Reduce (l : List EV) : EV := fp32Groups (l.length / 32 + 1) none l

end Sys2Proof.Machine
end

