-- ==== Sys2Proof/Machine/Operands.lean ====
section
/-! DEFINITION. Operation descriptors and their operands (05 R94 to R97, R103, R114; 07 R161; 03 R60, R61, R77, R78): parsing, the
places of elements in memory, scale streams and the bytes an operation touches. -/

namespace Sys2Proof.Machine

/-- A tensor operand (05 R95). Its base is a memory location (06 R465). -/
structure Tensor where
  base : Nat
  planePitch : Nat
  rowPitch : Nat
  c : Nat
  h : Nat
  w : Nat
  fmt : Fmt
  layout : Nat
  gran : Nat
  block : Nat
  scale : Nat
  /-- bytes from BASE that it may reach: those left of the own scratchpad where BASE names that (06 R122) -/
  room : Nat
  deriving DecidableEq, Repr

/-- The operand that stands for one that is absent. -/
def Tensor.absent : Tensor :=
  { base := 0, planePitch := 0, rowPitch := 0, c := 0, h := 0, w := 0, fmt := .fp32, layout := 0, gran := 0, block := 32, scale := 0
    room := 0 }

/-- Channels of a block: 1 planar, 16, 32 (05 R114). -/
def Tensor.lanes (t : Tensor) : Nat := match t.layout with | 0 => 1 | 1 => 16 | _ => 32

/-- Planes or channel blocks. -/
def Tensor.planes (t : Tensor) : Nat := ceilDiv t.c t.lanes

/-- Bytes of one stored row. -/
def Tensor.rowBytes (t : Tensor) : Nat := ceilDiv (t.w * t.lanes * t.fmt.width) 8

/-- Elements of a tensor. -/
def Tensor.count (t : Tensor) : Nat := t.c * t.h * t.w

/-- Whether the tensor has a scale stream. -/
def Tensor.scaled (t : Tensor) : Bool := t.scale != 0

/-- The bit offset from BASE of element (c, y, x) (05 R114). -/
def Tensor.bitOff (t : Tensor) (c y x : Nat) : Nat :=
  8 * (c / t.lanes * t.planePitch + y * t.rowPitch) + t.fmt.width * (x * t.lanes + c % t.lanes)

/-- Data blocks of a tensor (03 R60). -/
def Tensor.blocks (t : Tensor) : Nat :=
  match t.gran with
  | 0 => 1
  | 1 => t.c
  | _ => if t.layout = 0 then t.c * t.h * ceilDiv t.w t.block else t.h * t.w * ceilDiv t.c t.block

/-- The data block of element (c, y, x) (03 R60). -/
def Tensor.blockOf (t : Tensor) (c y x : Nat) : Nat :=
  match t.gran with
  | 0 => 0
  | 1 => c
  | _ => if t.layout = 0 then (c * t.h + y) * ceilDiv t.w t.block + x / t.block
         else (y * t.w + x) * ceilDiv t.c t.block + c / t.block

/-- Every coordinate of a tensor in the order C, H, W. -/
def coords (c h w : Nat) : List (Nat × Nat × Nat) :=
  (List.range c).flatMap fun i => (List.range h).flatMap fun y => (List.range w).map fun x => (i, y, x)

/-- The coordinates of a tensor. -/
def Tensor.coords (t : Tensor) : List (Nat × Nat × Nat) := Sys2Proof.Machine.coords t.c t.h t.w

/-- `len` bytes at an offset from BASE; past the end of the own scratchpad they are unpopulated (06 R122). -/
def Tensor.part (t : Tensor) (off len : Nat) : Span := if off + len ≤ t.room then ⟨t.base + off, len⟩ else ⟨0x300000080000, len⟩

/-- The bytes of its elements: one span for each plane and row (05 R114: the padding between is never touched). -/
def Tensor.spans (t : Tensor) : List Span :=
  (List.range t.planes).flatMap fun p => (List.range t.h).map fun y =>
    t.part (p * t.planePitch + y * t.rowPitch) t.rowBytes

/-- The bytes of one element; a nibble's byte for INT4. -/
def Tensor.elemSpan (t : Tensor) (c y x : Nat) : Span := t.part (t.bitOff c y x / 8) (ceilDiv t.fmt.width 8)

/-- The bytes of its scale packets, without the end marker. -/
def Tensor.scaleSpans (t : Tensor) : List Span := if t.scaled then [⟨t.scale, 8 * t.blocks⟩] else []

/-- Two tensors of one shape. -/
def Tensor.sameShape (a b : Tensor) : Bool := a.c == b.c && a.h == b.h && a.w == b.w

/-- Whether a format and a layout's block size go together (05 R114). -/
def layoutFits (f : Fmt) (layout : Nat) : Bool :=
  match layout with
  | 0 => true
  | 1 => 16 ≤ f.width
  | _ => f.width ≤ 8

/-- A 48-byte tensor descriptor (05 R95 to R97, R114). A target descriptor (03 R462) has BASE and both pitches zero. -/
def parseTensor (th : ThreadId) (target : Bool) (b : List Byte) : Except Status Tensor :=
  match Fmt.ofCode (leAt b 26 1) with
  | none => .error .badParam
  | some f =>
    let g := leAt b 28 1
    let t : Tensor := {
      base := canonAddr th (leAt b 0 8), planePitch := leAt b 8 8, rowPitch := leAt b 16 4, c := leAt b 20 2
      h := leAt b 22 2, w := leAt b 24 2, fmt := f, layout := leAt b 27 1, gran := g % 4, block := 32 * 2 ^ (g / 4 % 4)
      scale := canonAddr th (leAt b 32 8)
      room := if 0x300000000000 ≤ leAt b 0 8 ∧ leAt b 0 8 < 0x300000080000 then 0x300000080000 - leAt b 0 8 else 2 ^ 64 }
    if b.length < 48 then .error .badParam
    else if t.layout > 2 || t.gran = 3 || g / 16 ≠ 0 || leAt b 29 3 ≠ 0 || leAt b 40 8 ≠ 0 then .error .badParam
    else if (f.alwaysScaled && t.scale = 0) || (f.neverScaled && t.scale ≠ 0) then .error .badParam
    else if t.c = 0 || t.h = 0 || t.w = 0 then .error .badShape
    else if !layoutFits f t.layout then .error .badParam
    else if target then
      if leAt b 0 8 ≠ 0 || t.planePitch ≠ 0 || t.rowPitch ≠ 0 then .error .badParam else .ok t
    else if leAt b 0 8 % 64 ≠ 0 || t.planePitch % 64 ≠ 0 || t.rowPitch % 64 ≠ 0 then .error .badParam
    else if t.rowPitch < roundUp t.rowBytes 64 || t.planePitch < t.h * t.rowPitch then .error .badParam
    else .ok t

/-- A 16-byte byte-range descriptor (07 R161). -/
def parseRange (th : ThreadId) (b : List Byte) : Except Status Span :=
  if b.length < 16 || leAt b 12 4 ≠ 0 then .error .badParam else .ok ⟨canonAddr th (leAt b 0 8), leAt b 8 4⟩

/-- The operands of an operation, in order. -/
inductive Slot where
  /-- a tensor read, one that may be absent, a target descriptor, a tensor written -/
  | read | maybe | target | written
  /-- a byte range -/
  | range
  /-- `lo` to `hi` tensors read -/
  | many (lo hi : Nat)
  deriving DecidableEq, Repr

/-- A row of the operation list (05 R98): code, engine, operands, and the bits of its own fields. -/
structure OpRow where
  code : Nat
  engine : Option Engine
  slots : List Slot
  ownBits : Nat
  deriving DecidableEq, Repr

/-- A parsed operation. -/
structure Op where
  size : Nat
  f : Nat
  fp32 : Bool
  flags : Nat
  fmse : Nat
  stats : Nat
  sse : Nat
  thresh : Nat
  tensors : List (Option Tensor)
  ranges : List Span
  /-- the own fields as one little-endian number, and the output stage likewise -/
  own : Nat
  stage : Nat
  deriving DecidableEq, Repr

/-- FLAGS bits (05 R94). -/
def Op.hasStage (o : Op) : Bool := bit o.flags 0
def Op.hasStats (o : Op) : Bool := bit o.flags 1
def Op.inPlace (o : Op) : Bool := bit o.flags 2
def Op.outliers (o : Op) : Bool := bit o.flags 3

/-- Bytes the own fields take, padded to 16 (log 18). -/
def OpRow.ownLen (r : OpRow) : Nat := roundUp (ceilDiv r.ownBits 8) 16

/-- Bytes of an operand descriptor. -/
def Slot.len : Slot → Nat
  | .range => 16
  | .many .. => 0
  | _ => 48

/-- Operands parsed in order: `k` tensors for a run of many. -/
def parseSlots (th : ThreadId) (many : Nat) : List Slot → List Byte → Except Status (List (Option Tensor) × List Span × List Byte)
  | [], b => .ok ([], [], b)
  | .range :: ss, b => do
    let r ← parseRange th (b.take 16)
    let (ts, rs, rest) ← parseSlots th many ss (b.drop 16)
    .ok (ts, r :: rs, rest)
  | .maybe :: ss, b => do
    let t ← if leNat (b.take 48) = 0 then pure none else (parseTensor th false (b.take 48)).map some
    let (ts, rs, rest) ← parseSlots th many ss (b.drop 48)
    .ok (t :: ts, rs, rest)
  | .many _ _ :: ss, b => do
    let run ← (List.range many).mapM fun i => parseTensor th false (slice b (48 * i) 48)
    let (ts, rs, rest) ← parseSlots th many ss (b.drop (48 * many))
    .ok (run.map some ++ ts, rs, rest)
  | s :: ss, b => do
    let t ← parseTensor th (s == .target) (b.take 48)
    let (ts, rs, rest) ← parseSlots th many ss (b.drop 48)
    .ok (some t :: ts, rs, rest)

/-- Codes of the operations that read ACC (05 R94). -/
def readsAcc : List Nat := [0x01, 0x02, 0x03, 0x04, 0x05, 0x08, 0x09]

/-- How many tensors a run of many holds: what SIZE leaves; none when that is no count in its bounds. -/
def manyCount (r : OpRow) (bytes stageLen : Nat) : Option Nat :=
  match r.slots.findSome? (fun s => match s with | .many lo hi => some (lo, hi) | _ => none) with
  | none => some 0
  | some (lo, hi) =>
    let fixed := 32 + r.ownLen + stageLen + (r.slots.map Slot.len).sum
    let n := (bytes - fixed) / 48
    if fixed ≤ bytes ∧ (bytes - fixed) % 48 = 0 ∧ lo ≤ n ∧ n ≤ hi then some n else none

/-- A descriptor read as row `r` (05 R94, R97). Own fields are packed from bit 0 in the order of their table (log 18). -/
def parseOp (th : ThreadId) (r : OpRow) (b : List Byte) : Except Status Op :=
  let flags := leAt b 4 2
  let stageLen := if bit flags 0 then 32 else 0
  if leAt b 2 1 > 62 || leAt b 3 1 > 1 || flags / 16 ≠ 0 || leAt b 6 1 / 64 ≠ 0 || leAt b 7 1 ≠ 0 || leAt b 28 4 ≠ 0 then
    .error .badParam
  else if leAt b 3 1 = 1 && !readsAcc.contains r.code then .error .badParam
  else if bit flags 1 && leAt b 6 1 > 62 then .error .badParam
  else
    match manyCount r b.length stageLen with
    | none => .error .badParam
    | some n =>
      if b.length < 32 + 48 * n + r.ownLen + stageLen + (r.slots.map Slot.len).sum then .error .badParam
      else
        match parseSlots th n r.slots (b.drop 32) with
        | .error e => .error e
        | .ok (ts, rs, rest) =>
          let own := leNat (rest.take r.ownLen)
          if own / 2 ^ r.ownBits ≠ 0 then .error .badParam
          else .ok {
            size := b.length / 16, f := leAt b 2 1, fp32 := leAt b 3 1 == 1, flags := flags, fmse := leAt b 6 1
            stats := canonAddr th (leAt b 8 8), sse := canonAddr th (leAt b 16 8), thresh := leAt b 24 4
            tensors := ts, ranges := rs, own := own
            stage := if stageLen = 0 then 0 else leNat ((rest.drop r.ownLen).take 32) }

/-- Operand `i` of an operation whose operands are all present. -/
def Op.t (o : Op) (i : Nat) : Tensor :=
  (o.tensors.getD i none).getD Tensor.absent

/-- Byte range `i`. -/
def Op.r (o : Op) (i : Nat) : Span := o.ranges.getD i ⟨0, 0⟩

/-! ### Elements in memory -/

/-- The stored code of an element. -/
def State.code (s : State) (t : Tensor) (c y x : Nat) : Nat :=
  let b := t.bitOff c y x
  if t.fmt = .int4 then bits (s.byteAt (t.base + b / 8)).toNat (b % 8) 4 else s.numAt (t.base + b / 8) (t.fmt.width / 8)

/-- Why a scale stream cannot be used from some block on (03 R61, R78). -/
inductive ScaleErr where
  | packet
  | skew (expected found : Nat)
  | ended (expected : Nat)
  deriving DecidableEq, Repr

/-- The scale of a packet, as FP32 bits, and its zero point. -/
def State.packet (s : State) (addr b : Nat) : Nat × Int :=
  (s.numAt (addr + 8 * b) 4, signed 8 (s.byteAt (addr + 8 * b + 4)).toNat)

/-- Whether FP32 bits are a positive normal value (03 R59). -/
def positiveNormal (b : Nat) : Bool := b / 2 ^ 31 == 0 && 1 ≤ bits b 23 8 && bits b 23 8 ≤ 254

/-- Whether a zero point fits a format: the code range of an integer format, else 0 (03 R59). -/
def zpFits (f : Fmt) (z : Int) : Bool := if f.isInt then f.qmin ≤ z && z ≤ f.qmax else z == 0

/-- What is wrong with packet `b` of a tensor's stream (03 R61, R77, R78): the end marker first, then the index, then SCALE and
ZP. -/
def State.packetErr (s : State) (t : Tensor) (b : Nat) : Option ScaleErr :=
  let a := t.scale + 8 * b
  let found := s.numAt (a + 6) 2
  if bit (s.byteAt (a + 5)).toNat 7 then some (.ended (b % 65536))
  else if found ≠ b % 65536 then some (.skew (b % 65536) found)
  else
    let p := s.packet t.scale b
    if positiveNormal p.1 && zpFits t.fmt p.2 then none else some .packet

/-- The packets of a tensor, good up to the first that fails: how many are good, and why the next is not. -/
def State.checkScale (s : State) (t : Tensor) : Nat × Option ScaleErr :=
  if t.scaled then
    match (List.range t.blocks).findSome? fun b => (s.packetErr t b).map fun e => (b, e) with
    | some (b, e) => (b, some e)
    | none => (t.blocks, none)
  else (t.blocks, none)

/-- A tensor with the number of its good blocks. -/
structure Src where
  t : Tensor
  good : Nat
  err : Option ScaleErr
  deriving DecidableEq, Repr

def State.src (s : State) (t : Tensor) : Src :=
  let p := s.checkScale t
  ⟨t, p.1, p.2⟩

/-- The scale and zero point that hold for an element: 1 and 0 where the tensor has none. -/
def State.scaleAt (s : State) (t : Tensor) (c y x : Nat) : EV × Int :=
  if t.scaled then
    let p := s.packet t.scale (t.blockOf c y x)
    (decodeFloat .fp32 p.1, p.2)
  else (.num 1 1 0 false, 0)

/-- Whether an element's block is good. -/
def Src.goodAt (a : Src) (c y x : Nat) : Bool := a.t.blockOf c y x < a.good

/-- The value of a code with a scale and a zero point (02 R37, R38; 05 R111). -/
def realOf (f : Fmt) (fx : Nat) (sz : EV × Int) (code : Nat) : EV :=
  match f with
  | .int8 | .int4 => sz.1.mul (.ofInt (signed f.width code - sz.2))
  | _ => (decodeCode f fx code).mul sz.1

/-- The real value of an element. -/
def State.real (s : State) (t : Tensor) (fx : Nat) (c y x : Nat) : EV :=
  let v := decodeCode t.fmt fx (s.code t c y x)
  if t.scaled then realOf t.fmt fx (s.scaleAt t c y x) (s.code t c y x) else v

/-- Whether an element is infinite or NaN. -/
def State.nonfiniteAt (s : State) (t : Tensor) (c y x : Nat) : Bool :=
  t.fmt.isFloat && (decodeFloat t.fmt (s.code t c y x)).nonfinite

/-- Whether any element of a tensor is infinite or NaN. -/
def State.anyNonfinite (s : State) (t : Tensor) : Bool :=
  t.fmt.isFloat && t.coords.any fun p => s.nonfiniteAt t p.1 p.2.1 p.2.2

/-- The bytes of one stored row: codes by element index, none where an element is not written. -/
def rowRuns (s : State) (t : Tensor) (addr : Nat) (codes : List (Option Nat)) : List (Nat × List Byte) :=
  if t.fmt = .int4 then
    (List.range (ceilDiv codes.length 2)).filterMap fun i =>
      let lo := codes.getD (2 * i) none
      let hi := codes.getD (2 * i + 1) (some 0)
      if lo.isNone && (hi.isNone || codes.length ≤ 2 * i + 1) then none
      else
        let old := (s.byteAt (addr + i)).toNat
        some (addr + i, [byte (lo.getD (old % 16) % 16 + 16 * (hi.getD (old / 16) % 16))])
  else
    codes.zipIdx.filterMap fun p => p.1.map fun n => (addr + p.2 * (t.fmt.width / 8), leBytes (t.fmt.width / 8) n)

/-- The memory runs that write a tensor: `code` gives each element's code, none for one that is not written; `pad` the code of
the unused channel positions of a position (05 R114). -/
def tensorRuns (s : State) (t : Tensor) (code : Nat → Nat → Nat → Option Nat) (pad : Nat → Nat → Option Nat) :
    List (Nat × List Byte) :=
  (List.range t.planes).flatMap fun p => (List.range t.h).flatMap fun y =>
    rowRuns s t (t.base + p * t.planePitch + y * t.rowPitch)
      ((List.range (t.w * t.lanes)).map fun i =>
        let c := p * t.lanes + i % t.lanes
        let x := i / t.lanes
        if c < t.c then code c y x else pad y x)

/-- A scale packet's bytes (03 R61). -/
def packetBytes (scale : Nat) (zp : Int) (flags idx : Nat) : List Byte :=
  leBytes 4 scale ++ [byte (unsigned 8 zp), byte flags] ++ leBytes 2 idx

/-- The end marker (03 R61). -/
def endMarker : List Byte := packetBytes 0 0 0x80 0xFFFF

/-! ### Windows (05 R103 to R105) -/

/-- The window fields. -/
structure Window where
  kh : Nat
  kw : Nat
  sh : Nat
  sw : Nat
  dh : Nat
  dw : Nat
  padT : Nat
  padB : Nat
  padL : Nat
  padR : Nat
  groups : Nat
  depth : Nat
  countPad : Bool
  deriving DecidableEq, Repr

/-- Bits of the window fields. -/
def windowBits : Nat := 10 * 8 + 16 + 8 + 1

/-- The bit at which a convolution's WEIGHT_REF stands: the byte after the window fields, since a relocation names it by its byte offset
(05 R103; 09 R195; DEDUCED, log 18). -/
def weightBit : Nat := roundUp windowBits 8

/-- The window fields at the start of an operation's own fields. -/
def windowOf (own : Nat) : Window :=
  let b := fun i => bits own (8 * i) 8
  { kh := b 0, kw := b 1, sh := b 2, sw := b 3, dh := b 4, dw := b 5, padT := b 6, padB := b 7, padL := b 8, padR := b 9
    groups := bits own 80 16, depth := bits own 96 8, countPad := bit own 104 }

/-- Fields in their ranges (05 R103). -/
def Window.inRange (w : Window) (pooling : Bool) : Bool :=
  let k := if pooling then 16 else 64
  1 ≤ w.kh && w.kh ≤ k && 1 ≤ w.kw && w.kw ≤ k && 1 ≤ w.sh && w.sh ≤ 64 && 1 ≤ w.sw && w.sw ≤ 64 && 1 ≤ w.dh && 1 ≤ w.dw &&
    (if pooling then w.dh == 1 && w.dw == 1 else w.dh ≤ 64 && w.dw ≤ 64)

/-- The output size on one axis, none below 1 (05 R104). -/
def outSize (n k s d lo hi : Nat) : Option Nat :=
  if d * (k - 1) + 1 ≤ n + lo + hi then some ((n + lo + hi - d * (k - 1) - 1) / s + 1) else none

/-- The input position a tap reads, none for a padded tap (05 R104, R105). -/
def tapAt (o s pad d k n : Nat) : Option Nat :=
  let p := o * s + k * d
  if p < pad then none else if p - pad < n then some (p - pad) else none

/-- Whether an output of size (h, w) is what the window gives. -/
def Window.fits (w : Window) (x : Tensor) (h v : Nat) : Bool :=
  outSize x.h w.kh w.sh w.dh w.padT w.padB == some h && outSize x.w w.kw w.sw w.dw w.padL w.padR == some v

/-- The in-image taps of an output position in tap order: tap index and input position. -/
def Window.taps (w : Window) (x : Tensor) (oy ox : Nat) : List (Nat × Nat × Nat) :=
  (List.range w.kh).flatMap fun ky => (List.range w.kw).filterMap fun kx =>
    match tapAt oy w.sh w.padT w.dh ky x.h, tapAt ox w.sw w.padL w.dw kx x.w with
    | some iy, some ix => some (ky * w.kw + kx, iy, ix)
    | _, _ => none

/-- The input positions some output of a windowed operation reads. -/
def Window.positions (w : Window) (x : Tensor) (h v : Nat) : List (Nat × Nat) :=
  let rows := dedup ((List.range h).flatMap fun o => (List.range w.kh).filterMap fun k => tapAt o w.sh w.padT w.dh k x.h)
  let cols := dedup ((List.range v).flatMap fun o => (List.range w.kw).filterMap fun k => tapAt o w.sw w.padL w.dw k x.w)
  rows.flatMap fun y => cols.map fun z => (y, z)

/-- The bytes a windowed operation fetches: every position some output reads, over every plane (05 R105). -/
def Window.spans (w : Window) (x : Tensor) (h v : Nat) : List Span :=
  (List.range x.planes).flatMap fun p => (w.positions x h v).map fun t =>
    let b := x.fmt.width * t.2 * x.lanes
    x.part (p * x.planePitch + t.1 * x.rowPitch + b / 8) (ceilDiv (b % 8 + x.fmt.width * x.lanes) 8)

end Sys2Proof.Machine
end

