-- ==== Sys2Proof/Machine/Special.lean ====
section
/-! DEFINITION. The special functions (04 R79 to R87) as correctly rounded exact reals. A real is given by enclosures: at
precision `p` a pair of integers with `lo ≤ x * 2 ^ p ≤ hi`. A rounding is decided once both ends round alike; at the last
precision an undecided value is an exact tie and goes to even, but for a function that approaches a limit from below: its value
is irrational and lies strictly between 0 and the limit. -/

namespace Sys2Proof.Machine

/-- An enclosure at some precision. -/
structure Iv where
  lo : Int
  hi : Int
  deriving DecidableEq, Repr

/-- Floor of `a / 2 ^ p`. -/
def shrDown (a : Int) (p : Nat) : Int := a / (2 ^ p : Nat)

/-- Ceiling of `a / 2 ^ p`. -/
def shrUp (a : Int) (p : Nat) : Int := -((-a) / (2 ^ p : Nat))

/-- An exact integer as an enclosure. -/
def Iv.int (p : Nat) (i : Int) : Iv := ⟨i * 2 ^ p, i * 2 ^ p⟩

/-- The quotient of two integers, positive divisor, as an enclosure. -/
def Iv.rat (p : Nat) (n : Int) (d : Nat) : Iv := ⟨n * 2 ^ p / d, -((-(n * 2 ^ p)) / d)⟩

/-- Sum of enclosures. -/
def Iv.add (a b : Iv) : Iv := ⟨a.lo + b.lo, a.hi + b.hi⟩

/-- Difference of enclosures. -/
def Iv.sub (a b : Iv) : Iv := ⟨a.lo - b.hi, a.hi - b.lo⟩

/-- Negation of an enclosure. -/
def Iv.neg (a : Iv) : Iv := ⟨-a.hi, -a.lo⟩

/-- Product of enclosures at precision `p`. -/
def Iv.mul (p : Nat) (a b : Iv) : Iv :=
  let w := a.lo * b.lo
  let x := a.lo * b.hi
  let y := a.hi * b.lo
  let z := a.hi * b.hi
  ⟨shrDown (min (min w x) (min y z)) p, shrUp (max (max w x) (max y z)) p⟩

/-- Quotient of a non-negative enclosure by a positive one at precision `p`. -/
def Iv.div (p : Nat) (a b : Iv) : Iv :=
  ⟨a.lo * 2 ^ p / (max b.hi 1), -((-(a.hi * 2 ^ p)) / (max b.lo 1))⟩

/-- An enclosure with its ends held at or above 0. -/
def Iv.pos (a : Iv) : Iv := ⟨max a.lo 0, max a.hi 0⟩

/-- Taylor terms of `exp` from term `i`, the sum so far and the last term. -/
def expTerms (p : Nat) (r : Iv) : Nat → Nat → Iv → Iv → Iv
  | 0, _, sum, _ => ⟨sum.lo, sum.hi + 2⟩
  | k + 1, i, sum, t =>
    let u := Iv.mul p t r
    let t' : Iv := ⟨u.lo / i, -((-u.hi) / i)⟩
    expTerms p r k (i + 1) (sum.add t') t'

/-- An enclosure squared `k` times. -/
def squarings (p : Nat) : Nat → Iv → Iv
  | 0, a => a
  | k + 1, a => squarings p k (Iv.mul p a a)

/-- `exp` of `a / 2 ^ p` for `0 ≤ a ≤ 4096 * 2 ^ p`. -/
def expPos (p : Nat) (a : Int) : Iv :=
  let q := p + 64
  let r := shrDown (a * 2 ^ 64) 20
  let e := squarings q 20 (expTerms q ⟨r, r + 1⟩ (q / 8 + 2) 1 (Iv.int q 1) (Iv.int q 1))
  ⟨shrDown e.lo 64, shrUp e.hi 64⟩

/-- `exp` of the point `a / 2 ^ p`; beyond 4096 either way an enclosure that every format rounds to its overflow or to 0. -/
def expPoint (p : Nat) (a : Int) : Iv :=
  let cap : Int := 4096 * 2 ^ p
  if a = 0 then Iv.int p 1
  else if a > cap then let e := expPos p cap; ⟨e.lo, e.hi * 2 ^ 4096⟩
  else if a ≥ 0 then expPos p a
  else if -a > cap then ⟨0, 1⟩
  else (Iv.div p (Iv.int p 1) (expPos p (-a))).pos

/-- `exp` of an enclosure. -/
def expIv (p : Nat) (x : Iv) : Iv := ⟨(expPoint p x.lo).lo, (expPoint p x.hi).hi⟩

/-- Terms `z ^ (2 i + 1) / (2 i + 1)`, alternating when `alt`, summed. -/
def arcTerms (p : Nat) (alt : Bool) (z2 : Iv) : Nat → Nat → Iv → Iv → Iv
  | 0, _, sum, t => if alt then ⟨sum.lo - t.hi - 1, sum.hi + t.hi + 1⟩ else ⟨sum.lo, sum.hi + t.hi + 1⟩
  | k + 1, i, sum, t =>
    let u : Iv := ⟨t.lo / (2 * i + 1), -((-t.hi) / (2 * i + 1))⟩
    arcTerms p alt z2 k (i + 1) (if alt && i % 2 == 1 then sum.sub u else sum.add u) (Iv.mul p t z2)

/-- `atanh z` (or `atan z` when `alt`) for an enclosure of `0 ≤ z ≤ 1/3`. -/
def arc (p : Nat) (alt : Bool) (z : Iv) : Iv :=
  arcTerms p alt (Iv.mul p z z) (p / 3 + 8) 0 (Iv.int p 0) z

/-- The enclosure of `ln 2 = 2 atanh (1/3)`. -/
def ln2 (p : Nat) : Iv := let a := arc p false (Iv.rat p 1 3); a.add a

/-- The enclosure of pi, by Machin's formula. -/
def piIv (p : Nat) : Iv :=
  let a := arc p true (Iv.rat p 1 5)
  let b := arc p true (Iv.rat p 1 239)
  ⟨16 * a.lo - 4 * b.hi, 16 * a.hi - 4 * b.lo⟩

/-- The square root of a non-negative enclosure at precision `p`. -/
def sqrtIv (p : Nat) (a : Iv) : Iv :=
  let l := isqrt ((max a.lo 0).toNat * 2 ^ p)
  let h := isqrt ((max a.hi 0).toNat * 2 ^ p)
  ⟨l, if h * h = (max a.hi 0).toNat * 2 ^ p then h else h + 1⟩

/-- The enclosure of a positive magnitude `n / d * 2 ^ (k / 256)`. -/
def encMag (p : Nat) (n d : Nat) (k : Int) : Iv :=
  if k % 256 = 0 then
    let q := k / 256 + p
    if 0 ≤ q then ⟨(n * 2 ^ q.toNat / d : Nat), -((-(n * 2 ^ q.toNat : Nat) : Int) / d)⟩
    else ⟨(n / (d * 2 ^ (-q).toNat) : Nat), -((-(n : Int)) / (d * 2 ^ (-q).toNat : Nat))⟩
  else let g : Int := gridMag n d k p; ⟨g - 1, g + 1⟩

/-- The enclosure of a finite value, 0 for any other. -/
def encEV (p : Nat) : EV → Iv
  | .num n d k _ => let m := encMag p n.natAbs d k; if n < 0 then m.neg else m
  | _ => ⟨0, 0⟩

/-- The enclosure of `log2` of a positive value. -/
def log2Iv (p : Nat) (n d : Nat) (k : Int) : Iv :=
  let e := floorLog2Ratio n d
  let m := encMag p n d (-256 * e)
  let one := Iv.int p 1
  let z := Iv.div p (m.sub one).pos (m.add one)
  let a := arc p false z
  let l := Iv.div p (a.add a).pos (ln2 p)
  (l.add (Iv.int p e)).add (Iv.rat p k 256)

/-- Terms of `erf x = 2 / sqrt pi * exp (-x^2) * sum 2^i x^(2i+1) / (2i+1)!!`. -/
def erfTerms (p : Nat) (x2 : Iv) : Nat → Nat → Iv → Iv → Iv
  | 0, _, sum, t => ⟨sum.lo, sum.hi + 2 * t.hi + 2⟩
  | k + 1, i, sum, t =>
    let u := Iv.mul p t x2
    let t' : Iv := ⟨2 * u.lo / (2 * i + 1), -((-(2 * u.hi)) / (2 * i + 1))⟩
    erfTerms p x2 k (i + 1) (sum.add t') t'

/-- `erf` of an enclosure of a non-negative value: 1 to within the enclosure's unit beyond 64. -/
def erfIv (p : Nat) (x : Iv) : Iv :=
  if x.lo ≥ 64 * 2 ^ p then ⟨2 ^ p - 1, 2 ^ p⟩
  else
    let q := p + 128
    let y : Iv := ⟨x.lo * 2 ^ 128, x.hi * 2 ^ 128⟩
    let y2 := Iv.mul q y y
    let n := (shrUp y2.hi q).toNat
    let s := erfTerms q y2 (8 * n + q + 16) 1 y y
    let e := Iv.mul q (expIv q y2.neg) s
    let r := Iv.div q (e.add e).pos (sqrtIv q (piIv q))
    ⟨max 0 (min (2 ^ p) (shrDown r.lo 128)), max 0 (min (2 ^ p) (shrUp r.hi 128))⟩

/-- `Phi x = (1 + erf (x / sqrt 2)) / 2` of a value given by its sign and the enclosure of its magnitude. -/
def phiIv (p : Nat) (neg : Bool) (x : Iv) : Iv :=
  let q := p + 8
  let y : Iv := ⟨x.lo * 2 ^ 8, x.hi * 2 ^ 8⟩
  let r := erfIv q (Iv.div q y (sqrtIv q (Iv.int q 2))).pos
  let s := if neg then (Iv.int q 1).sub r else (Iv.int q 1).add r
  ⟨max 0 (shrDown s.lo 9), shrUp s.hi 9⟩

/-- `1 / (1 + exp (-x))` of an enclosure. -/
def sigmoidIv (p : Nat) (x : Iv) : Iv :=
  Iv.div p (Iv.int p 1) ((Iv.int p 1).add (expIv p x.neg))

/-- `tanh x` of an enclosure of a non-negative value. -/
def tanhIv (p : Nat) (x : Iv) : Iv :=
  let t := expIv p ⟨-2 * x.hi, -2 * x.lo⟩
  Iv.div p ((Iv.int p 1).sub t).pos ((Iv.int p 1).add t)

/-- The functions of the special-function slice (04 R79). The codes of FUNC are those of the order of its table. -/
inductive SFn where
  | exp2 | log2 | recip | rsqrt | sigmoid | tanh | erf | phi | geluErf | geluTanh | silu
  deriving DecidableEq, Repr

/-- A function of its FUNC code, counted in the order of the table of 04 R79. -/
def SFn.ofCode : Nat → Option SFn
  | 0 => some .exp2 | 1 => some .log2 | 2 => some .recip | 3 => some .rsqrt | 4 => some .sigmoid | 5 => some .tanh
  | 6 => some .erf | 7 => some .phi | 8 => some .geluErf | 9 => some .geluTanh | 10 => some .silu | _ => none

/-- A result of a special function: exact, or a sign with enclosures of the magnitude; `below` marks a magnitude that is never a
tie and that saturates to a limit from below, so that a value the enclosures do not part from the limit lies below it. -/
inductive SRes where
  | exact (v : EV)
  | enc (neg : Bool) (f : Nat → Iv) (below : Bool)




/-- The function value at a finite nonzero input (04 R79). -/
def sfnFinite (f : SFn) (n : Int) (d : Nat) (k : Int) : SRes :=
  let neg := n < 0
  let a := n.natAbs
  let mag := fun p => encMag p a d k
  let sgn := fun p => encEV p (.num n d k false)
  match f with
  | .exp2 =>
    if k % 256 = 0 ∧ (if 0 ≤ k then true else a % (d * 2 ^ (-(k / 256)).toNat) == 0) ∧ magLe a d k 65536 1 0 then
      -- an integer exponent: the power is exact
      .exact (.num 1 1 (256 * (let g : Int := gridMag a d k 0; if neg then -g else g)) false)
    else if magLe 65536 1 0 a d k then .enc false (fun p => if neg then ⟨0, 1⟩ else ⟨2 ^ (p + 8192), 2 ^ (p + 16384)⟩) false
    else .enc false (fun p => expIv p (Iv.mul p (sgn p) (ln2 p))) false
  | .log2 =>
    if neg then .exact .nan
    else
      let g := floorLog2Ratio a d
      let pow2 := if 0 ≤ g then a == d * 2 ^ g.toNat else a * 2 ^ (-g).toNat == d
      if pow2 then .exact (.num (256 * g + k) 256 0 false)
      else
        let below := !(magLe 1 1 0 a d k)
        .enc below (fun p => let l := log2Iv p a d k; (if below then l.neg else l).pos) false
  | .recip => .exact (.num (if neg then -(d : Int) else d) a (-k) false)
  | .rsqrt =>
    if neg then .exact .nan
    else .enc false (fun p => sqrtIv p (encMag p d a (-k))) false
  | .sigmoid => .enc false (fun p => (sigmoidIv p (sgn p)).pos) true
  | .tanh => .enc neg (fun p => tanhIv p (mag p)) true
  | .erf => .enc neg (fun p => erfIv p (mag p)) true
  | .phi => .enc false (fun p => phiIv p neg (mag p)) true
  | .geluErf => .enc neg (fun p => Iv.mul p (mag p) (phiIv p neg (mag p))) true
  | .silu => .enc neg (fun p => (Iv.mul p (mag p) (sigmoidIv p (sgn p))).pos) true
  | .geluTanh => .enc neg (below := true) fun p =>
      let x := mag p
      let cube := Iv.mul p (Iv.mul p x x) x
      let inner := x.add ⟨cube.lo * 44715 / 1000000, -((-(cube.hi * 44715)) / 1000000)⟩
      let z := Iv.mul p (sqrtIv p (Iv.div p (Iv.int p 2) (piIv p))) inner
      let t := tanhIv p z
      let h := (if neg then (Iv.int p 1).sub t else (Iv.int p 1).add t).pos
      let y := Iv.mul p x h
      ⟨shrDown y.lo 1, shrUp y.hi 1⟩

/-- The function value with the special inputs of 04 R82: zeros, infinities, NaN and negative arguments. -/
def sfn (f : SFn) : EV → SRes
  | .nan => .exact .nan
  | .inf s =>
    match f with
    | .exp2 => .exact (if s then .zero else .inf false)
    | .log2 => .exact (if s then .nan else .inf false)
    | .recip => .exact (.num 0 1 0 s)
    | .rsqrt => .exact (if s then .nan else .zero)
    | .sigmoid | .phi => .exact (if s then .zero else .one)
    | .tanh | .erf => .exact (.num (if s then -1 else 1) 1 0 false)
    | .geluErf | .geluTanh | .silu => .exact (if s then .num 0 1 0 true else .inf false)
  | .num n d k z =>
    if n = 0 then
      match f with
      | .exp2 => .exact .one
      | .log2 => .exact (.inf true)
      | .recip => .exact (.inf z)
      | .rsqrt => .exact (.inf false)
      | .sigmoid | .phi => .exact (.num 1 2 0 false)
      | .tanh | .erf | .geluErf | .geluTanh | .silu => .exact (.num 0 1 0 z)
    else sfnFinite f n d k

/-- An input outside the function's domain, which faults in exact mode (04 R82). -/
def sfnOutside (f : SFn) (v : EV) : Bool :=
  v.nonfinite || (match f with
    | .log2 | .rsqrt => v.isZero || v.isNeg
    | .recip => v.isZero
    | _ => false)

/-- The precisions at which a rounding is tried. -/
def precisions : List Nat := [320, 640, 1280, 2560, 5120]

/-- Rounds by enclosures: the first precision at which both ends round alike decides; `tie` settles the last. -/
def decideEnc {α : Type} [DecidableEq α] (f : Nat → Iv) (r : Int → Nat → α) (tie : α → α → α) : List Nat → α → α
  | [], last => last
  | p :: ps, _ =>
    let iv := f p
    let a := r iv.lo p
    let b := r iv.hi p
    if a = b then a else decideEnc f r tie ps (tie a b)

/-- Of two neighbouring codes the even one. -/
def evenConv (a b : Conv) : Conv := if a.code % 2 = 0 then a else b

/-- The value of an end of an enclosure with the given sign. -/
def encEnd (neg : Bool) (i : Int) (p : Nat) : EV := .num (if neg then -i else i) (2 ^ p) 0 (neg && i == 0)

/-- A special-function result rounded once into a format, after division by the destination's scale `s` (04 R80, R81). -/
def roundSRes (f : Fmt) (satMode : Bool) (s : EV) (zp : Int) : SRes → Conv
  | .exact v => convertEV f 0 satMode false zp (v.divPos s)
  | .enc neg g below =>
    let conv := fun i p => convertEV f 0 satMode false zp ((encEnd neg i p).divPos s)
    decideEnc g conv (if below then fun a _ => a else evenConv) precisions ⟨f.zeroCode zp, false, false⟩

/-- RNE of an enclosed real times `2 ^ e` to an integer. -/
def roundEncInt (neg : Bool) (g : Nat → Iv) (e : Nat) : Int :=
  let r := fun (i : Int) (p : Nat) => rneDiv ((if neg then -i else i) * 2 ^ e) (2 ^ p)
  decideEnc g r (fun a b => if a % 2 = 0 then a else b) precisions 0

/-- The FP32 magnitude at or below a value, and whether the value is exactly it. -/
def truncFP32 (i : Int) (p : Nat) : Nat × Bool :=
  let c := (toFloat .fp32 false i (2 ^ p) 0 false).code
  match decodeFloat .fp32 c with
  | .num n d k _ =>
    if EV.le (.num n d k false) (.num i (2 ^ p) 0 false) then
      (c, EV.le (.num i (2 ^ p) 0 false) (.num n d k false))
    else (c - 1, false)
  | _ => (Fmt.maxMag .fp32, false)

/-- The magnitudes of the two FP32 values that bracket an enclosed real, equal when it is one (04 R81). -/
def bracketFP32 (g : Nat → Iv) (below : Bool) : Nat × Nat :=
  let tie := fun (a b : Nat × Bool) => if below then a else if a.1 ≤ b.1 then (b.1, true) else (a.1, true)
  let r := decideEnc g truncFP32 tie precisions (0, true)
  (r.1, if r.2 then r.1 else r.1 + 1)

/-- The bracket of a result: its sign, and the magnitudes of the two FP32 values; none for a result that is zero, infinite or
NaN. -/
def SRes.bracket : SRes → Option (Bool × Nat × Nat)
  | .enc neg g below => some (neg, bracketFP32 g below)
  | .exact (.num n d k _) =>
    if n = 0 then none else some (decide (n < 0), bracketFP32 (fun p => encMag p n.natAbs d k) false)
  | .exact _ => none

/-- The FP32 result beyond the outermost seam of a function (04 R86): a constant, or the input itself. -/
def sfnConstant (f : SFn) (v : EV) : Option Nat :=
  let neg := v.isNeg
  let ge := fun (b : Nat) => EV.le (.num b 1 0 false) v.abs
  let self := (roundFP32 v |> fun w => match w with | .num n d k z => (toFloat .fp32 true n d k z).code | _ => 0)
  match f with
  | .sigmoid => if ge 32 then some (if neg then 0 else 0x3F800000) else none
  | .silu => if ge 32 then some (if neg then 0x80000000 else self) else none
  | .tanh => if ge 10 then some (if neg then 0xBF800000 else 0x3F800000) else none
  | .geluTanh => if ge 10 then some (if neg then 0x80000000 else self) else none
  | .erf => if ge 4 then some (if neg then 0xBF800000 else 0x3F800000) else none
  | .phi => if neg then (if ge 15 then some 0 else none) else if ge 6 then some 0x3F800000 else none
  | .geluErf => if neg then (if ge 15 then some 0 else none) else if ge 6 then some self else none
  | _ => none

/-- Which of the two bracketing values an FP32 result is: either by a free choice, the lower or the greater by value, or a given
code. -/
inductive Pick where
  | free
  | low
  | high
  | code (c : Nat)
  deriving DecidableEq, Repr

/-- An FP32 result: one of the two values that bracket it (04 R81), an overflow by OVF (02 R52), or the code that R86 gives. -/
def faithful (satMode : Bool) (choice : Nat) (pick : Pick) (r : SRes) : Conv :=
  match pick, r.bracket, r with
  | .code c, _, _ => ⟨c, false, false⟩
  | _, none, .exact v => convertEV .fp32 0 satMode false 0 v
  | _, none, .enc .. => ⟨0, false, false⟩
  | p, some (neg, a, b), _ =>
    let m := match p with
      | .low => if neg then b else a
      | .high => if neg then a else b
      | _ => if choice % 2 = 0 then a else b
    if m > Fmt.maxMag .fp32 then convertEV .fp32 0 satMode false 0 (.num (if neg then -1 else 1) 1 (256 * 200) false)
    else ⟨(if neg then 2 ^ 31 else 0) + m, false, false⟩

/-- A value times 32 where that is an integer. -/
def times32 : EV → Option Int
  | .num n d k _ =>
    if k % 256 ≠ 0 then none
    else
      let e := k / 256 + 5
      let a : Int := if 0 ≤ e then n * 2 ^ e.toNat else n
      let b : Nat := if 0 ≤ e then d else d * 2 ^ (-e).toNat
      if a % b = 0 then some (a / b) else none
  | _ => none

/-- The seams of a function that is non-decreasing at each of them, times 32 (04 R86, R87). -/
def seamsOf (f : SFn) (i : Int) : Bool :=
  match f with
  | .exp2 => i % 32 != 0
  | .sigmoid => [4, 8, 16, 32, 64, 128, 256, 512, 1024].contains i.natAbs
  | .tanh => [2, 4, 8, 16, 32, 64, 128, 256, 320].contains i.natAbs
  | .erf => [16, 32, 48, 64, 80, 96, 128].contains i.natAbs
  | .phi => [-15, -10, -8, -6, -4, -3, -2, -1, 0, 1, 2, 3, 4, 6].contains (i / 32) && i % 32 == 0
  | _ => false

/-- The seam an input lies at. -/
def seamAt (f : SFn) (v : EV) : Option Int := (times32 v).filter (seamsOf f)

/-- The order number of a function in 04 R79. -/
def SFn.index : SFn → Nat
  | .exp2 => 0 | .log2 => 1 | .recip => 2 | .rsqrt => 3 | .sigmoid => 4 | .tanh => 5 | .erf => 6 | .phi => 7 | .geluErf => 8
  | .geluTanh => 9 | .silu => 10

/-- The choice of an FP32 result at an input with its neighbours in the input's format. Beyond the outermost seam it is the constant
of 04 R86. At a seam and at the last input below it, where both results lie between the same two values, the choice is never one by
which the result below exceeds that at the seam (04 R87): for each seam either the seam takes the greater value always or the last
input below it the lower one, whichever the part does. -/
def sfnPick (f : SFn) (v : EV) (prev next : Option EV) : Pick :=
  if v.isZero || v.nonfinite then .free
  else
    match sfnConstant f v with
    | some c => .code c
    | none =>
      let with_ := fun (o : Option EV) => o.any fun u => (sfn f u).bracket == (sfn f v).bracket
      let seam := fun (o : Option Int) (b : Bool) => o.any fun i => Config.seamHigh f.index i == b
      if seam (seamAt f v) true && with_ prev then .high
      else if seam (next.bind (seamAt f)) false && with_ next then .low
      else .free

/-- The component CDFs of 04 R89. -/
inductive Family where
  | gauss | laplace | logistic
  deriving DecidableEq, Repr

/-- The family of a FAMILY code; 0b11 is rejected (04 R88). -/
def Family.ofCode : Nat → Option Family
  | 0 => some .gauss | 1 => some .laplace | 2 => some .logistic | _ => none

/-- The enclosure of a component CDF at an enclosed argument. -/
def cdfIv (f : Family) (p : Nat) (x : Iv) : Iv :=
  match f with
  | .gauss =>
    let part := fun (y : Int) => if y < 0 then phiIv p true ⟨-y, -y⟩ else phiIv p false ⟨y, y⟩
    ⟨(part x.lo).lo, (part x.hi).hi⟩
  | .laplace =>
    let part := fun (y : Int) =>
      if y < 0 then let e := expPoint p y; (⟨shrDown e.lo 1, shrUp e.hi 1⟩ : Iv)
      else let e := expPoint p (-y); ⟨2 ^ p - shrUp e.hi 1, 2 ^ p - shrDown e.lo 1⟩
    ⟨(part x.lo).lo, (part x.hi).hi⟩
  | .logistic => sigmoidIv p x

/-- The integer CDF33 of a component at the bound `b2 / 2`: `RNE (F ((b / sigma - mu) / rho) * 2 ^ 32)` (04 R89). -/
def cdf33 (f : Family) (sigma mu rho : EV) (b2 : Int) : Int :=
  let arg := fun p =>
    let q := p + 160
    let b := encEV q ((EV.num b2 2 0 false).divPos sigma)
    let t := b.sub (encEV q mu)
    let m : Iv := encEV q rho
    let div := fun (y : Int) (up : Bool) =>
      let d := if (y < 0) == up then m.hi else m.lo
      let n := y * 2 ^ q
      let d := max d 1
      if up then -((-n) / d) else n / d
    (⟨shrDown (div t.lo false) 160, shrUp (div t.hi true) 160⟩ : Iv)
  roundEncInt false (fun p => cdfIv f p (arg p)) 32

end Sys2Proof.Machine
end

