-- ==== Sys2Proof/Machine/Flags.lean ====
section
/-! DEFINITION. What an operation computes beside its data: the output stage (02 R48 to R53, R461), the counts of the statistics
record (03 R71 to R73), squared errors (03 R64) and the multiplier of a dynamic scale (03 R65). -/

namespace Sys2Proof.Machine

/-- The fields of the output stage (02 R48). -/
structure Stage where
  bias : Int
  mult : Nat
  shift : Nat
  zp : Int
  act : Nat
  leak : Nat
  clipLo : Nat
  clipHi : Nat
  sat : Bool
  deriving DecidableEq, Repr

/-- The output stage, packed from bit 0 in the order of its table (log 18). -/
def stageOf (n : Nat) : Stage :=
  { bias := signed 64 n, mult := bits n 64 32, shift := bits n 96 7, zp := signed 8 (bits n 103 8), act := bits n 111 2
    leak := bits n 113 3, clipLo := bits n 116 32, clipHi := bits n 148 32, sat := !bit n 180 }

/-- Bits of the output stage. -/
def stageBits : Nat := 181

/-- The value a clip bound stands for in a destination format. -/
def clipValue (f : Fmt) (code : Nat) : EV := decodeCode f 0 code

/-- Whether an output stage's fields fit a destination (02 R48). -/
def stageFits (n : Nat) (f : Fmt) : Bool :=
  let g := stageOf n
  let lo := clipValue f g.clipLo
  let hi := clipValue f g.clipHi
  n / 2 ^ stageBits == 0 && g.mult != 0 && g.act != 3 && (g.act != 2 || g.leak != 0) &&
    (if f.isInt then f.qmin ≤ g.zp && g.zp ≤ f.qmax else g.zp == 0) &&
    (if f = .xacc then g.clipLo == 0 && g.clipHi == 0
     else g.clipLo / 2 ^ f.width == 0 && g.clipHi / 2 ^ f.width == 0 && EV.le lo hi)

/-- What becomes of one element: its code, and what it counts (03 R71, R72). -/
structure Cell where
  code : Nat
  sat : Nat := 0
  collapse : Nat := 0
  nonfin : Nat := 0
  /-- squared error on the grid, and whether any was computed -/
  sse : Nat := 0
  deriving DecidableEq, Repr

/-- A code as the part writes it: of the two LNS zeros the positive one (02 R39). -/
def writtenCode (f : Fmt) (code : Nat) : Nat := if f.isLns && (decodeLns f code).isZero then f.zeroCode 0 else code

/-- The clamp of a code to the clip bounds by value; a NaN passes (02 R48 step 4). -/
def clipCode (f : Fmt) (g : Stage) (code : Nat) : Nat :=
  match decodeCode f 0 code with
  | .nan => code
  | v =>
    if !EV.le (clipValue f g.clipLo) v then writtenCode f g.clipLo
    else if !EV.le v (clipValue f g.clipHi) then writtenCode f g.clipHi
    else code

/-- A cell clamped to the clip bounds; a bound that is a saturation code is a result equal to one and counts (02 R39). -/
def Cell.clipped (c : Cell) (f : Fmt) (g : Stage) : Cell :=
  let k := clipCode f g c.code
  { c with code := k, sat := c.sat + b01 (saturated f k && !saturated f c.code) }

/-- A code that is copied as a cell: a copied saturation code counts (02 R39). -/
def copiedCell (f : Fmt) (code : Nat) : Cell := { code := code, sat := b01 (saturated f code) }

/-- A conversion as a cell: a nonzero input whose result reads as zero is a collapse (03 R72). -/
def Conv.cell (c : Conv) (f : Fmt) (zp : Int) (nonzero : Bool) (placedSat placedNonfin : Nat) : Cell :=
  { code := c.code, sat := placedSat + b01 c.sat, nonfin := placedNonfin + b01 c.nonfin
    collapse := b01 (nonzero && readsZero f zp c.code) }

/-- Whether an input may collapse: it is neither zero nor a NaN, and XACC never collapses (03 R72; log 52). -/
def EV.mayCollapse (v : EV) (f : Fmt) : Bool := !v.isZero && v != .nan && f != .xacc

/-- The exact path of the output stage (02 R48 to R51): `x` is W + BIAS + C. -/
def stageExact (f : Fmt) (g : Stage) (fx : Nat) (x0 : Int) (sat nonfin : Nat) : Cell :=
  let x := if g.act = 1 ∧ x0 < 0 then 0 else x0
  let extra : Int := if g.act = 2 ∧ x0 < 0 then g.leak else 0
  let t : Int := fx + g.shift + extra
  match f with
  | .xacc =>
    (storeXacc (rneShift (x * g.mult) (g.shift + extra))).cell .xacc 0 false sat nonfin
  | .int8 | .int4 =>
    let v := rneShift (x * g.mult) t + g.zp
    let lo := max f.qmin (signed f.width g.clipLo)
    let hi := min f.qmax (signed f.width g.clipHi)
    { code := unsigned f.width (clampInt v lo hi), sat := sat + b01 (v < f.qmin || v > f.qmax), nonfin := nonfin
      collapse := b01 (x != 0 && clampInt v f.qmin f.qmax == g.zp) }
  | _ =>
    let c := convertEV f 0 g.sat false 0 (.num (x * g.mult) 1 (-256 * t) false)
    (c.cell f 0 (x != 0) sat nonfin).clipped f g

/-- A result without an output stage (02 R461): unchanged into XACC. -/
def noStageExact (x : Int) (sat nonfin : Nat) : Cell := (storeXacc x).cell .xacc 0 false sat nonfin

/-- The FP32 bias and scale of 02 R53. -/
def stageBias32 (g : Stage) (fx : Nat) : EV := roundFP32 (.num g.bias 1 (-256 * fx) false)
def stageScale32 (g : Stage) : EV := roundFP32 (.num g.mult 1 (-256 * g.shift) false)

/-- The FP32 accumulator with the bias, past RELU: what LEAKY and the scale then act on (02 R53). -/
def relu32 (g : Stage) (fx : Nat) (acc : EV) : EV :=
  let a := fpAdd acc (stageBias32 g fx)
  if g.act = 1 ∧ a.isNeg then .zero else a

/-- The FP32 accumulator past bias and activation (02 R53). -/
def activation32 (g : Stage) (fx : Nat) (acc : EV) : EV :=
  let a := relu32 g fx acc
  if g.act = 2 ∧ a.isNeg then fpMul a (.num 1 1 (-256 * g.leak) false) else a

/-- The value the FP32 path converts (02 R53). -/
def scaled32 (g : Stage) (fx : Nat) (acc : EV) : EV := fpMul (activation32 g fx acc) (stageScale32 g)

/-- The FP32 path of the output stage (02 R53). A value that LEAKY or the scale rounds to zero collapses too (03 R72). -/
def stageFP32 (f : Fmt) (g : Stage) (fx : Nat) (acc : EV) : Cell :=
  let c := convertEV f fx g.sat false g.zp (scaled32 g fx acc)
  let d := c.cell f g.zp ((relu32 g fx acc).mayCollapse f) 0 0
  if f = .xacc then d else d.clipped f g

/-- An FP32 value without an output stage (02 R461). -/
def noStageFP32 (f : Fmt) (fx : Nat) (v : EV) : Cell := (convertEV f fx true false 0 v).cell f 0 (v.mayCollapse f) 0 0

/-- Whether an operation may write its destination as it stands (02 R461): an output stage that fits, or, without one, XACC for
the exact path and an unscaled float, LNS or XACC destination for FP32. -/
def stageAllowedFor (fp32 : Bool) (o : Op) (d : Tensor) : Bool :=
  if o.hasStage then stageFits o.stage d.fmt
  else if fp32 then !d.scaled && !d.fmt.isInt
  else d.fmt == .xacc

/-- The same for an operation whose ACC names its path. -/
def stageAllowed (o : Op) (d : Tensor) : Bool := stageAllowedFor o.fp32 o d

/-- The activation of the exact path as a real value (02 R48). -/
def actValue (g : Stage) (f : Nat) (x : Int) : EV :=
  if g.act = 1 ∧ x < 0 then .zero else .num x 1 (-256 * (f + (if g.act = 2 ∧ x < 0 then (g.leak : Int) else 0))) false

/-- The unclamped code the exact stage gives an integer destination. -/
def stageCode (g : Stage) (f : Nat) (x0 : Int) : Int :=
  let x := if g.act = 1 ∧ x0 < 0 then 0 else x0
  rneShift (x * g.mult) (f + g.shift + (if g.act = 2 ∧ x0 < 0 then (g.leak : Int) else 0)) + g.zp

/-- What reaches an output stage: an exact sum on the grid `2 ^ (-f)` with what its placements counted, or an FP32 accumulator with
the F of its header; or real zero, written as it stands (10 R231). -/
inductive Pre where
  | zero
  | exact (f : Nat) (n : Int) (sat nonfin : Nat)
  | fp (f : Nat) (v : EV)
  deriving DecidableEq, Repr

/-- The value past bias and activation. -/
def Pre.real (g : Stage) : Pre → EV
  | .zero => .zero
  | .exact f n _ _ => actValue g f (n + g.bias)
  | .fp f v => activation32 g f v

/-- The value in units of the destination's scale: past MULT and SHIFT too. -/
def Pre.inUnits (g : Stage) : Pre → EV
  | .zero => .zero
  | .exact f n _ _ => (actValue g f (n + g.bias)).mul (.num g.mult 1 (-256 * g.shift) false)
  | .fp f v => scaled32 g f v

/-- The code an element would have without the clamp (03 R75): a non-finite value lies beyond every code, a NaN at the zero point. -/
def codeOf (zp : Int) : EV → Int
  | .num a b e _ => let g : Int := gridMag a.natAbs b e 0; (if a < 0 then -g else g) + zp
  | .inf s => if s then -(2 ^ 160) else 2 ^ 160
  | .nan => zp

/-- The unclamped code of an integer destination. -/
def Pre.code (g : Stage) : Pre → Int
  | .zero => g.zp
  | .exact f n _ _ => stageCode g f (n + g.bias)
  | .fp f v => codeOf g.zp (scaled32 g f v)

/-- The result through the whole output stage, or as it stands (02 R461); `zp` is the zero point of the destination's packet. -/
def Pre.cell (o : Op) (d : Fmt) (g : Stage) (zp : Int) : Pre → Cell
  | .zero => { code := d.zeroCode zp }
  | .exact f n sat nonfin => if o.hasStage then stageExact d g f (n + g.bias) sat nonfin else noStageExact n sat nonfin
  | .fp f v => if o.hasStage then stageFP32 d g f v else noStageFP32 d f v

/-- An operation's OVF (02 R461): SAT without an output stage. -/
def Op.satMode (o : Op) : Bool := if o.hasStage then (stageOf o.stage).sat else true

/-- MULT and SHIFT of an exact positive multiplier `n / d * 2 ^ (k / 256)`, `k` a multiple of 256 (03 R65). -/
def dynScale (m : EV) : Nat × Nat :=
  match m with
  | .num n d k _ =>
    let q := k / 256
    let n' : Nat := if 0 ≤ q then n.natAbs * 2 ^ q.toNat else n.natAbs
    let d' : Nat := if 0 ≤ q then d else d * 2 ^ (-q).toNat
    let sh := 31 - floorLog2Ratio n' d'
    let at_ := fun (s : Int) => (if 0 ≤ s then rneDiv (n' * 2 ^ s.toNat) d' else rneDiv n' (d' * 2 ^ (-s).toNat)).toNat
    let mu := at_ sh
    let (mu, sh) := if mu = 2 ^ 32 then (2 ^ 31, sh - 1) else (mu, sh)
    if sh < 0 then (2 ^ 32 - 1, 0) else if sh > 127 then (max 1 (at_ 127), 127) else (mu, sh.toNat)
  | _ => (1, 0)

/-- The stage with the multiplier of a dynamic scale, `m` the product of the operands' scales, and the zero point of the packet
`p` (03 R65). -/
def stageFor (g : Stage) (m : EV) (p : Nat × Int) : Stage :=
  let r := dynScale (m.divPos (decodeFloat .fp32 p.1))
  { g with mult := r.1, shift := r.2, zp := p.2 }

/-- The greatest value a placed squared error takes (03 R64). -/
def sseCap : Nat := 2 ^ 47 - 1

/-- A squared error on the grid `2 ^ (-fmse)`, rounded to nearest even and saturated (03 R64). -/
def squaredError (fmse : Nat) (x y : EV) : Nat :=
  if y.nonfinite then sseCap
  else
    let g := fun (p : Nat) =>
      let d := (encEV p x).sub (encEV p y)
      let a := if 0 ≤ d.lo then d else if d.hi ≤ 0 then d.neg else ⟨0, max (-d.lo) d.hi⟩
      Iv.mul p a a
    min (roundEncInt false g fmse).toNat sseCap

/-- The real value of a code under a scale as FP32 bits and a zero point. -/
def backValue (f : Fmt) (p : Nat × Int) (code : Nat) : EV := realOf f 0 (decodeFloat .fp32 p.1, p.2) code

/-- A cell with the squared error of its input; a non-finite input adds none (03 R71). -/
def Cell.withError (c : Cell) (fmse : Nat) (f : Fmt) (p : Nat × Int) (v : EV) : Cell :=
  if v.nonfinite then c else { c with sse := squaredError fmse v (backValue f p c.code) }

/-- Counts of an operation (03 R71). -/
structure Tally where
  n : Nat := 0
  sat : Nat := 0
  collapse : Nat := 0
  nonfin : Nat := 0
  sse : Nat := 0
  deriving DecidableEq, Repr

/-- The counts of a list of cells. -/
def tallyOf (l : List Cell) : Tally :=
  { n := l.length, sat := (l.map (·.sat)).sum, collapse := (l.map (·.collapse)).sum, nonfin := (l.map (·.nonfin)).sum
    sse := (l.map (·.sse)).sum }

/-- Bits 1 to 5 of the record's FLAGS, and the candidate. -/
structure StatFlags where
  sseValid : Bool := false
  carried : Bool := false
  exceeded : Bool := false
  rerun : Bool := false
  cand : Nat := 0
  deriving DecidableEq, Repr

/-- The statistics record (03 R71). -/
def statsRecord (a : Tally) (g : StatFlags) (qsat : Bool) (opIndex : Nat) : List Byte :=
  let tooBig := 2 ^ 63 - 1 < a.sse
  let flags := b01 g.sseValid + 2 * b01 tooBig + 4 * b01 g.carried + 8 * b01 g.exceeded + 16 * b01 g.rerun + 32 * b01 qsat
  leBytes 4 a.n ++ leBytes 4 (min a.sat 0xFFFFFFFF) ++ leBytes 4 (min a.collapse 0xFFFFFFFF) ++
    leBytes 4 (min a.nonfin 0xFFFFFFFF) ++ leBytes 8 (min a.sse (2 ^ 63 - 1)) ++ leBytes 2 flags ++ [byte g.cand, 0] ++
    leBytes 2 opIndex ++ zeros 2

end Sys2Proof.Machine
end

