-- ==== Sys2Proof/Machine/Protocol.lean ====
section
/-! DEFINITION. The command protocol (13 R286 to R309): framing, tags, sessions, the order of checks, the reply cache, final
replies, and the commands of sessions, registers and records. -/

namespace Sys2Proof.Machine

/-- What a request is answered. -/
structure Answer where
  status : Status := .ok
  params : List Byte := []
  /-- FIELD and DETAIL of 13 R289 -/
  field : Nat := 0xFFFFFFFF
  detail : Nat := 0
  /-- the final answer of a PENDING request that completes at once -/
  final : Option (Status × List Byte × Nat × Nat) := none
  /-- the session ends once the reply has been sent (SESSION_CLOSE) -/
  close : Bool := false
  deriving DecidableEq, Repr

/-- OK with parameters. -/
def Answer.good (ps : List Byte) : Answer := { params := ps }

/-- A failure naming a field. -/
def Answer.fail (st : Status) (field : Nat := 0xFFFFFFFF) (detail : Nat := 0) : Answer :=
  { status := st, field := field, detail := detail }

/-- PENDING with parameters. -/
def Answer.wait (ps : List Byte := []) : Answer := { status := .pending, params := ps }

/-- The parameters a status carries: an OK or PENDING reply its own, any other FIELD and DETAIL (13 R289). -/
def answerParams (st : Status) (ps : List Byte) (field detail : Nat) : List Byte :=
  if st = .ok ∨ st = .pending then ps else beBytes 4 field ++ beBytes 4 detail

/-- The 32 header bytes (13 R287). -/
def headerBytes (flags session sequence opcode plen status gts : Nat) : List Byte :=
  beBytes 2 0x5A43 ++ [1, byte flags] ++ beBytes 4 session ++ beBytes 4 sequence ++ beBytes 2 opcode ++ beBytes 2 plen ++
    beBytes 2 status ++ zeros 2 ++ beBytes 8 gts ++ zeros 4

/-- The tag of 13 R288. -/
def cmdTag (key body : List Byte) : List Byte := kmac256 key body 16 "ZLK-CMD"

/-- The header bytes of a request as they came. -/
def dgHeader (d : Datagram) (opcode : Nat) : List Byte :=
  beBytes 2 d.magic.toNat ++ beBytes 1 d.version.toNat ++ beBytes 1 d.flags.toNat ++ beBytes 4 d.session.toNat ++
    beBytes 4 d.sequence.toNat ++ beBytes 2 opcode ++ beBytes 2 d.paramLen.toNat ++ beBytes 2 d.status.toNat ++
    beBytes 2 d.reserved1.toNat ++ beBytes 8 d.gts.toNat ++ beBytes 4 d.reserved2.toNat

/-- A reply to a request, tagged (13 R288, R289). `zeroKey`: FLAGS bit 2 and the zero key. -/
def mkReply (d : Datagram) (opcode : Nat) (key : List Byte) (zeroKey : Bool) (st : Status) (ps : List Byte) (gts : Nat) : Reply :=
  let flags := 1 + 2 * b01 (st == .pending) + 4 * b01 zeroKey
  let h := headerBytes flags d.session.toNat d.sequence.toNat opcode ps.length (statusCode st) gts
  { port := d.port, addr := d.srcAddr, udp := d.srcPort, flags := flags, session := d.session.toNat
    sequence := d.sequence.toNat, opcode := opcode, status := st, gts := gts, params := ps, tag := cmdTag key (h ++ ps) }

/-- A discarded datagram, counted (13 R286). -/
def State.cmdDrop (s : State) (port : Nat) : State :=
  s.onDie port fun d => { d with cnt := modifyAt d.cnt 0 (· + 1) }

/-- The framing of 13 R286. -/
def dgFramed (d : Datagram) : Bool :=
  !d.fragment && d.tag.length == 16 && d.params.length == d.paramLen.toNat && d.params.length ≤ 4096 &&
    d.magic == 0x5A43 && d.version == 1 && (bit d.flags.toNat 2 == (d.session == 0)) && d.ahead < 1024

/-- The AUTH_FAIL answer to an unknown session, at most 100 a second a port (13 R293). -/
def State.unknownSession (s : State) (d : Datagram) (opcode : Nat) : State :=
  let e := (s.die d.port).eth
  let fresh := e.authSecond + 10 ^ 9 ≤ s.gts
  let n := if fresh then 0 else e.authCount
  if n < 100 then
    (s.onDie d.port fun x => { x with eth := { x.eth with
      authSecond := if fresh then s.gts else x.eth.authSecond, authCount := n + 1 } }).emit
      (.reply (mkReply d opcode (zeros 32) true .authFail [] s.gts))
  else s

/-- Opcodes the Germ ROM answers in network recovery (13 R308). -/
def recoveryOpcodes : List Nat := [0x0001, 0x0002, 0x0003, 0x0004, 0x0091]

/-- Every opcode of 13 R301. -/
def knownOpcodes : List Nat :=
  [0x01, 0x02, 0x03, 0x04, 0x10, 0x11, 0x12, 0x20, 0x21, 0x22, 0x23, 0x24, 0x25, 0x26, 0x27, 0x30, 0x31, 0x32, 0x33, 0x34,
   0x40, 0x41, 0x50, 0x51, 0x52, 0x53, 0x54, 0x60, 0x61, 0x62, 0x70, 0x71, 0x72, 0x73, 0x74, 0x80, 0x90, 0x91, 0xA0, 0xA1, 0xB0]

/-- An opcode known and allowed in the part's mode (13 R299 check 6, R308; 18 R409). -/
def State.opcodeAllowed (s : State) (opcode : Nat) : Bool :=
  if s.phase = .netRecovery then recoveryOpcodes.contains opcode
  else knownOpcodes.contains opcode && opcode != 0x0091 &&
    (bit (s.die 0).svcMode.toNat 1 || (opcode != 0x0072 && opcode != 0x0074))

/-- Ports on which commands are answered: an up port of a running part that is not quiesced; E0 and E1 in network recovery
(13 R308, 18 R411, 19 R425). -/
def State.answersOn (s : State) (port : Nat) : Bool :=
  port < s.dieCount && (s.die port).eth.up &&
    match s.phase with
    | .running => !s.portQuiesced port
    | .netRecovery => port < 2
    | _ => false

/-- A cached reply after a request was answered. -/
def cacheOf (d : Datagram) (opcode : Nat) (r : Reply) : CacheEntry :=
  { sequence := d.sequence.toNat, tag := d.tag, opcode := opcode, reply := r, pending := r.status == .pending }

/-- A session after it executed a request: H rises, the window moves, the entry enters the cache (13 R295). -/
def Session.remember (x : Session) (e : CacheEntry) : Session :=
  let h := max x.h e.sequence
  { x with h := h, cache := e :: x.cache.filter fun c => c.sequence != e.sequence && h ≤ c.sequence + 63 }

/-- The final reply of a pending request: it replaces the cached entry and leaves once; nothing when the session has ended
(13 R296). -/
def State.finish (s : State) (r : Req) (st : Status) (ps : List Byte) (field : Nat := 0xFFFFFFFF) (detail : Nat := 0) : State :=
  match s.session r.session with
  | some x =>
    match x.cache.find? fun c => c.sequence == r.sequence && c.pending with
    | some c =>
      let ps' := answerParams st ps field detail
      let h := headerBytes 1 c.reply.session c.reply.sequence c.opcode ps'.length (statusCode st) s.gts
      let rep := { c.reply with flags := 1, status := st, gts := s.gts, params := ps', tag := cmdTag x.keyOut (h ++ ps') }
      let x' := { x with cache := x.cache.map fun e =>
        if e.sequence = r.sequence then { e with reply := rep, pending := false } else e }
      (s.setSession x').emit (.reply rep)
    | none => s
  | none => s

/-- The final replies of several requests. -/
def State.finishAll (s : State) (rs : List Req) (st : Status) (ps : List Byte := []) : State :=
  rs.foldl (fun t r => t.finish r st ps) s

/-- Staging areas released with their session (09 R200, 18 R413, 19 R425): a firmware image stays while an activation of it is
pending. -/
def State.releaseStagingOf (s : State) (session : Nat) : State :=
  let keeps := fun (g : Staging) => g.session != session || (match s.activation with
    | some a => a.stageId == g.id
    | none => false)
  let gone := s.staging.filter fun g => !keeps g
  { s with staging := s.staging.filter keeps, qps := s.qps.filter fun q => !(gone.any fun g => g.qpn == q.qpn) }

/-- A session ends: its keys and cache go, and its staging areas with it. -/
def State.endSession (s : State) (n : Nat) : State :=
  ({ s with
    sessions := s.sessions.filter (·.number != n)
    indRegs := s.indRegs.filter fun e => e.1.1 != Master.session n }).releaseStagingOf n

/-- The answer of an executed request: its reply leaves and is cached; a final answer given at once follows it. -/
def State.answer (s : State) (d : Datagram) (opcode : Nat) (a : Answer) : State :=
  match s.session d.session.toNat with
  | some x =>
    let r := mkReply d opcode x.keyOut false a.status (answerParams a.status a.params a.field a.detail) s.gts
    let s1 := (s.setSession (x.remember (cacheOf d opcode r))).emit (.reply r)
    let s2 := match a.final with
      | some (st, ps, f, dt) => s1.finish ⟨d.session.toNat, d.sequence.toNat⟩ st ps f dt
      | none => s1
    if a.close then s2.endSession d.session.toNat else s2
  | none => s

/-- An answer outside the cache: SEQ_CONFLICT, STALE, RESOURCE_BUSY (13 R299 check 5), or BAD_PARAM of check 4. -/
def State.answerOnly (s : State) (d : Datagram) (opcode : Nat) (x : Session) (st : Status) : State :=
  s.emit (.reply (mkReply d opcode x.keyOut false st (answerParams st [] 0xFFFFFFFF 0) s.gts))

/-- What the sequence number decides (13 R295, R297). -/
inductive SeqCase where
  | execute
  | cached (c : CacheEntry)
  | conflict
  | stale
  | busy
  deriving DecidableEq, Repr

/-- The case of a sequence number (13 R295 to R297). -/
def Session.seqCase (x : Session) (seq : Nat) (tag : List Byte) : SeqCase :=
  if x.h < seq then (if x.cache.any fun c => c.pending && c.sequence + 63 < seq then .busy else .execute)
  else if seq + 63 < x.h then .stale
  else
    match x.cache.find? (·.sequence == seq) with
    | some c => if c.tag = tag then .cached c else .conflict
    | none => .execute

/-- A cached reply resent to the source of this copy; a later final reply goes there too (13 R295, R296). -/
def State.resend (s : State) (d : Datagram) (x : Session) (c : CacheEntry) : State :=
  let rep := { c.reply with port := d.port, addr := d.srcAddr, udp := d.srcPort }
  (s.setSession { x with cache := x.cache.map fun e => if e.sequence = c.sequence then { e with reply := rep } else e }).emit
    (.reply rep)

/-- Whether a request's header is clean (13 R287, R299 check 4). -/
def dgClean (d : Datagram) : Bool :=
  d.flags.toNat % 4 == 0 && d.flags.toNat / 8 == 0 && d.status == 0 && d.reserved1 == 0 && d.gts == 0 && d.reserved2 == 0

/-- The request itself, for a later final reply. -/
def dgReq (d : Datagram) : Req := ⟨d.session.toNat, d.sequence.toNat⟩

/-- Checks 4 and 5 of 13 R299 around what follows them: an unclean header is answered BAD_PARAM, and its answer is cached where the window
takes its number (log 32). -/
def State.inSequence (s : State) (d : Datagram) (opcode : Nat) (x : Session) (k : State) : State :=
  if !dgClean d then
    match x.seqCase d.sequence.toNat d.tag with
    | .execute => s.answer d opcode (.fail .badParam)
    | _ => s.answerOnly d opcode x .badParam
  else
    match x.seqCase d.sequence.toNat d.tag with
    | .cached c => s.resend d x c
    | .conflict => s.answerOnly d opcode x .seqConflict
    | .stale => s.answerOnly d opcode x .stale
    | .busy => s.answerOnly d opcode x .resourceBusy
    | .execute => k

/-- The checks of 13 R299 in order around a command's own handler. `priv`: P opcodes. `owner`: the host key that owns the object
the request would change (R294), none when the rule asks for no owner. `target`: the die the request addresses. -/
def State.serve (s : State) (d : Datagram) (opcode : Nat) (priv : Bool) (owner : Option (List Byte)) (target : Option Nat)
    (handler : Session → State → State × Answer) : State :=
  if !s.answersOn d.port then s
  else if !dgFramed d then s.cmdDrop d.port
  else
    match s.session d.session.toNat with
    | none => s.unknownSession d opcode
    | some x =>
      if cmdTag x.keyIn (dgHeader d opcode ++ d.params) ≠ d.tag then s.cmdDrop d.port
      else
        let x := if x.isOpen then { x with lastAt := s.gts } else x
        let s := s.setSession x
        s.inSequence d opcode x
          (if !s.opcodeAllowed opcode then s.answer d opcode (.fail .badOpcode)
          else if !x.isOpen || (priv && !x.privileged) then s.answer d opcode (.fail .notPrivileged)
          else if (match owner with
                   | some k => k != x.hostKey && !x.privileged
                   | none => false) then s.answer d opcode (.fail .notPrivileged)
          else if s.packageRecovering || (match target with
                   | some t => s.dieRecovering t
                   | none => false) then s.answer d opcode (.fail .recovering)
          else
            let (t, a) := handler x s
            t.answer d opcode a)

/-! ### Sessions (13 R290 to R293) -/

/-- Whether a host key is privileged: one of the allow-list in force, or the owner key (19 R429). -/
def State.keyAllowed (s : State) (key : List Byte) : Bool :=
  (List.range (leAt s.allow 3 1)).any (fun i => slice s.allow (12 + 57 * i) 57 == key) ||
    beNat (shake256 key 32) == (Config.ownerDigest 0).toNat

/-- The session number counter: random at power-on, skipping 0 and live sessions (13 R292). -/
def State.freeSession (s : State) : Nat → Nat → Nat
  | 0, n => n
  | k + 1, n => if n = 0 || (s.session n).isSome then s.freeSession k ((n + 1) % 2 ^ 32) else n

def State.newSession (s : State) : Nat × State :=
  let (start, s) := match s.sessionCtr with
    | some n => (n, s)
    | none => let (v, t) := s.draw; (v % 2 ^ 32, t)
  let n := s.freeSession 128 (start % 2 ^ 32)
  (n, { s with sessionCtr := some ((n + 1) % 2 ^ 32) })

/-- HELLO's reply parameters up to SIGNATURE (13 R290). -/
def State.helloReply (s : State) (pub nonce : List Byte) (number : Nat) : List Byte :=
  pub ++ nonce ++ beBytes 4 number ++ deviceKey 0 ++ zeros 3 ++ beBytes 4 s.fwVersion ++ beBytes 1 s.abiMin ++
    beBytes 1 s.abiMax ++ zeros 2

/-- HELLO (13 R290, R292): creates a provisional session and answers with the part's key, nonce and signature. -/
def State.hello (s : State) (d : Datagram) : State :=
  let reply := fun (t : State) (st : Status) (ps : List Byte) => t.emit (.reply (mkReply d 0x0001 (zeros 32) true st ps s.gts))
  let bad := fun (st : Status) (f : Nat) => reply s st (answerParams st [] f 0)
  if !s.answersOn d.port then s
  else if !dgFramed d then s.cmdDrop d.port
  else if d.session != 0 then s.serve d 0x0001 false none none fun _ t => (t, .fail .notPrivileged)
  else if cmdTag (zeros 32) (dgHeader d 0x0001 ++ d.params) ≠ d.tag then s.cmdDrop d.port
  else if !dgClean { d with flags := d.flags &&& 0xFB } then bad .badParam 0xFFFFFFFF
  else if s.packageRecovering then bad .recovering 0xFFFFFFFF
  else if d.params.length ≠ 148 then bad .badParam 0xFFFFFFFF
  else if beAt d.params 113 3 ≠ 0 then bad .badParam 113
  else if (s.sessions.filter fun x => !x.isOpen).length ≥ 16 then bad .noResource 0xFFFFFFFF
  else
    let (priv, s1) := s.drawBytes 56
    let z := x448 priv (d.params.take 56)
    if leNat z = 0 then
      s1.emit (.reply (mkReply d 0x0001 (zeros 32) true .authFail (answerParams .authFail [] 0 0) s.gts))
    else
      let (nonce, s2) := s1.drawBytes 32
      let (n, s3) := s2.newSession
      let body := s3.helloReply (x448 priv x448Base) nonce n
      let t := ascii "ZLK-HELLO" ++ d.params ++ body
      let keys := kmac256 z t 64 "ZLK-KEYS"
      let sess : Session := {
        number := n, isOpen := false, hostKey := slice d.params 56 57, keyIn := keys.take 32, keyOut := keys.drop 32
        transcript := t, lastAt := s.gts }
      reply { s3 with sessions := s3.sessions ++ [sess] } .ok (body ++ ed448Sign (deviceSecret 0) t "ZLK-PART" ++ zeros 2)

/-- SESSION_OPEN on a provisional session (13 R290 to R292, R299): a failed one that keeps the session consumes its number; one that
discards it is answered outside the cache. -/
def State.openSession (s : State) (d : Datagram) (x : Session) : State :=
  let fail := fun (st : Status) (f : Nat) => s.answer d 0x0002 (.fail st f)
  let discard := fun (st : Status) (f : Nat) =>
    ({ s with sessions := s.sessions.filter (·.number != x.number) } : State).emit
      (.reply (mkReply d 0x0002 x.keyOut false st (answerParams st [] f 0) s.gts))
  let opens := (s.sessions.filter (·.isOpen)).length
  let limit := if s.phase = .netRecovery then 4 else 64
  let idle := beAt d.params 2 2
  let wants := beAt d.params 0 1 == 1
  s.inSequence d 0x0002 x
    (if s.packageRecovering then fail .recovering 0xFFFFFFFF
    else if d.params.length ≠ 120 || d.sequence != 0 then fail .badParam 0xFFFFFFFF
    else if beAt d.params 0 1 > 1 then fail .badParam 0
    else if beAt d.params 1 1 ≠ 0 then fail .badParam 1
    else if idle > 3600 then fail .badParam 2
    else if beAt d.params 118 2 ≠ 0 then fail .badParam 118
    else if !ed448Verify x.hostKey x.transcript (slice d.params 4 114) "ZLK-HOST" then discard .authFail 4
    else if wants && !s.keyAllowed x.hostKey then discard .notPrivileged 0
    else if opens ≥ limit then fail .noResource 0xFFFFFFFF
    else
      let r := mkReply d 0x0002 x.keyOut false .ok [byte (b01 wants), 0, 0, 0] s.gts
      let y := { x with
        isOpen := true, privileged := wants, idle := if idle = 0 then 60 else idle, lastAt := s.gts, h := 0
        cache := [cacheOf d 0x0002 r] }
      (s.setSession y).emit (.reply r))

/-- HELLO. -/
def execHello (d : Datagram) (s : State) : Host.Outcome State Fault Refusal := .next (s.hello d)

/-- SESSION_OPEN: on a provisional session it opens or discards it; on any other session the order of checks answers. -/
def execSessionOpen (d : Datagram) (s : State) : Host.Outcome State Fault Refusal :=
  match s.session d.session.toNat with
  | some x =>
    if x.isOpen then .next (s.serve d 0x0002 false none none fun _ t => (t, .fail .notPrivileged))
    else if !s.answersOn d.port then .next s
    else if !dgFramed d || cmdTag x.keyIn (dgHeader d 0x0002 ++ d.params) ≠ d.tag then .next (s.cmdDrop d.port)
    else .next (s.openSession d x)
  | none => .next (s.serve d 0x0002 false none none fun _ t => (t, .fail .notPrivileged))

/-- SESSION_CLOSE (13 R292): the session ends after its OK reply. -/
def execSessionClose (d : Datagram) (s : State) : Host.Outcome State Fault Refusal :=
  .next (s.serve d 0x0003 false none none fun _ t =>
    if d.params ≠ [] then (t, .fail .badParam 0) else (t, { close := true }))

/-- CAPS_QUERY (13 R301). -/
def execCapsQuery (d : Datagram) (s : State) : Host.Outcome State Fault Refusal :=
  .next (s.serve d 0x0004 false none none fun _ t =>
    if d.params ≠ [] then (t, .fail .badParam 0)
    else
      let limit := if t.phase = .netRecovery then 4 else 64
      (t, .good (beBytes 2 t.part.number ++ [byte t.dieCount, 0xA0] ++ beBytes 4 t.fwVersion ++
        [byte t.abiMin, byte t.abiMax, byte (b01 (t.phase == .netRecovery)),
         byte (limit - (t.sessions.filter (·.isOpen)).length)])))

/-- UNKNOWN_OPCODE (13 R301, R299 check 6). -/
def execUnknownOpcode (opcode : BitVec 16) (d : Datagram) (s : State) : Host.Outcome State Fault Refusal :=
  .next (s.serve d opcode.toNat false none none fun _ t => (t, .fail .badOpcode))

/-- PROVISIONAL_SESSION_EXPIRY: 5 s without a SESSION_OPEN (13 R291). -/
def execProvisionalSessionExpiry (session : Nat) (s : State) : Host.Outcome State Fault Refusal :=
  match s.session session with
  | some x =>
    if !x.isOpen && x.lastAt + 5 * 10 ^ 9 ≤ s.gts then
      .next { s with sessions := s.sessions.filter (·.number != session) }
    else .next s
  | none => .next s

/-- SESSION_IDLE_EXPIRY: IDLE seconds without a request; the clock does not run in package recovery (13 R292). -/
def execSessionIdleExpiry (session : Nat) (s : State) : Host.Outcome State Fault Refusal :=
  match s.session session with
  | some x =>
    if x.isOpen && x.lastAt + x.idle * 10 ^ 9 ≤ s.gts && !s.packageRecovering then .next (s.endSession session) else .next s
  | none => .next s

/-! ### Registers and records (13 R307, R308) -/

/-- The offsets a REG command accesses (13 R307). -/
def regOffsets (off count : Nat) (fixed : Bool) : List Nat := (List.range count).map fun i => if fixed then off else off + 4 * i

/-- Reading registers one after another: the values, whether a guarded one was refused, the state. -/
def regReads (m : Master) (d : Nat) : List Nat → State → List Nat × Bool × State
  | [], s => ([], false, s)
  | o :: os, s =>
    let (v, g, s1) := s.regRead m d o
    let (vs, g', s2) := regReads m d os s1
    (v :: vs, g || g', s2)

/-- Writing registers one after another: the index of the first value not applied and why, or the state. -/
def regWrites (m : Master) (d : Nat) : List (Nat × Nat) → Nat → Bool → Option Nat → State → Except (Nat × WriteErr × Bool) (Bool × State)
  | [], _, g, _, s => .ok (g, s)
  | (o, v) :: os, i, g, staged, s =>
    match s.regWrite m d o v staged with
    | .error e => .error (i, e, g)
    | .ok (t, g', stg) => regWrites m d os (i + 1) (g || g') stg t

/-- The checks of a REG command's parameters (13 R307, R302): the first field wrong. -/
def regParamFault (s : State) (p : List Byte) (most : Nat) : Option Nat :=
  let die := beAt p 0 1
  let off := beAt p 1 3
  let count := beAt p 4 2
  let flags := beAt p 6 2
  if s.dieCount ≤ die then some 0
  else if off % 4 ≠ 0 then some 1
  else if count = 0 ∨ most < count then some 4
  else if flags > 1 then some 6
  else if flags = 0 ∧ off + 4 * (count - 1) > 0xFFFFFC then some 1
  else none

/-- REG_READ (13 R307). More than 256 accesses to IND_DATA are answered PENDING, and the values follow. -/
def execRegRead (d : Datagram) (s : State) : Host.Outcome State Fault Refusal :=
  .next (s.serve d 0x0040 false none (some (beAt d.params 0 1)) fun x t =>
    if d.params.length ≠ 8 then (t, .fail .badParam)
    else
      match regParamFault t d.params 1024 with
      | some f => (t, .fail .badParam f)
      | none =>
        let m := Master.session x.number
        let offs := regOffsets (beAt d.params 1 3) (beAt d.params 4 2) (beAt d.params 6 2 == 1)
        let (vs, g, u) := regReads m (beAt d.params 0 1) offs t
        let u := if g then u.violation m else u
        let ps := vs.flatMap (beBytes 4)
        if 256 < (offs.filter (· == 0x030004)).length then
          (u, { status := .pending, final := some (.ok, ps, 0, 0) })
        else (u, .good ps))

/-- REG_WRITE (13 R307, 15 R341): ascending order; a value out of range, a claim or an APPLY that is refused applies nothing. -/
def execRegWrite (d : Datagram) (s : State) : Host.Outcome State Fault Refusal :=
  .next (s.serve d 0x0041 false none (some (beAt d.params 0 1)) fun x t =>
    let count := beAt d.params 4 2
    if d.params.length < 8 then (t, .fail .badParam)
    else
      match regParamFault t d.params 1021 with
      | some f => (t, .fail .badParam f)
      | none =>
        if d.params.length ≠ 8 + 4 * count then (t, .fail .badParam 4)
        else
          let m := Master.session x.number
          let offs := regOffsets (beAt d.params 1 3) count (beAt d.params 6 2 == 1)
          let vals := (List.range count).map fun i => beAt d.params (8 + 4 * i) 4
          match regWrites m (beAt d.params 0 1) (offs.zip vals) 0 false none t with
          | .error (i, .range, g) => (if g then t.violation m else t, .fail .badParam (8 + 4 * i))
          | .error (i, .busy, g) => (if g then t.violation m else t, .fail .resourceBusy (8 + 4 * i))
          | .ok (g, u) =>
            let u := if g then u.violation m else u
            if 256 < (offs.filter (· == 0x030004)).length then (u, { status := .pending, final := some (.ok, [], 0, 0) })
            else (u, .good []))

/-- An event record's bytes in a reply (16 R372). -/
def EventRec.bytes (r : EventRec) : List Byte :=
  beBytes 8 r.gts.toNat ++ beBytes 2 r.src.toNat ++ beBytes 2 r.code.toNat ++ beBytes 4 r.arg.toNat

/-- A queue from which `k` records have been read; when an overflow ends, the first record written tells how many were
discarded (16 R375). -/
def Die.afterRead (x : Die) (k : Nat) (ended : EventRec) : Die :=
  if k = 0 then x
  else
    let rest := x.events.drop k
    if x.discarded = 0 then { x with events := rest }
    else { x with events := ended.insert rest, discarded := 0 }

/-- The records of several dies merged in the order of 16 R374, each with its die. -/
def State.mergedEvents (s : State) (ds : List Nat) : List (Nat × EventRec) :=
  sortBy (fun a b => EventRec.le a.2 b.2) (ds.flatMap fun d => (s.die d).events.map fun r => (d, r))

/-- EVENT_READ (13 R308). -/
def execEventRead (d : Datagram) (s : State) : Host.Outcome State Fault Refusal :=
  let die := beAt d.params 0 1
  .next (s.serve d 0x0050 false none (if die = 0xFF then none else some die) fun _ t =>
    let most := beAt d.params 1 1
    if d.params.length ≠ 4 then (t, .fail .badParam)
    else if die ≠ 0xFF ∧ t.dieCount ≤ die then (t, .fail .badParam 0)
    else if most = 0 then (t, .fail .badParam 1)
    else if beAt d.params 2 2 ≠ 0 then (t, .fail .badParam 2)
    else
      let ds := if die = 0xFF then List.range t.dieCount else [die]
      let recs := t.mergedEvents ds
      let out := recs.take most
      let ended := fun (i : Nat) => t.mkEvent i 0x1000 0x0102 (min (t.die i).discarded 0xFFFFFFFF)
      let taken := fun (i : Nat) => (out.filter fun r => r.1 == i).length
      let u := { t with dies := t.dies.zipIdx.map fun p => Die.afterRead p.1 (taken p.2) (ended p.2) }
      let more := ds.any fun i => !(u.die i).events.isEmpty
      (u, .good ([byte out.length, byte (b01 more), 0, 0] ++ out.flatMap fun r => r.2.bytes)))

/-- STICKY_CLEAR (16 R378). -/
def execStickyClear (d : Datagram) (s : State) : Host.Outcome State Fault Refusal :=
  let die := beAt d.params 0 1
  .next (s.serve d 0x0051 true none (some die) fun _ t =>
    if d.params.length ≠ 12 then (t, .fail .badParam)
    else if t.dieCount ≤ die then (t, .fail .badParam 0)
    else if beAt d.params 1 3 ≠ 0 then (t, .fail .badParam 1)
    else (t.onDie die fun e => e.unstick (BitVec.ofNat 64 (beAt d.params 4 8)), .good []))

/-- COUNTER_READ (13 R301, 15 R365): counters named by their _LO offsets, in one snapshot; a counter not listed reads 0. -/
def execCounterRead (d : Datagram) (s : State) : Host.Outcome State Fault Refusal :=
  let die := beAt d.params 0 1
  .next (s.serve d 0x0052 false none (some die) fun _ t =>
    let off := beAt d.params 1 3
    let count := beAt d.params 4 2
    if d.params.length ≠ 8 then (t, .fail .badParam)
    else if t.dieCount ≤ die then (t, .fail .badParam 0)
    else if off < 0x220000 ∨ (off - 0x220000) % 8 ≠ 0 ∨ 0x230000 ≤ off then (t, .fail .badParam 1)
    else if count = 0 ∨ 512 < count ∨ 0x230000 < off + 8 * count then (t, .fail .badParam 4)
    else if beAt d.params 6 2 ≠ 0 then (t, .fail .badParam 6)
    else
      let i := (off - 0x220000) / 8
      (t, .good ((List.range count).flatMap fun k => beBytes 8 ((t.die die).cnt.getD (i + k) 0).toNat)))

end Sys2Proof.Machine
end

