-- ==== Sys2Proof/Machine/Partner.lean ====
section
/-! DEFINITION. Partner ports and the Zalek Stream Link (14 R323 to R333; 16 R369): flits, credits and retry, training, requests of
partners, the routing table, twin mode's roles and the alignment of GTS. -/

namespace Sys2Proof.Machine

/-- The partner port of a die replaced by `f` of it. -/
def State.onPlk (s : State) (p : Nat) (f : Plk → Plk) : State := s.onDie p fun d => { d with plk := f d.plk }

/-- Something arrives on a partner link: an absent port is none; without the link up nothing happens. -/
def onLink (s : State) (p : Nat) (k : State) : Host.Outcome State Fault Refusal :=
  if s.dieCount ≤ p then .fault .absentElement
  else if s.phase = .running ∧ (s.die p).plk.up then .next k
  else .next s

/-! ### Flits -/

/-- DATA flits a packet occupies: a 16-byte header and its data, 250 payload bytes a flit (14 R324, R327). -/
def flitsOf (data : Nat) : Nat := ceilDiv (16 + data) 250

/-- The lowest VC that has both a flit waiting and a credit (14 R326). -/
def Plk.nextVc (l : Plk) : Option Nat :=
  (List.range 4).find? fun v => 0 < l.credits.getD v 0 && l.txWait.any (·.vc == v)

/-- Flits sent while a VC has flit and credit and fewer than 1,024 are unacknowledged (14 R325, R326). -/
def Plk.pump : Nat → Plk → List TxFlit → Plk × List TxFlit
  | 0, l, sent => (l, sent)
  | k + 1, l, sent =>
    if 1024 ≤ l.txBuf.length then (l, sent)
    else
      match l.nextVc with
      | none => (l, sent)
      | some v =>
        match l.txWait.find? (·.vc == v) with
        | none => (l, sent)
        | some f =>
          let g := { f with number := l.txNext }
          let before := l.txWait.takeWhile (·.vc != v)
          let after := (l.txWait.dropWhile (·.vc != v)).drop 1
          Plk.pump k { l with
            txWait := before ++ after, txBuf := l.txBuf ++ [g], txNext := (l.txNext + 1) % 4096
            credits := modifyAt l.credits v (· - 1) } (sent ++ [g])

/-- What a sent flit shows outside: its number, and with its last flit the packet. -/
def flitOut (port : Nat) (f : TxFlit) : List Out :=
  .flit port "DATA" f.number :: (if f.eop then [.packet f.packet f.type] else [])

/-- Sending what can be sent on a port. -/
def State.pumpPort (s : State) (port : Nat) : State :=
  let l := (s.die port).plk
  let (m, sent) := Plk.pump l.txWait.length l []
  (s.onPlk port fun _ => m).emits (sent.flatMap (flitOut port))

/-- A packet handed to a partner port (14 R327). -/
def State.sendPacket (s : State) (p : PartnerPacket) (type : Nat) : State :=
  let n := flitsOf p.data.length
  let flits := (List.range n).map fun i =>
    ({ number := 0, vc := p.vc, packet := p, type := type, eop := i + 1 == n } : TxFlit)
  (s.onPlk p.port fun l => { l with txWait := l.txWait ++ flits }).pumpPort p.port

/-- A link message (TYPE MSG, on the class-0 VC; 14 R327). -/
def State.sendMsg (s : State) (port kind : Nat) (data : List Byte) : State :=
  s.sendPacket { port := port, vc := 0, tag := 0, length := data.length, status := .ok, addr := kind, data := data } 6

/-- The DATA flits of an arrived packet are counted: numbers, slots freed, and a lane switch under way (14 R325, R326, R329). -/
def Plk.took (l : Plk) (data vc : Nat) : Plk :=
  let n := flitsOf data
  let l1 := { l with rxNext := (l.rxNext + n) % 4096, freed := modifyAt l.freed vc (· + n) }
  match l1.laneSwitch with
  | some (lane, left) =>
    if left ≤ n then
      { l1 with
        laneSwitch := none, spareInUse := true
        laneMap := BitVec.ofNat 32 (l1.laneMap.toNat - bits l1.laneMap.toNat (4 * lane) 4 * 2 ^ (4 * lane) + 8 * 2 ^ (4 * lane)) }
    else { l1 with laneSwitch := some (lane, left - n) }
  | none => l1

/-- A packet arrives on a link that discards nothing; its flits are counted before `k`. -/
def onPacket (s : State) (p : PartnerPacket) (k : State → State) : Host.Outcome State Fault Refusal :=
  onLink s p.port
    (if (s.die p.port).plk.discarding then s else k (s.onPlk p.port fun l => l.took p.data.length (p.vc % 4)))

/-- A link message of one DATA flit arrives. -/
def onMsg (s : State) (port : Nat) (k : State → State) : Host.Outcome State Fault Refusal :=
  onPacket s { port := port, vc := 0, tag := 0, length := 8, status := .ok, addr := 0, data := zeros 8 } k

/-- A RETRY_REQ sent naming a flit (14 R325, 15 R365). -/
def State.sendRetry (s : State) (port number : Nat) : State :=
  ((s.onDie port fun d => { d with
    plk := { d.plk with discarding := true, retryOpen := some (number, s.gts) }
    cnt := modifyAt d.cnt 7 (· + 1) })).emit (.flit port "RETRY_REQ" number)

/-- A flit that fails its CRC or has FTYPE 3 (14 R324). -/
def flitBad (f : List Byte) : Bool :=
  f.length != 256 || crc24 (f.take 253) != leAt f 253 3 || bits (leAt f 0 3) 22 2 == 3

/-- BAD_FLIT: discarded, a RETRY_REQ naming the number expected, and DATA flits discarded until a RETRY_MARK (14 R325). -/
def execBadFlit (port : Nat) (flit : List Byte) (s : State) : Host.Outcome State Fault Refusal :=
  onLink s port (if flitBad flit then s.sendRetry port (s.die port).plk.rxNext else s)

/-- The link of a port retrains: its credits return to 512 (14 R326, R328; 15 R365). -/
def State.retrain (s : State) (port : Nat) : State :=
  (s.countRetrain port 1).onDie port fun d => { d with
    plk := { d.plk with training := true, credits := List.replicate 4 512, crdSeen := List.replicate 4 0, retrySeen := none }
    cnt := modifyAt d.cnt 8 (· + 1) }

/-- RETRY_REQ: RETRY_MARK, then the flits from the named one; the eighth in a row for one flit retrains the link (14 R325). -/
def execRetryReq (port number : Nat) (s : State) : Host.Outcome State Fault Refusal :=
  onLink s port
    (let l := (s.die port).plk
     let seen := match l.retrySeen with
       | some (n, k) => if n = number then k + 1 else 1
       | none => 1
     if 8 ≤ seen then s.retrain port
     else
       let again := l.txBuf.dropWhile (·.number != number)
       (s.onPlk port fun x => { x with retrySeen := some (number, seen) }).emits
         (.flit port "RETRY_MARK" number :: again.flatMap (flitOut port)))

/-- RETRY_MARK: the receiver's discarding ends (14 R325). -/
def execRetryMark (port : Nat) (s : State) : Host.Outcome State Fault Refusal :=
  onLink s port (s.onPlk port fun l => { l with discarding := false, retryOpen := none })

/-- RETRY_REQ_RESEND: no RETRY_MARK within 2 µs (14 R325). -/
def execRetryReqResend (port : Nat) (s : State) : Host.Outcome State Fault Refusal :=
  onLink s port
    (match (s.die port).plk.retryOpen with
     | some (n, t) => if t + 2000 ≤ s.gts then s.sendRetry port n else s
     | none => s)

/-- LANE_MAP: the spare lane takes an active lane's place at the 64th DATA flit after it (14 R329). -/
def execLaneMap (port lane : Nat) (s : State) : Host.Outcome State Fault Refusal :=
  if 8 ≤ lane then .fault .absentElement
  else onLink s port
    (if (s.die port).plk.spareInUse then s else s.onPlk port fun l => { l with laneSwitch := some (lane, 64) })

/-- IDLE_FLIT: ACK frees the retry buffer up to the flit it names, CRD returns credits in units of 8, and what waited is sent
(14 R324 to R326). -/
def execIdleFlit (port ack crdVc crd : Nat) (s : State) : Host.Outcome State Fault Refusal :=
  if 4 ≤ crdVc then .fault .absentElement
  else onLink s port
    (let freed := fun (l : Plk) => if l.txBuf.any (·.number == ack) then (l.txBuf.dropWhile (·.number != ack)).drop 1 else l.txBuf
     (s.onPlk port fun l => { l with
       txBuf := freed l
       credits := modifyAt l.credits crdVc (· + 8 * ((crd + 16 - l.crdSeen.getD crdVc 0) % 16))
       crdSeen := modifyAt l.crdSeen crdVc fun _ => crd % 16 }).pumpPort port)

/-! ### Partners' requests (14 R327, R330; 06 R125) -/

/-- Why a partner's request is refused, none when it is served. -/
def State.partnerRefusal (s : State) (p : PartnerPacket) : Option Status :=
  if (s.die p.port).plk.twin || !(s.routing.any fun r => r.2.1 == p.port) then some .badAddress
  else
    match locate s.dieCount p.addr with
    | .lpddr d _ =>
      if s.dieRecovering d then some .fenced
      else if s.accessOk ⟨p.addr, p.length⟩ then none else some .badAddress
    | _ => some .badAddress

/-- The packet that answers a request. -/
def packetAnswer (p : PartnerPacket) (st : Status) (data : List Byte) : PartnerPacket :=
  { p with status := st, length := data.length, data := data }

/-- RD_REQ: answered with the data, or refused with ERR. -/
def execRdReq (p : PartnerPacket) (s : State) : Host.Outcome State Fault Refusal :=
  onPacket s p fun t =>
    if p.length = 0 ∨ 4096 < p.length then t.sendPacket (packetAnswer p .badParam []) 5
    else
      match t.partnerRefusal p with
      | some st => t.sendPacket (packetAnswer p st []) 5
      | none => t.sendPacket (packetAnswer p .ok (t.bytesAt p.addr p.length)) 2

/-- WR: applied and acknowledged, or refused with ERR. -/
def execWr (p : PartnerPacket) (s : State) : Host.Outcome State Fault Refusal :=
  onPacket s p fun t =>
    if p.data = [] ∨ 4096 < p.data.length then t.sendPacket (packetAnswer p .badParam []) 5
    else
      match t.partnerRefusal { p with length := p.data.length } with
      | some st => t.sendPacket (packetAnswer p st []) 5
      | none => (t.put p.addr p.data).sendPacket (packetAnswer p .ok []) 4

/-! ### Training (14 R328) -/

/-- Tracking of GTS stops with the port it runs over: LOST and sticky GTS_ALIGN_LOST on every die (16 R369, R377). -/
def State.alignLost (s : State) (port : Nat) : State :=
  let s1 := if s.align.aligned && s.align.port == port && !s.align.lost then
      { s with align := { s.align with lost := true }, dies := s.dies.map (·.stick .gtsAlignLost) }
    else s
  match s1.align.req with
  | some r =>
    if s1.align.port = port then
      ({ s1 with align := { s1.align with req := none, exchanges := [] } } : State).finish r .timeout []
    else s1
  | none => s1

/-- A partner port goes down (14 R328; 16 R373, R377); the ARG of 0x0802 is given nowhere, so it is free. -/
def State.plkDown (s : State) (port : Nat) : State :=
  let s1 := s.onDie port fun d => { d.stick .plkDown with plk := { d.plk with
    up := false, training := false, identOk := false, lanes := 0, retrainFails := 0, txBuf := [], txWait := []
    discarding := false, retryOpen := none, retrySeen := none, laneSwitch := none } }
  let (arg, s2) := s1.draw
  (s2.event port 0x0221 0x0802 (arg % 2 ^ 32)).alignLost port

/-- Training of a port against a peer begins with a fresh nonce. -/
def State.startTraining (s : State) (port : Nat) (peer : BitVec 256) : State :=
  let (n, s1) := s.draw
  s1.onPlk port fun l => { l with training := true, identOk := false, configured := some peer, nonce := BitVec.ofNat 256 n }

/-- Whether a port is up against a peer already. -/
def State.upAgainst (s : State) (port : Nat) (peer : BitVec 256) : Bool :=
  (s.die port).plk.up && (s.die port).plk.identOk && (s.die port).plk.peer == peer

/-- PARTNER_CONFIG completes when every named port has a result: the table switches, or BAD_PARAM names the wrong peer
(14 R330). -/
def State.settlePartners (s : State) : State :=
  match s.partnerPending with
  | none => s
  | some p =>
    let res := fun (port : Nat) => (p.results.find? (·.1 == port)).map (·.2)
    if p.table.all fun e => (res e.2.1).isSome then
      let s1 := { s with partnerPending := none }
      match p.table.zipIdx.find? fun e => res e.1.2.1 == some 3 with
      | some e => s1.finish p.req .badParam [] (4 + 36 * e.2 + 4) 1
      | none => ({ s1 with routing := p.table } : State).finish p.req .ok []
    else s

/-- A port's result: 1 up, 2 failed, 3 another peer's identity. -/
def State.portResult (s : State) (port result : Nat) : State :=
  ({ s with partnerPending := s.partnerPending.map fun (p : PartnerPending) =>
    if p.table.any (·.2.1 == port) then { p with results := (port, result) :: p.results } else p } : State).settlePartners

/-- Twin mode begins once both links are up and the roles are complementary (14 R333). -/
def State.settleTwin (s : State) : State :=
  match s.twin.pendingReq with
  | some r =>
    if s.twin.roleOk && (s.die 0).plk.up && (s.die 1).plk.up then
      let s1 := { s with
        twin := { s.twin with on := true, pendingReq := none }
        dies := s.dies.zipIdx.map fun (p : Die × Nat) =>
          if p.2 < 2 then { p.1 with plk := { p.1.plk with twin := true } } else p.1 }
      s1.finish r .ok []
    else s
  | none => s

/-- IDENT: the peer's digest must be the configured PEER and its signature over both nonces must verify (14 R328). -/
def execIdent (port : Nat) (key digest nonce signature : List Byte) (s : State) : Host.Outcome State Fault Refusal :=
  if s.dieCount ≤ port then .fault .absentElement
  else
    let l := (s.die port).plk
    if s.phase ≠ .running ∨ !l.training ∨ l.identOk then .next s
    else
      match l.configured with
      | none => .next s
      | some peer =>
        let own := beBytes 32 l.nonce.toNat
        let good := shake256 key 32 == digest && beNat digest == peer.toNat &&
          ed448Verify key (Config.identMessage nonce own) signature Config.identContext
        let mine := shake256 (deviceKey 0) 32 ++ own ++
          ed448Sign (deviceSecret 0) (Config.identMessage own nonce) Config.identContext
        let s1 := s.emit (.packet { port := port, vc := 0, tag := 0, length := mine.length, status := .ok, addr := 1, data := mine } 6)
        if good then .next (s1.onPlk port fun x => { x with identOk := true, peer := peer })
        else
          let s2 := (s1.onPlk port fun x => { x with training := false }).portResult port 3
          .next (match s2.twin.pendingReq with
            | some r =>
              if port < 2 then ({ s2 with twin := { s2.twin with pendingReq := none } } : State).finish r .badParam [] 4 0 else s2
            | none => s2)

/-- A trained link comes up: a link that was down starts its numbers anew (14 R325, R326). -/
def Plk.comeUp (l : Plk) : Plk :=
  let lanes := if bits l.laneMap.toNat 28 4 = 15 then 4 else 8
  if l.up then { l with training := false, retrainFails := 0, lanes := lanes }
  else { l with
    up := true, training := false, retrainFails := 0, lanes := lanes, txNext := 0, rxNext := 0, txBuf := [], txWait := []
    discarding := false, retryOpen := none, retrySeen := none, credits := List.replicate 4 512
    crdSeen := List.replicate 4 0, freed := List.replicate 4 0 }

/-- LINK_TRAINED (14 R328): the link comes up, or fails; the third failed retrain takes the port down. -/
def execLinkTrained (port : Nat) (ok : Bool) (s : State) : Host.Outcome State Fault Refusal :=
  if s.dieCount ≤ port then .fault .absentElement
  else
    let l := (s.die port).plk
    if s.phase ≠ .running ∨ !l.training then .next s
    else if ok then
      if !l.identOk then .next s
      else
        let s1 := (s.onPlk port Plk.comeUp).portResult port 1
        let s2 := if s1.twin.pendingReq.isSome && port < 2 then s1.sendMsg port 3 ([byte s1.twin.role] ++ zeros 7) else s1
        .next s2.settleTwin
    else if l.up then
      if 2 ≤ l.retrainFails then .next (s.plkDown port)
      else .next ((s.retrain port).onPlk port fun x => { x with retrainFails := x.retrainFails + 1 })
    else .next ((s.onPlk port fun x => { x with training := false }).portResult port 2)

/-! ### The routing table and twin mode (14 R330 to R333) -/

/-- The table a PARTNER_CONFIG asks for. -/
def partnerTable (ps : List Byte) : List (Nat × Nat × BitVec 256) :=
  (List.range (beAt ps 0 1)).map fun i =>
    let o := 4 + 36 * i
    (beAt ps o 1, beAt ps (o + 1) 1, BitVec.ofNat 256 (beAt ps (o + 4) 32))

/-- Whether a value of a list stands earlier in it. -/
def repeats (l : List Nat) : Bool := (dedup l).length != l.length

/-- The first field of PARTNER_CONFIG's parameters that is wrong (14 R330, R302). -/
def partnerFault (s : State) (ps : List Byte) : Option Nat :=
  let n := beAt ps 0 1
  let t := partnerTable ps
  if 8 < n then some 0
  else if ps.length ≠ 4 + 36 * n then some 0
  else if beAt ps 1 3 ≠ 0 then some 1
  else
    t.zipIdx.findSome? fun e =>
      let o := 4 + 36 * e.2
      if 7 < e.1.1 ∨ ((t.take e.2).any fun x => x.1 == e.1.1) then some o
      else if s.dieCount ≤ e.1.2.1 ∨ ((t.take e.2).any fun x => x.2.1 == e.1.2.1) then some (o + 1)
      else if beAt ps (o + 2) 2 ≠ 0 then some (o + 2)
      else none

/-- PARTNER_CONFIG (14 R330). -/
def execPartnerConfig (d : Datagram) (s : State) : Host.Outcome State Fault Refusal :=
  .next (s.serve d 0x00A0 true none none fun _ t =>
    match partnerFault t d.params with
    | some f => (t, .fail .badParam f)
    | none =>
      let table := partnerTable d.params
      if t.partnerPending.isSome || t.twin.pendingReq.isSome || (t.twin.on && table.any (·.2.1 < 2)) then
        (t, .fail .resourceBusy)
      else
        match table.zipIdx.find? fun e => (t.die e.1.2.1).plk.up && !(t.upAgainst e.1.2.1 e.1.2.2) with
        | some e => (t, .fail .badParam (4 + 36 * e.2 + 4) 1)
        | none =>
          let (up, todo) := table.partition fun e => t.upAgainst e.2.1 e.2.2
          if todo = [] then ({ t with routing := table }, { status := .pending, final := some (.ok, [], 0, 0) })
          else
            let t1 := { t with partnerPending := some {
              req := dgReq d, table := table, results := up.map fun e => (e.2.1, 1) } }
            (todo.foldl (fun u e => u.startTraining e.2.1 e.2.2) t1, .wait))

/-- Whether an archive stream is open (14 R333). -/
def State.archiveOpen (s : State) : Bool := s.streams.any fun st => st.params.archive != 0 && st.state != .stopped

/-- TWIN_CONFIG with ENABLE 1 or 0 (14 R333). -/
def State.twinConfig (s : State) (d : Datagram) : State × Answer :=
  let en := beAt d.params 0 1
  let role := beAt d.params 1 1
  let peer := BitVec.ofNat 256 (beAt d.params 4 32)
  if s.part ≠ .zlk208 then (s, .fail .badParam)
  else if d.params.length ≠ 36 then (s, .fail .badParam)
  else if 1 < en then (s, .fail .badParam 0)
  else if 1 < role then (s, .fail .badParam 1)
  else if beAt d.params 2 2 ≠ 0 then (s, .fail .badParam 2)
  else if s.partnerPending.isSome || s.twin.pendingReq.isSome then (s, .fail .resourceBusy)
  else if en = 0 then
    if s.archiveOpen then (s, .fail .resourceBusy)
    else
      ({ s with
        twin := {}
        dies := s.dies.map fun (x : Die) => { x with plk := { x.plk with twin := false } } }, .good [])
  else if s.twin.on then (s, .fail .resourceBusy)
  else if (List.range 2).any fun p => (s.die p).plk.up && !(s.upAgainst p peer) then (s, .fail .badParam 4)
  else
    let s1 := { s with twin := { on := false, role := role, peer := peer, pendingReq := some (dgReq d), since := s.gts } }
    let todo := (List.range 2).filter fun p => !(s.upAgainst p peer)
    let s2 := todo.foldl (fun u p => u.startTraining p peer) s1
    let ready := (List.range 2).filter fun p => s.upAgainst p peer
    (ready.foldl (fun u p => u.sendMsg p 3 ([byte role] ++ zeros 7)) s2, .wait)

/-- TWIN_CONFIG with ENABLE 1. -/
def execTwinConfigEnable (d : Datagram) (s : State) : Host.Outcome State Fault Refusal :=
  .next (s.serve d 0x00A1 true none none fun _ t => t.twinConfig d)

/-- TWIN_CONFIG with ENABLE 0. -/
def execTwinConfigDisable (d : Datagram) (s : State) : Host.Outcome State Fault Refusal :=
  .next (s.serve d 0x00A1 true none none fun _ t => t.twinConfig d)

/-- TWIN: the peer names its role; the first copy counts, equal roles are BAD_PARAM (14 R332, R333). -/
def execTwin (port role : Nat) (s : State) : Host.Outcome State Fault Refusal :=
  onMsg s port fun t =>
    match t.twin.pendingReq with
    | some r =>
      if 2 ≤ port ∨ t.twin.roleOk then t
      else if role = t.twin.role then
        ({ t with twin := { t.twin with pendingReq := none } } : State).finish r .badParam [] 1 0
      else ({ t with twin := { t.twin with roleOk := true } } : State).settleTwin
    | none => t

/-- TWIN_ENABLE_TIMEOUT: the peer has not enabled within 10 s (14 R333). -/
def execTwinEnableTimeout (s : State) : Host.Outcome State Fault Refusal :=
  match s.twin.pendingReq with
  | some r =>
    if s.phase = .running ∧ s.twin.since + 10 * 10 ^ 9 ≤ s.gts then
      .next (({ s with twin := { s.twin with pendingReq := none } } : State).finish r .timeout [])
    else .next s
  | none => .next s

/-! ### TIME_SYNC (16 R368, R369) -/

/-- The reference part: the port and the partner number (16 R369). -/
def State.reference (s : State) : Option (Nat × Nat) :=
  if s.twin.on && s.twin.role == 1 then some (if (s.die 0).plk.up then 0 else 1, 0)
  else (s.routing.find? (·.1 == 0)).map fun r => (r.2.1, 0)

/-- TIME_SYNC's reply parameters. -/
def State.syncParams (s : State) : List Byte := beBytes 8 s.gts ++ beBytes 8 s.gtsPps

/-- TIME_SYNC READ and ALIGN. -/
def State.timeSync (s : State) (d : Datagram) : State × Answer :=
  let op := beAt d.params 0 1
  if d.params.length ≠ 4 then (s, .fail .badParam)
  else if 1 < op then (s, .fail .badParam 0)
  else if beAt d.params 1 3 ≠ 0 then (s, .fail .badParam 1)
  else if op = 0 then (s, .good s.syncParams)
  else
    match s.reference with
    | none => (s, .fail .badParam)
    | some (port, partner) =>
      if s.align.req.isSome then (s, .fail .resourceBusy)
      else if !(s.die port).plk.up then (s, { status := .pending, params := s.syncParams, final := some (.timeout, [], 0xFFFFFFFF, 0) })
      else
        ({ s with align := { s.align with
            req := some (dgReq d), port := port, partner := partner, exchanges := [], reference := partner } }.sendMsg port 2 (zeros 8),
          .wait s.syncParams)

/-- TIME_SYNC READ. -/
def execTimeSyncRead (d : Datagram) (s : State) : Host.Outcome State Fault Refusal :=
  .next (s.serve d 0x00B0 (beAt d.params 0 1 == 1) none none fun _ t => t.timeSync d)

/-- TIME_SYNC ALIGN. -/
def execTimeSyncAlign (d : Datagram) (s : State) : Host.Outcome State Fault Refusal :=
  .next (s.serve d 0x00B0 (beAt d.params 0 1 == 1) none none fun _ t => t.timeSync d)

/-- The round trip of an exchange, and its offset (16 R369 step 2). -/
def alignTrip (x : AlignStamps) : Int := ((x.t4 : Int) - x.t1) - ((x.t3 : Int) - x.t2)
def alignOffset (x : AlignStamps) : Int := (((x.t2 : Int) - x.t1) - ((x.t4 : Int) - x.t3)) / 2

/-- The exchange with the smallest round trip, the first of equals. -/
def bestExchange (x : AlignStamps) (l : List AlignStamps) : AlignStamps :=
  l.foldl (fun b e => if alignTrip e < alignTrip b then e else b) x

/-- The offset as GTS_ALIGN reports it: signed ns, saturating (16 R368). -/
def offsetField (o : Int) : BitVec 16 := BitVec.ofInt 16 (clampInt o (-32768) 32767)

/-- GTS moved by an offset: behind, every die steps forward at one tick; ahead, it is slewed (16 R369 step 3). -/
def State.applyOffset (s : State) (o : Int) : State :=
  if 0 ≤ o then { s with gts := (s.gts + o.toNat) % 2 ^ 64, slew := 0 } else { s with slew := o }

/-- ALIGN: an exchange completes; the sixteenth ends TIME_SYNC ALIGN. A message of a peer that aligns to this part is answered. -/
def execAlign (port : Nat) (x : AlignStamps) (s : State) : Host.Outcome State Fault Refusal :=
  onMsg s port fun t =>
    match t.align.req with
    | some r =>
      if t.align.port ≠ port then t.sendMsg port 2 (zeros 8)
      else
        let l := t.align.exchanges ++ [x]
        if l.length < 16 then ({ t with align := { t.align with exchanges := l } } : State).sendMsg port 2 (zeros 8)
        else
          let o := alignOffset (bestExchange (l.headD x) l)
          let t1 := ({ t with align := { t.align with
            req := none, exchanges := [], aligned := true, lost := false, offset := offsetField o, trackAt := t.gts } }
              : State).applyOffset o
          t1.finish r .ok t1.syncParams
    | none => t.sendMsg port 2 (zeros 8)

/-- TIME_SYNC_TRACK: every 1 ms an aligned part repeats the exchange and slews (16 R369 step 4). -/
def execTimeSyncTrack (x : AlignStamps) (s : State) : Host.Outcome State Fault Refusal :=
  if s.phase = .running ∧ s.align.aligned ∧ !s.align.lost ∧ s.align.trackAt + 1000000 ≤ s.gts ∧ (s.die s.align.port).plk.up then
    .next { s with slew := alignOffset x, align := { s.align with offset := offsetField (alignOffset x), trackAt := s.gts } }
  else .next s

end Sys2Proof.Machine
end

