-- ==== Sys2Proof/Machine/Rows.lean ====
section
/-! DEFINITION. The rows of the operation list (05 R98) with their own fields, packed in the order of their tables (log 18). Where a
chapter gives an operation no field table, the fields are the model's (log 18). -/

namespace Sys2Proof.Machine

/-- MATMUL: A, B or none, D; WEIGHT_REF 64 (05 R463). -/
def rowMatmul : OpRow := ⟨0x01, some .tensor, [.read, .maybe, .written], 64⟩
/-- Convolutions: X, D; the window fields, WEIGHT_REF 64 (05 R103). -/
def rowConv : OpRow := ⟨0x02, some .tensor, [.read, .written], weightBit + 64⟩
def rowDwconv : OpRow := ⟨0x03, some .vector, [.read, .written], weightBit + 64⟩
def rowGconv : OpRow := ⟨0x04, some .vector, [.read, .written], weightBit + 64⟩
/-- 2 to 64 partials, D. -/
def rowSplitk : OpRow := ⟨0x05, some .vector, [.many 2 64, .written], 0⟩
/-- A, B or none, D; FUNC 4 (05 R111). -/
def rowEltwise : OpRow := ⟨0x08, some .vector, [.read, .maybe, .written], 4⟩
/-- X, D; FUNC 4, AXES 4 (05 R112). -/
def rowReduce : OpRow := ⟨0x09, some .vector, [.read, .written], 8⟩
def rowPoolMax : OpRow := ⟨0x0A, some .vector, [.read, .written], windowBits⟩
def rowPoolAvg : OpRow := ⟨0x0B, some .vector, [.read, .written], windowBits⟩
/-- Block size 8 (05 R109). -/
def rowS2d : OpRow := ⟨0x0C, some .agen, [.read, .written], 8⟩
def rowD2s : OpRow := ⟨0x0D, some .agen, [.read, .written], 8⟩
def rowUpsample : OpRow := ⟨0x0E, some .agen, [.read, .written], 8⟩
def rowCopy : OpRow := ⟨0x0F, some .vector, [.read, .written], 0⟩
/-- AXES 2 (05 R110). -/
def rowTranspose : OpRow := ⟨0x10, some .agen, [.read, .written], 2⟩
def rowConcat : OpRow := ⟨0x11, some .agen, [.many 2 8, .written], 0⟩
/-- FUNC 8 (04 R79). -/
def rowSfu : OpRow := ⟨0x18, some .sfu, [.read, .written], 8⟩
/-- FUNC 8, ORDER 1 (04 R85). -/
def rowGate : OpRow := ⟨0x19, some .sfu, [.read, .written], 9⟩
/-- X, D, statistics range; FORM 1, AXES 2, APPLY 1, zero 4, EPS 32, GAMMA 64, BETA 64 (05 R113). -/
def rowNorm : OpRow := ⟨0x1A, some .sfu, [.read, .written, .range], 168⟩
/-- X, D, statistics range; AXES 8 (04 R83). -/
def rowSoftmax : OpRow := ⟨0x1B, some .sfu, [.read, .written, .range], 8⟩
/-- X, T; NCAND 8, zero 24, four candidates of 32 (03 R64, R462). -/
def rowQscan : OpRow := ⟨0x20, some .vector, [.read, .target], 160⟩
def rowQconv : OpRow := ⟨0x21, some .vector, [.read, .written], 0⟩
def rowRequant : OpRow := ⟨0x22, some .vector, [.read, .written], 0⟩
/-- SEED 64, STREAM 32, WORKER 16, STEP 32, INDEX0 64, DIST 8 (06 R145). -/
def rowRng : OpRow := ⟨0x23, some .vector, [.written], 216⟩
/-- Latents, mean, scale, payload; the fields of 07 R161. -/
def rowEnc : OpRow := ⟨0x28, some .lane, [.read, .read, .read, .range], 672⟩
/-- Payload, mean, scale, latents. -/
def rowDec : OpRow := ⟨0x29, some .lane, [.range, .read, .read, .written], 672⟩
/-- Input, output; DEPTH 16, zero 16, RESULT 64, STATE_AREA 64, TOKEN_IN 64, TOKEN_OUT 64, WINDOW 128 (07 R169 to R178). -/
def rowLzPack : OpRow := ⟨0x2C, some .match_, [.range, .range], 416⟩
def rowLzUnpack : OpRow := ⟨0x2D, some .match_, [.range, .range], 416⟩
/-- Current pyramid, reference pyramids, motion field; X0 16, Y0 16, LMV 32, MASK 8, zero 24, CW of each slot 16 (10 R228). -/
def rowMsearch : OpRow := ⟨0x30, some .motion, [.read, .read, .range], 224⟩
/-- Features, motion field, D; S 8, zero 8, CW 16, OX 16, OY 16 (10 R231). -/
def rowWarp : OpRow := ⟨0x31, some .vector, [.read, .range, .written], 64⟩
def rowLoad : OpRow := ⟨0x38, some .agen, [.read, .written], 0⟩
def rowStore : OpRow := ⟨0x39, some .agen, [.read, .written], 0⟩
/-- Source; DST 64 (06 R136). -/
def rowPrefetch : OpRow := ⟨0x3A, some .agen, [.read], 64⟩
def rowAtomicAdd : OpRow := ⟨0x3B, some .fabric, [.read, .written], 0⟩
/-- SCOPE 3 (06 R130). -/
def rowFence : OpRow := ⟨0x40, none, [], 3⟩
/-- COUNTER 16, PARTICIPANTS 8 (06 R132). -/
def rowBarrier : OpRow := ⟨0x41, none, [], 24⟩
/-- ADDR 64, TARGET 64, TIMEOUT 32 (06 R134). -/
def rowWait : OpRow := ⟨0x42, none, [], 160⟩
/-- ADDR 64, VALUE 64, SCOPE 3 (06 R133). -/
def rowSignal : OpRow := ⟨0x43, none, [], 131⟩
/-- NIN 8, zero 56, eight ranges of 128, zero 64 (17 R392). -/
def rowCheckpoint : OpRow := ⟨0x44, none, [], 1152⟩

/-- The operation list without CDFGEN, which only firmware runs (05 R98, R99). -/
def opRows : List OpRow :=
  [rowMatmul, rowConv, rowDwconv, rowGconv, rowSplitk, rowEltwise, rowReduce, rowPoolMax, rowPoolAvg, rowS2d, rowD2s,
   rowUpsample, rowCopy, rowTranspose, rowConcat, rowSfu, rowGate, rowNorm, rowSoftmax, rowQscan, rowQconv, rowRequant,
   rowRng, rowEnc, rowDec, rowLzPack, rowLzUnpack, rowMsearch, rowWarp, rowLoad, rowStore, rowPrefetch, rowAtomicAdd,
   rowFence, rowBarrier, rowWait, rowSignal, rowCheckpoint]

/-- The row of an opcode. -/
def rowOf (code : Nat) : Option OpRow := opRows.find? (·.code == code)

/-- A byte range packed in the own fields at bit `lo` (07 R161). -/
def ownRange (th : ThreadId) (own lo : Nat) : Except Status Span := parseRange th (leBytes 16 (bits own lo 128))

/-- The scratchpad of a thread's own unit, as locations. -/
def ownScratch (th : ThreadId) : Span := ⟨scratchBase th.die th.unit, 0x80000⟩

/-- Whether every byte of a span lies in a thread's own scratchpad. -/
def inOwnScratch (th : ThreadId) (sp : Span) : Bool :=
  scratchBase th.die th.unit ≤ sp.base && sp.base + sp.len ≤ scratchBase th.die th.unit + 0x80000

/-- The spans an operation's own fields and ranges name beside its tensors: read and written. -/
def ownSpans (th : ThreadId) (r : OpRow) (o : Op) : List Span :=
  let range := fun lo => match ownRange th o.own lo with | .ok sp => [sp] | .error _ => []
  let at_ := fun lo len => if bits o.own lo 64 = 0 then [] else [(⟨canonAddr th (bits o.own lo 64), len⟩ : Span)]
  o.ranges ++ (if r.code = 0x1A then at_ 40 (2 * (o.t 0).c) ++ at_ 104 (2 * (o.t 0).c) else []) ++
    (if r.code = 0x28 || r.code = 0x29 then range 64 ++ at_ 224 16 else []) ++
    (if r.code = 0x42 || r.code = 0x43 then at_ 0 8 else []) ++
    (if r.code = 0x2C then at_ 32 32 ++ at_ 96 0x880000 ++ at_ 160 40 ++ at_ 224 40 else []) ++
    (if r.code = 0x2D then at_ 32 32 ++ at_ 160 40 ++ at_ 224 40 ++ range 288 else []) ++
    (if r.code = 0x44 then (List.range (min 8 (bits o.own 0 8))).flatMap fun i => range (64 + 128 * i) else []) ++
    (if r.code = 0x3A then ((o.t 0).spans.map fun sp => ⟨sp.base - (o.t 0).base + canonAddr th (bits o.own 0 64), sp.len⟩) else [])

/-- Every byte named by the descriptors of an operation, as locations (06 R137). -/
def namedSpans (th : ThreadId) (r : OpRow) (o : Op) : List Span :=
  (o.tensors.flatMap fun t => match t with
    | some x => x.spans ++ (if x.scaled then [⟨x.scale, 8 * x.blocks + 8⟩] else [])
    | none => []) ++ ownSpans th r o ++
    (if o.hasStats then ⟨o.stats, 32⟩ :: (if o.sse = 0 then [] else [⟨o.sse, 8 * ((o.tensors.getLastD none).getD Tensor.absent).blocks⟩])
     else [])

end Sys2Proof.Machine
end

