-- ==== Sys2Proof/Machine/Sections.lean ====
section
/-! DEFINITION. What a profile image holds (09 R194 to R197; 08 R180; 04 R88 to R90): its sections, table sets, networks,
weights and the table generator CDFGEN. -/

namespace Sys2Proof.Machine

/-- A section of an image: its tag, its index, where its content begins and how long it is (09 R195). -/
structure Section where
  tag : Nat
  index : Nat
  off : Nat
  len : Nat
  deriving DecidableEq, Repr

/-- The sections from an offset on, at most `k`; frame and content together are padded to 16 bytes (log 16). -/
def sectionsFrom (img : List Byte) : Nat → Nat → List Section
  | 0, _ => []
  | k + 1, p =>
    if img.length < p + 8 then []
    else ⟨leAt img p 2, leAt img (p + 2) 2, p + 8, leAt img (p + 4) 4⟩ ::
      sectionsFrom img k (p + roundUp (8 + leAt img (p + 4) 4) 16)

/-- Every section of an image. -/
def imageSections (img : List Byte) : List Section := sectionsFrom img (leAt img 4 4) 64

/-- A section by tag and index. -/
def findSection (img : List Byte) (tag index : Nat) : Option Section :=
  (imageSections img).find? fun s => s.tag == tag && s.index == index

/-- The content of a section. -/
def Section.content (s : Section) (img : List Byte) : List Byte := slice img s.off s.len

/-- The content of a section by tag and index, empty where there is none. -/
def sectionBytes (img : List Byte) (tag index : Nat) : List Byte :=
  match findSection img tag index with
  | some s => s.content img
  | none => []

/-- The digest of an image (09 R198). -/
def profileDigest (img : List Byte) : List Byte := shake256 (img.take 32 ++ img.drop 64) 32

/-- The ABI version of an image. -/
def profileAbi (img : List Byte) : Nat := leAt img 3 1

/-- The NAME of an image. -/
def profileName (img : List Byte) : List Byte := slice img 16 16

/-! ### GEOMETRY and LOOP -/

/-- GEOMETRY (09 R195). -/
structure Geometry where
  media : Nat
  stride : Nat
  fmt : Nat
  tiles : Nat
  deriving DecidableEq, Repr

def imageGeometry (img : List Byte) : Geometry :=
  let c := sectionBytes img 1 0
  ⟨leAt c 0 1, leAt c 1 1, leAt c 2 1, leAt c 3 2⟩

/-- Whether a profile offers a tile size (09 R195: bit i for 256 + 128 i). -/
def Geometry.hasTile (g : Geometry) (size : Nat) : Bool :=
  256 ≤ size && size % 128 == 0 && size ≤ 2048 && bit g.tiles ((size - 256) / 128)

/-- The loop geometry (08 R180). -/
structure LoopGeo where
  latent : Nat
  groups : List Nat
  cb : List Bool
  hyper : Nat
  hyperSet : Nat
  latentSet : Nat
  hyperScale : List Nat
  /-- bits the fields take -/
  used : Nat
  deriving DecidableEq, Repr

/-- LOOP, packed from bit 0; arrays hold an entry for each group or channel there is (log 17). -/
def imageLoop (img : List Byte) : LoopGeo :=
  let n := leNat (sectionBytes img 2 0)
  let g := bits n 10 5
  let p := 15 + 10 * g
  let q := p + g
  let h := bits n q 10
  { latent := bits n 0 10
    groups := (List.range g).map fun i => bits n (15 + 10 * i) 10
    cb := (List.range g).map fun i => bit n (p + i)
    hyper := h, hyperSet := bits n (q + 10) 2, latentSet := bits n (q + 12) 2
    hyperScale := (List.range h).map fun i => bits n (q + 14 + 16 * i) 16
    used := q + 14 + 16 * h }

/-- The steps of a tile (08 R181): channel, channel count, PARITY and table set, the hyper step first. -/
def LoopGeo.steps (l : LoopGeo) : List (Nat × Nat × Nat × Nat) :=
  let starts := (List.range l.groups.length).map fun i => ((l.groups.take i).sum, l.groups.getD i 0, l.cb.getD i false)
  (if 0 < l.hyper then [(0, l.hyper, 0, l.hyperSet)] else []) ++
    starts.flatMap fun g =>
      if g.2.2 then [(g.1, g.2.1, 1, l.latentSet), (g.1, g.2.1, 2, l.latentSet)] else [(g.1, g.2.1, 0, l.latentSet)]

/-! ### Table sets and CDFGEN -/

/-- A table set's fields (04 R88). -/
structure TableSet where
  family : Nat
  ncomp : Nat
  n : Nat
  off : Nat
  res : Nat
  shift : Nat
  base : Int
  scales : List Nat
  u : List Nat
  mu : List Nat
  rho : List Nat
  deriving DecidableEq, Repr

/-- Bits of a TABLESET section. -/
def tableSetBits : Nat := 2 + 2 + 11 + 10 + 13 + 4 + 16 + 64 * 16 + 3 * 17 + 3 * 32 + 3 * 32

/-- A TABLESET section's fields. -/
def tableSetOf (c : List Byte) : TableSet :=
  let n := leNat c
  { family := bits n 0 2, ncomp := bits n 2 2, n := bits n 4 11, off := bits n 15 10, res := bits n 25 13
    shift := bits n 38 4, base := signed 16 (bits n 42 16)
    scales := (List.range 64).map fun i => bits n (58 + 16 * i) 16
    u := (List.range 3).map fun i => bits n (1082 + 17 * i) 17
    mu := (List.range 3).map fun i => bits n (1133 + 32 * i) 32
    rho := (List.range 3).map fun i => bits n (1229 + 32 * i) 32 }

/-- The table sets of an image, in order. -/
def imageTableSets (img : List Byte) : List TableSet :=
  (imageSections img).filterMap fun s => if s.tag = 3 then some (tableSetOf (s.content img)) else none

/-- The table CDF at the bound `b2 / 2` (04 R89). -/
def TableSet.cdf (t : TableSet) (j : Nat) (b2 : Int) : Int :=
  let fam := (Family.ofCode t.family).getD .gauss
  let sigma := decodeLns .lns16 (t.scales.getD j 0)
  rneShift ((List.range t.ncomp).map fun c =>
    (t.u.getD c 0 : Int) * cdf33 fam sigma (decodeFloat .fp32 (t.mu.getD c 0)) (decodeFloat .fp32 (t.rho.getD c 0)) b2).sum 16

/-- Index of the greatest element, the lowest of equals. -/
def argMax (l : List Nat) : Nat := l.findIdx fun x => x == l.foldl max 0

/-- Table `j` of a set (04 R90). -/
def TableSet.build (t : TableSet) (j : Nat) : Table :=
  let span : Int := 65536 - t.res
  let bounds := (List.range (t.n + 1)).map fun (i : Nat) => t.cdf j (2 * ((i : Int) - t.off) - 1)
  let share := fun (x : Int) => (max 1 (rneShift (x * span) 32)).toNat
  let body := (bounds.zip (bounds.drop 1)).map fun p => share (p.2 - p.1)
  let esc := share (bounds.headD 0 + (2 ^ 32 - bounds.getLastD 0))
  let freq := body ++ [esc]
  { off := t.off, freq := modifyAt freq (argMax freq) fun f => f + (65536 - freq.sum) }

/-- The 64 tables of a set (04 R92). -/
def TableSet.tables (t : TableSet) : List Table := (List.range 64).map t.build

/-- The bin of a scale-plane code (04 R93). -/
def TableSet.bin (t : TableSet) (code : Nat) : Nat :=
  (clampInt (lnsLog .lns16 code / 2 ^ t.shift - t.base) 0 63).toNat

/-! ### Networks -/

/-- A list template: where it lies in the image, its length and its relocations, offset and buffer identifier (09 R195). -/
structure Template where
  off : Nat
  len : Nat
  relocs : List (Nat × Nat)
  deriving DecidableEq, Repr

/-- `k` templates from an offset; each is followed by a 32-bit count and its relocation entries (log 17). -/
def templatesFrom (img : List Byte) : Nat → Nat → List Template
  | 0, _ => []
  | k + 1, p =>
    let len := leAt img (p + 4) 4
    let n := leAt img (p + len) 4
    ⟨p, len, (List.range n).map fun i => (leAt img (p + len + 4 + 16 * i) 4, leAt img (p + len + 8 + 16 * i) 4)⟩ ::
      templatesFrom img k (p + len + 4 + 16 * n)

/-- A network: its number, ROLE, DOMAIN and lists (09 R193, R195). -/
structure Network where
  net : Nat
  role : Nat
  domain : Nat
  lists : List Template
  deriving DecidableEq, Repr

def imageNetworks (img : List Byte) : List Network :=
  (imageSections img).filterMap fun s =>
    if s.tag = 0x10 then
      some ⟨s.index, leAt img s.off 1, leAt img (s.off + 1) 1, templatesFrom img (leAt img (s.off + 2) 2) (s.off + 4)⟩
    else none

/-! ### Weights -/

/-- A WEIGHT section (09 R196): the places of its codes, packets and outlier rows in the image. -/
structure Weight where
  id : Nat
  fmt : Fmt
  gran : Nat
  block : Nat
  cout : Nat
  kh : Nat
  kw : Nat
  cin : Nat
  placement : Nat
  adaptable : Bool
  outlierRows : Bool
  codesOff : Nat
  packetsOff : Nat
  packets : Nat
  rowsOff : Nat
  rowsLen : Nat
  deriving DecidableEq, Repr

/-- Bytes of `n` codes of a format. -/
def codeBytes (f : Fmt) (n : Nat) : Nat := ceilDiv (n * f.width) 8

/-- Data blocks of a weight: one, one per output channel, or blocks along K of each output channel (03 R60; log 17). -/
def weightBlocks (gran block cout k : Nat) : Nat :=
  match gran with
  | 0 => 1
  | 1 => cout
  | _ => cout * ceilDiv k block

/-- The weight a WEIGHT section holds; none when its FORMAT names none. -/
def weightOf (img : List Byte) (s : Section) : Option Weight :=
  match Fmt.ofCode (leAt img s.off 1) with
  | none => none
  | some f =>
    let g := leAt img (s.off + 1) 1
    let cout := leAt img (s.off + 2) 2
    let k := leAt img (s.off + 4) 1 * leAt img (s.off + 5) 1 * leAt img (s.off + 6) 2
    let flags := leAt img (s.off + 9) 1
    let nb := weightBlocks (g % 4) (32 * 2 ^ (g / 4 % 4)) cout k
    let codes := codeBytes f (cout * k)
    let rest := s.len - (14 + codes)
    let has := f.isInt || (!f.neverScaled && 8 * nb ≤ rest && (rest == 8 * nb || bit flags 1))
    let pk := if has then nb else 0
    some {
      id := s.index, fmt := f, gran := g % 4, block := 32 * 2 ^ (g / 4 % 4), cout := cout
      kh := leAt img (s.off + 4) 1, kw := leAt img (s.off + 5) 1, cin := leAt img (s.off + 6) 2
      placement := leAt img (s.off + 8) 1, adaptable := bit flags 0, outlierRows := bit flags 1
      codesOff := s.off + 14, packetsOff := s.off + 14 + codes, packets := pk
      rowsOff := s.off + 14 + codes + 8 * pk, rowsLen := rest - 8 * pk }

/-- Every weight of an image. -/
def imageWeights (img : List Byte) : List Weight :=
  (imageSections img).filterMap fun s => if s.tag = 0x20 then weightOf img s else none

/-- A weight by its number. -/
def imageWeight (img : List Byte) (id : Nat) : Option Weight := (findSection img 0x20 id).bind (weightOf img)

/-- Columns of a weight. -/
def Weight.k (w : Weight) : Nat := w.kh * w.kw * w.cin

/-- Bytes a weight takes in a pool of its placement: codes, packets and rows. -/
def Weight.bytes (w : Weight) : Nat := codeBytes w.fmt (w.cout * w.k) + 8 * w.packets + w.rowsLen

/-- The code of element `i` of codes packed from `off` (02 R37: a byte's low nibble first). -/
def packedCode (f : Fmt) (bs : List Byte) (off i : Nat) : Nat :=
  if f = .int4 then bits (leAt bs (off + i / 2) 1) (4 * (i % 2)) 4 else leAt bs (off + i * (f.width / 8)) (f.width / 8)

/-- The scale and the zero point of block `b` of a weight: 1 and 0 where it carries no packets. -/
def Weight.scale (w : Weight) (img : List Byte) (b : Nat) : EV × Int :=
  if w.packets = 0 then (.num 1 1 0 false, 0)
  else (decodeFloat .fp32 (leAt img (w.packetsOff + 8 * b) 4), signed 8 (leAt img (w.packetsOff + 8 * b + 4) 1))

/-! ### ADAPT and QUANT -/

/-- The adaptable layers: WEIGHT_ID and MAX_RANK (09 R210). -/
def imageAdapt (img : List Byte) : List (Nat × Nat) :=
  let c := sectionBytes img 5 0
  (List.range (leAt c 0 1)).map fun i => (leAt c (1 + 3 * i) 2, leAt c (3 + 3 * i) 1)

/-- A carried-scale operation of QUANT (03 R74 to R76). -/
structure CarryCfg where
  net : Nat
  list : Nat
  op : Nat
  scale : Nat
  zp : Int
  fact : Nat
  rerun : Bool
  deriving DecidableEq, Repr

/-- An outlier operation of QUANT: its mask bits, group by group (03 R68). -/
structure OutlierCfg where
  net : Nat
  list : Nat
  op : Nat
  masks : List Nat
  deriving DecidableEq, Repr

/-- QUANT: carried-scale entries of 13 bytes, then outlier entries. The section gives no counts: an outlier entry is one whose
operation has FLAGS bit 3, with one mask for each 256 channels of its first operand (log 17). -/
structure Quant where
  carried : List CarryCfg
  outliers : List OutlierCfg
  /-- whether the entries end exactly at the section's end -/
  whole : Bool
  deriving DecidableEq, Repr

/-- Where the `i`-th descriptor of a template lies in the image, from `p` with `k` to go. -/
def descrOff (img : List Byte) : Nat → Nat → Nat
  | 0, p => p
  | k + 1, p => descrOff img k (p + 16 * leAt img (p + 1) 1)

/-- The descriptor a QUANT entry names: its offset in the image. -/
def quantOp (img : List Byte) (net list op : Nat) : Option Nat :=
  match (imageNetworks img).find? (·.net == net) with
  | none => none
  | some n =>
    match n.lists[list]? with
    | none => none
    | some t => if op < leAt img (t.off + 2) 2 then some (descrOff img op (t.off + 32)) else none

/-- Outlier entries from `p` to the end of the content; none when they do not fit. -/
def outliersFrom (img c : List Byte) : Nat → Nat → Option (List OutlierCfg)
  | 0, _ => none
  | k + 1, p =>
    if p = c.length then some []
    else if c.length < p + 6 then none
    else
      let net := leAt c p 2
      let list := leAt c (p + 2) 2
      let op := leAt c (p + 4) 2
      match quantOp img net list op with
      | none => none
      | some o =>
        let groups := ceilDiv (leAt img (o + 32 + 20) 2) 256
        if !bit (leAt img (o + 4) 2) 3 || groups = 0 || c.length < p + 6 + 32 * groups then none
        else
          let e : OutlierCfg := ⟨net, list, op, (List.range groups).map fun g => leAt c (p + 6 + 32 * g) 32⟩
          (outliersFrom img c k (p + 6 + 32 * groups)).map (e :: ·)

/-- The carried-scale entry at `p`. -/
def carryAt (c : List Byte) (p : Nat) : CarryCfg :=
  ⟨leAt c p 2, leAt c (p + 2) 2, leAt c (p + 4) 2, leAt c (p + 6) 4, signed 8 (leAt c (p + 10) 1), leAt c (p + 11) 1,
   leAt c (p + 12) 1 == 1⟩

/-- The least count of carried entries, from `n` with `k` to try, after which outlier entries fill the rest. -/
def splitQuant (img c : List Byte) : Nat → Nat → Option (Nat × List OutlierCfg)
  | 0, _ => none
  | k + 1, n =>
    if c.length < 13 * n then none
    else
      match outliersFrom img c (c.length + 1) (13 * n) with
      | some l => some (n, l)
      | none => splitQuant img c k (n + 1)

def imageQuant (img : List Byte) : Quant :=
  let c := sectionBytes img 4 0
  match splitQuant img c (c.length / 13 + 1) 0 with
  | some (n, l) => ⟨(List.range n).map fun i => carryAt c (13 * i), l, true⟩
  | none => ⟨(List.range (c.length / 13)).map fun i => carryAt c (13 * i), [], false⟩

end Sys2Proof.Machine
end

