-- ==== Sys2Proof/Machine/Lists.lean ====
section
/-! DEFINITION. Threads and their lists (06 R116 to R120, R136, R137; 05 R97, R100; 02 R57; 17 R387, R396): framing, the decision
whether an operation issues, issuing it, accesses to partners, prefetches, and the end of a list. -/

namespace Sys2Proof.Machine

/-- What an operation does when it runs. -/
structure Eff where
  /-- bytes written -/
  runs : List (Nat × List Byte) := []
  stop : Option Stop := none
  /-- event records of the thread's unit -/
  events : List (Nat × Nat) := []
  /-- free values used -/
  draws : Nat := 0
  side : Option (Nat × List Nat) := none
  /-- the scale stream it wrote -/
  stream : Option Nat := none
  carry : Option Carry := none
  /-- what it adds to the stream's tile -/
  tile : TileWork → TileWork := id
  /-- what lanes save at its inner chunk boundaries (07 R148, R467) -/
  saves : List LaneSave := []

/-- An operation ready to run: the bytes it reads and writes, whether its form may vary (02 R56), and its effect. -/
structure Work where
  reads : List Span
  writes : List Span
  vary : Bool := false
  run : State → Eff

/-- What an operation is made of: the state it issues in, its thread, its list and its descriptor. -/
structure Ctx where
  s : State
  th : Thread
  cur : CurList
  op : Op
  /-- the table bank it is bound to (07 R164) -/
  bank : Nat := 0

/-- What an operation's own rules say of it. -/
abbrev OpFn := Ctx → Except Status Work

/-! ### Finding the thread's surroundings -/

/-- Whether an entry of the instruction stores is a list's in the store of a thread's cluster. -/
def Fetched.holds (f : Fetched) (t : ThreadId) (list : Nat) : Bool :=
  f.die == t.die && f.cluster == unitCluster t.unit && f.list == list

/-- A byte of a list as its thread's cluster holds it: the store's once fetched, memory's before (06 R117; log 84). -/
def State.codeByte (s : State) (t : ThreadId) (list a : Nat) : Byte :=
  match s.istore.find? (·.holds t list) with
  | some f => Memory.read f.cells a
  | none => s.byteAt a

/-- The OPCODE and the bytes of the operation at an address of a list. -/
def State.opCodeAt (s : State) (t : ThreadId) (list a : Nat) : Nat := (s.codeByte t list a).toNat
def State.opBytesAt (s : State) (t : ThreadId) (list a : Nat) : List Byte :=
  (List.range (16 * (s.codeByte t list (a + 1)).toNat)).map fun i => s.codeByte t list (a + i)

/-- Where the next operation of a list lies. -/
def CurList.here (c : CurList) : Nat := c.addr + c.offset

/-- The OPCODE and the bytes of the operation a list stands at. -/
def State.opCode (s : State) (t : ThreadId) (c : CurList) : Nat := s.opCodeAt t c.addr c.here
def State.opBytes (s : State) (t : ThreadId) (c : CurList) : List Byte := s.opBytesAt t c.addr c.here

/-- The profile slot a thread's stream or job is bound to. -/
def State.threadSlot (s : State) (th : Thread) : Option Nat :=
  if th.isJob then (s.job th.binding).bind (·.slot) else (s.stream th.binding).map (·.slot)

/-- The image of a profile slot. -/
def State.slotImage (s : State) (slot : Nat) : Option (List Byte) := (s.profiles.getD slot none).map (·.image)

/-- Whether a domain under recovery answers a thread's access to a location with FENCED: it holds the location, or a die whose fabric
the access crosses, and not the thread itself (01 R19, R25; 17 R387). -/
def State.fencedBy (s : State) (t : Option ThreadId) (l : Loc) (x : Domain) : Bool :=
  (domainHolds x l || (t.any fun u => (s.crossed u.die l).any fun d => x == .die d)) && !(t.any (domainHas x))

/-- Whether an access meets a fence. -/
def State.fencedAt (s : State) (t : Option ThreadId) (l : Loc) : Bool := s.recoveries.any fun r => s.fencedBy t l r.dom

/-- Whether a location lies in a quiesced region that does not hold the thread itself (01 R25; 18 R411). -/
def State.shutAt (s : State) (t : ThreadId) (l : Loc) : Bool :=
  match l with
  | .scratch d u _ => !(t.die == d && unitRegion t.unit == unitRegion u) && ((s.die d).regions.getD (unitRegion u) {}).quiesced
  | .pod d q _ => !(t.die == d && unitRegion t.unit == q / 4) && ((s.die d).regions.getD (q / 4) {}).quiesced
  | _ => false

/-- A context at its replay point: its list begins again there, and the adds completed since are skipped (17 R394, R396); the scales it
carries start again from INIT_SCALE (03 R74; DEDUCED, log 19). -/
def Thread.rewind (t : Thread) (now : Nat) : Thread :=
  let at_ := match t.ckpt, t.cur with
    | some (a, i, o, _), some c => if a = c.addr then (i, o) else (0, 32)
    | _, _ => (0, 32)
  { t with
    state := if t.cur.isSome then .ready else .idle
    readyAt := now
    cur := t.cur.map fun (c : CurList) => { c with opIndex := at_.1, offset := at_.2 }
    out := [], waiting := none, early := [], late := [], skip := t.adds, carried := [] }

/-- A thread that received FENCED waits outside until the domain leaves recovery (17 R387); one that meets a quiesced region returns to
its replay point (log 30). -/
def State.fenceOut (s : State) (th : Thread) (l : Loc) : State :=
  if s.fencedAt (some th.id) l = false then s.setThread (th.rewind s.gts)
  else { s with
    threads := s.threads.filter (·.id != th.id)
    recoveries := modifyAt s.recoveries (s.recoveries.findIdx fun r => s.fencedBy (some th.id) l r.dom) fun r =>
      { r with suspects := r.suspects ++ [{ thread := th, held := th, outside := true, suspect := false }] } }

/-- Damage of a stream's tile kept with its picture (10 R243). -/
def State.tileDamage (s : State) (n picture tile cause detail : Nat) : State :=
  match s.stream n with
  | some st => s.setStream { st with pics := st.pics.map fun (p : Pic) =>
      if p.picture = picture then { p with damage := p.damage ++ [⟨picture, some tile, cause, detail⟩] } else p }
  | none => s

/-- Event records of a thread's unit. -/
def State.unitEvents (s : State) (t : ThreadId) (es : List (Nat × Nat)) : State :=
  es.foldl (fun u e => u.event t.die t.unit e.1 e.2) s

/-- A thread stops: its records and its sticky bit are written, and its stream or job stops once; a stream whose payload is
damaged stops only at the end of its picture (10 R243). -/
def State.stopWith (s : State) (th : Thread) (x : Stop) : State :=
  let s1 := s.unitEvents th.id x.events
  let s2 := match x.sticky with
    | some b => s1.stick th.id.die b
    | none => s1
  match x.damage, th.isJob, th.cur with
  | some (cause, detail), false, some c =>
    (s2.haltThread th x.status).tileDamage th.binding
      c.picture c.tile cause detail
  | _, _, _ => s2.stopThread th x.status

/-! ### Deciding -/

/-- The stop of a span that may not be accessed (06 R122 to R124). -/
def State.spanStop (s : State) (sp : Span) : Option Stop :=
  if touchesRegisters sp then some { status := .badAddress, sticky := some .accessViolation }
  else if s.accessOk sp then none else some { status := .badAddress }

/-- The location of the first span in a domain under recovery. -/
def State.firstFenced (s : State) (t : Option ThreadId) (l : List Span) : Option Loc :=
  (l.find? fun sp => sp.len != 0 && s.fencedAt t (locate s.dieCount sp.base)).map fun sp => locate s.dieCount sp.base

/-- The location of the first span in a quiesced region that is not the thread's own. -/
def State.firstShut (s : State) (t : ThreadId) (l : List Span) : Option Loc :=
  (l.find? fun sp => sp.len != 0 && s.shutAt t (locate s.dieCount sp.base)).map fun sp => locate s.dieCount sp.base

/-- Opcodes whose output may coincide with an input (05 R100). -/
def inPlaceCodes : List Nat := [0x08, 0x0F, 0x18, 0x21, 0x22]

/-- Whether an input coincides exactly with an output. -/
def Tensor.coincides (a d : Tensor) : Bool :=
  a.base == d.base && a.planePitch == d.planePitch && a.rowPitch == d.rowPitch && a.sameShape d && a.layout == d.layout &&
    a.fmt.width == d.fmt.width

/-- Whether the overlap of what an operation writes and reads is allowed (05 R100). -/
def overlapOk (code : Nat) (o : Op) (w : Work) : Bool :=
  let d := (o.tensors.getLastD none).getD Tensor.absent
  let same := if inPlaceCodes.contains code && o.inPlace then o.tensors.dropLast.filter fun t => match t with
    | some a => a.coincides d
    | none => false
    else []
  let kept := (same.flatMap fun _ => d.spans).foldl List.erase w.reads
  (o.inPlace == !same.isEmpty) && !spansMeet kept w.writes

/-- Whether the new operation must wait for an outstanding one (06 R118). -/
def hazard (th : Thread) (reads writes : List Span) : Bool :=
  th.out.any fun o => spansMeet o.writes reads || spansMeet o.writes writes || spansMeet o.reads writes

/-- Whether a thread already has four operations outstanding on a row's engine (06 R118). -/
def engineFull (th : Thread) (r : OpRow) : Bool :=
  match r.engine with
  | some e => decide (4 ≤ (th.out.filter (·.engine == e)).length)
  | none => false

/-- Whether a write meets a range declared by the list's CHECKPOINT (17 R392). -/
def meetsCheckpoint (th : Thread) (writes : List Span) : Bool :=
  match th.ckpt with
  | some (_, _, _, ranges) => spansMeet ranges writes
  | none => false

/-- The violation of 02 R57. -/
def domainStop (c : CurList) : Stop :=
  { status := .domainViolation, events := [(0x0201, c.opIndex * 65536)], sticky := some .domainViolation }

/-- What becomes of an operation offered for issue. -/
inductive Issue where
  /-- it is not this thread's turn for it -/
  | idle
  | stop (th : Thread) (x : Stop)
  | fenced (th : Thread) (l : Loc)
  | blocked (th : Thread) (w : WaitOn)
  | go (th : Thread) (c : CurList) (o : Op) (w : Work)

/-- The thread, list and descriptor when the next operation of a READY thread is one of row `r`. -/
def State.dueOp (s : State) (t : ThreadId) (r : OpRow) : Option (Thread × CurList × Except Status Op) :=
  match s.thread t with
  | none => none
  | some th =>
    match th.cur with
    | none => none
    | some c =>
      if s.phase = .running ∧ th.state = .ready ∧ c.opIndex < c.opCount ∧ s.opCode t c = r.code then
        some (th, c, parseOp t r (s.opBytes t c))
      else none

/-- Operations that move data to or from another unit's scratchpad: LOAD, STORE, PREFETCH (01 R11). -/
def moverCodes : List Nat := [0x38, 0x39, 0x3A]

/-- Whether a span lies in the scratchpad of a unit that is not the thread's own. -/
def State.inOtherScratch (s : State) (t : ThreadId) (sp : Span) : Bool :=
  match locate s.dieCount sp.base with
  | .scratch d u _ => sp.len != 0 && !(d == t.die && u == t.unit)
  | _ => false

/-- Whether an operation's own rules let it run: descriptor errors first, then the domain, then what it touches. An operation that is
no LOAD, STORE or PREFETCH may not name another unit's scratchpad (01 R11); the status is the model's (DEDUCED, log 85). -/
def State.judge (s : State) (th : Thread) (c : CurList) (code : Nat) (o : Op) (f : OpFn) : Except Stop Work :=
  match f { s := s, th := th, cur := c, op := o } with
  | .error e => .error { status := e }
  | .ok w =>
    if !overlapOk code o w || meetsCheckpoint th w.writes ||
        (!moverCodes.contains code && (w.reads ++ w.writes).any (s.inOtherScratch th.id)) then .error { status := .badParam }
    else if c.exact && (w.vary || o.fp32) then .error (domainStop c)
    else
      match (w.reads ++ w.writes).findSome? s.spanStop with
      | some x => .error x
      | none => .ok w

/-- The decision on an operation offered for issue. -/
def State.decideOp (s : State) (t : ThreadId) (r : OpRow) (f : OpFn) : Issue :=
  match s.dueOp t r with
  | none => .idle
  | some (th, _, .error e) => .stop th { status := e }
  | some (th, c, .ok o) =>
    match s.judge th c r.code o f with
    | .error x => .stop th x
    | .ok w =>
      match (s.firstFenced (some th.id) (w.reads ++ w.writes)).or (s.firstShut th.id (w.reads ++ w.writes)) with
      | some l => .fenced th l
      | none =>
        if hazard th w.reads w.writes then .blocked th .hazard
        else if engineFull th r then .blocked th .engineFull
        else .go th c o w

/-! ### Accesses to partners (06 R125; 14 R327, R330) -/

/-- The partner whose window holds a span. -/
def State.partnerOf (s : State) (sp : Span) : Option Nat :=
  match locate s.dieCount sp.base with
  | .partner p _ => some p
  | _ => none

/-- The port the routing table gives a partner. -/
def State.partnerPort (s : State) (p : Nat) : Option Nat := (s.routing.find? (·.1 == p)).map (·.2.1)

/-- A range cut into pieces of at most 4,096 bytes. -/
def pieces (base len : Nat) : List (Nat × Nat) :=
  (List.range (ceilDiv len 4096)).map fun i => (base + 4096 * i, min 4096 (len - 4096 * i))

/-- Runs of bytes with adjoining ones joined. -/
def joinRuns (l : List (Nat × List Byte)) : List (Nat × List Byte) :=
  (l.foldl (fun acc r => match acc with
    | (a, bs) :: rest => if a + bs.length = r.1 then (a, bs ++ r.2) :: rest else r :: acc
    | [] => [r]) []).reverse

/-- Requests of a port that are out and unanswered. -/
def Plk.openTags (l : Plk) : List LinkTag := l.tags.filter fun g => g.sent && g.got.isNone

/-- The class of a request: its thread's. -/
def State.tagClass (s : State) (g : LinkTag) : Nat :=
  match s.thread g.thread with
  | some th => th.cls
  | none => 3

/-- The request of a port that leaves next: class 0 ahead of the others, and the oldest of a class (06 R129). -/
def State.nextTag (s : State) (l : Plk) : Option (LinkTag × Nat) :=
  (sortBy (fun (a b : LinkTag × Nat) => decide (min 1 (s.tagClass a.1) ≤ min 1 (s.tagClass b.1)))
    (l.tags.zipIdx.filter fun g => !g.1.sent)).head?

/-- Requests that wait leave while fewer than 4,096 are outstanding (14 R327). -/
def State.pumpTags (s : State) (port : Nat) : Nat → State
  | 0 => s
  | k + 1 =>
    let l := (s.die port).plk
    let used := l.openTags
    match s.nextTag l with
    | none => s
    | some (g, i) =>
      if 4096 ≤ used.length then s
      else
        let n := ((List.range 4097).find? fun i => !(used.any (·.tag == i))).getD 0
        let s1 := s.onPlk port fun x => { x with
          tags := modifyAt x.tags i fun y => { y with sent := true, tag := n } }
        let p : PartnerPacket := {
          port := port, vc := s.tagClass g
          tag := n, length := g.length, status := .ok, addr := g.dest % 0x100000000000, data := g.data }
        (if l.up then s1.sendPacket p (if g.isWrite then 3 else 1) else s1).pumpTags port k

/-- Requests queued on a partner's port, in order. -/
def State.queueTags (s : State) (port : Nat) (gs : List LinkTag) : State :=
  (s.onPlk port fun x => { x with tags := x.tags ++ gs }).pumpTags port gs.length

/-- Bytes written: those of this part to memory, those of partner windows as requests. -/
def State.land (s : State) (t : ThreadId) (descr : Nat) (runs : List (Nat × List Byte)) : State :=
  let far := runs.filter fun r => (s.partnerOf ⟨r.1, r.2.length⟩).isSome
  let s1 := s.putRuns (runs.filter fun r => (s.partnerOf ⟨r.1, r.2.length⟩).isNone)
  (joinRuns far).foldl (fun u r =>
    match (u.partnerOf ⟨r.1, 1⟩).bind u.partnerPort with
    | some port => u.queueTags port ((pieces r.1 r.2.length).map fun p =>
        { tag := 0, thread := t, descr := descr, dest := p.1, length := p.2, isWrite := true, issuedAt := s.gts
          data := slice r.2 (p.1 - r.1) p.2 })
    | none => u) s1

/-- Whether an operation still waits for a partner's answer. -/
def State.tagsOpen (s : State) (t : ThreadId) (descr : Nat) : Bool :=
  s.dies.any fun d => d.plk.tags.any fun g => g.thread == t && g.descr == descr && g.got.isNone

/-! ### Issuing -/

/-- A tile's work of a stream's picture replaced by `f` of it. -/
def Stream.onTile (st : Stream) (picture tile : Nat) (f : TileWork → TileWork) : Stream :=
  { st with pics := st.pics.map fun (p : Pic) =>
    if p.picture = picture then
      let ts := if p.tiles.any (·.tile == tile) then p.tiles else p.tiles ++ [{ tile := tile }]
      { p with tiles := ts.map fun (w : TileWork) => if w.tile = tile then f w else w }
    else p }

/-- What a thread keeps of an operation's effect: its carried scale. -/
def Thread.keep (t : Thread) (e : Eff) : Thread :=
  match e.carry with
  | some k => { t with carried := k :: t.carried.filter fun x => !(x.net == k.net && x.list == k.list && x.op == k.op) }
  | none => t

/-- The effect of an operation on memory, on its stream's tile and on the side tensors. -/
def State.applyEff (s : State) (th : Thread) (c : CurList) (e : Eff) : State :=
  let s1 := s.land th.id c.here e.runs
  let s2 := match e.side with
    | some (a, l) => { s1 with sides := (a, l) :: s1.sides.filter (·.1 != a) }
    | none => s1
  let s3 := ({ s2 with
    freeCtr := s2.freeCtr + e.draws
    dynamic := e.stream.toList ++ s2.dynamic.filter fun a =>
      !(e.stream == some a || e.runs.any fun r => (⟨r.1, r.2.length⟩ : Span).overlaps ⟨a, 8⟩) } : State).unitEvents th.id e.events
  if th.isJob then s3
  else
    match s3.stream th.binding with
    | some st => s3.setStream (st.onTile c.picture c.tile e.tile)
    | none => s3

/-- The thread past its operation. -/
def Thread.passed (t : Thread) (size : Nat) : Thread :=
  { t with
    waiting := none
    cur := t.cur.map fun (c : CurList) => { c with opIndex := c.opIndex + 1, offset := c.offset + 16 * size } }

/-- The outstanding operation as it enters its engine's queue. -/
def mkOutst (e : Engine) (c : CurList) (code : Nat) (w : Work) : Outst :=
  { engine := e, opIndex := c.opIndex, opcode := code, reads := w.reads, writes := w.writes, descr := c.here, list := c.addr }

/-- Requests for what an operation reads from partners. -/
def State.askPartners (s : State) (t : ThreadId) (descr : Nat) (reads : List Span) : State :=
  reads.foldl (fun u sp =>
    match (u.partnerOf sp).bind u.partnerPort with
    | some port => u.queueTags port ((pieces sp.base sp.len).map fun p =>
        { tag := 0, thread := t, descr := descr, dest := p.1, length := p.2, isWrite := false, issuedAt := s.gts })
    | none => u) s

/-- Whether any byte read lies in a partner window. -/
def State.readsFar (s : State) (l : List Span) : Bool := l.any fun sp => sp.len != 0 && (s.partnerOf sp).isSome

/-- Whether an operation's effect waits: for the answers of a partner it reads from, or for its first chunk on a lane, which binds its
table bank (07 R164). -/
def State.effectWaits (s : State) (e : Engine) (w : Work) : Bool := s.readsFar w.reads || e == .lane

/-- An operation that may run is queued on its engine: its effect takes place at issue (log 13), unless it waits. -/
def State.launch (s : State) (th : Thread) (c : CurList) (r : OpRow) (e : Engine) (o : Op) (w : Work) : State :=
  let wait := s.effectWaits e w
  let base : Thread := { (th.passed o.size) with out := th.out ++ [{ mkOutst e c r.code w with ran := !wait }] }
  if wait then ((s.setThread base).askPartners th.id c.here w.reads).serveEngine th.id e none
  else
    let eff := w.run s
    match eff.stop with
    | some x => (s.applyEff th c eff).stopWith th x
    | none => ((s.applyEff th c eff).setThread (base.keep eff)).serveEngine th.id e none

/-! ### Prefetch (06 R136, R137) -/

/-- The landing place of a prefetched span. -/
def landing (t : Tensor) (dst : Nat) (sp : Span) : Span := ⟨sp.base - t.base + dst, sp.len⟩

/-- Whether an operand that an exact list reads is infinite or NaN (02 R57). -/
def State.exactViolation (s : State) (c : CurList) (ts : List Tensor) : Bool := c.exact && ts.any s.anyNonfinite

/-- What PREFETCH does: the source's bytes at the same offsets from DST. -/
def prefetchWork : OpFn := fun x =>
  let t := x.op.t 0
  let raw := bits x.op.own 0 64
  let dst := canonAddr x.th.id raw
  if raw % 64 ≠ 0 || !inOwnScratch x.th.id ⟨dst, 1⟩ then .error .badParam
  else if t.spans.any fun sp => sp.overlaps (ownScratch x.th.id) then .error .badParam
  else if t.spans.any fun sp => !inOwnScratch x.th.id (landing t dst sp) then .error .badAddress
  else .ok {
    reads := t.spans, writes := t.spans.map (landing t dst)
    run := fun s =>
      if s.exactViolation x.cur [t] then { stop := some (domainStop x.cur) }
      else { runs := t.spans.map fun sp => ((landing t dst sp).base, s.bytesAt sp.base sp.len) } }

/-- The places and offsets of a list's descriptors, from an offset on; `rd` reads a byte of the list. -/
def listOps (rd : Nat → Byte) : Nat → Nat → Nat → List (Nat × Nat)
  | 0, _, _ => []
  | k + 1, i, off => (i, off) :: listOps rd k (i + 1) (off + 16 * (rd (off + 1)).toNat)

/-- Whether sizes from 2 to 32 fill a list from an offset exactly (06 R117). -/
def sizesFit (rd : Nat → Byte) (len : Nat) : Nat → Nat → Bool
  | 0, off => off == len
  | k + 1, off =>
    let n := (rd (off + 1)).toNat
    2 ≤ n && n ≤ 32 && off + 16 * n ≤ len && sizesFit rd len k (off + 16 * n)

/-- The byte at an offset of a list. -/
def State.listByte (s : State) (t : ThreadId) (a off : Nat) : Byte := s.codeByte t a (a + off)

/-- The little-endian number of `k` bytes at an offset of a list. -/
def State.listNum (s : State) (t : ThreadId) (a off k : Nat) : Nat := leNat ((List.range k).map fun i => s.listByte t a (off + i))

/-- The places and offsets of the descriptors of a list. -/
def State.descrs (s : State) (t : ThreadId) (a : Nat) : List (Nat × Nat) := listOps (s.listByte t a) (s.listNum t a 2 2) 0 32

/-- A list read at an address for a thread: its header and framing, or the status it stops with (06 R117). -/
def State.frameList (s : State) (th : Thread) (a : Nat) : Except Status CurList :=
  let n := s.listNum th.id a
  let len := n 4 4
  match locate s.dieCount a with
  | .scratch .. | .partner .. => .error .badParam
  | .none_ | .registers => .error .badAddress
  | _ =>
    if a % 64 ≠ 0 then .error .badParam
    else if !s.accessOk ⟨a, 32⟩ then .error .badAddress
    else if n 0 1 > 1 || n 1 1 > 1 || n 2 2 = 0 || n 2 2 > 4096 || len % 16 ≠ 0 || len > 2 ^ 20 || n 20 12 ≠ 0 then .error .badParam
    else if n 8 4 ≠ th.binding || n 19 1 ≠ 0 || (th.isJob && n 16 3 ≠ 0) then .error .badParam
    else if !s.accessOk ⟨a, len⟩ then .error .badAddress
    else if !sizesFit (s.listByte th.id a) len (n 2 2) 32 then .error .badParam
    else .ok {
      addr := a, exact := n 0 1 == 0, lastList := n 1 1 == 1, opCount := n 2 2, length := len, stream := n 8 4, tile := n 12 4
      picture := n 16 3 }

/-- What a list that does not begin stops its thread with: a header in the register range sets ACCESS_VIOLATION (06 R117, R124). -/
def listStop (a : Nat) (e : Status) : Stop :=
  { status := e, sticky := if touchesRegisters ⟨a, 32⟩ then some .accessViolation else none }

/-- Whether a fence or a quiesced region keeps a thread from a list. -/
def State.listShut (s : State) (t : ThreadId) (a : Nat) : Bool :=
  s.fencedAt (some t) (locate s.dieCount a) || s.shutAt t (locate s.dieCount a)

/-- The lists a thread runs, has queued, or has operations of outstanding. -/
def Thread.uses (t : Thread) : List Nat := (t.cur.map (·.addr)).toList ++ t.queue ++ t.out.map (·.list)

/-- The instruction stores without the lists that no context of their cluster uses any more (log 84). -/
def State.pruneStores (s : State) : State :=
  { s with istore := s.istore.filter fun f => s.threads.any fun t =>
    t.uses.any fun a => f.holds t.id a }

/-- A list fetched into the store of its thread's cluster; one that is there is not fetched again (06 R117). -/
def State.fetch (s : State) (t : ThreadId) (a : Nat) : State :=
  if s.istore.any (·.holds t a) || s.listShut t a then s
  else { s with istore := s.istore ++ [{
    die := t.die, cluster := unitCluster t.unit, list := a
    cells := s.mem.filter fun c => decide (a ≤ c.1) && decide (c.1 < a + max 32 (s.numAt (a + 4) 4)) }] }

/-- The parsed descriptors of a list, with their rows. -/
def State.listParsed (s : State) (t : ThreadId) (a : Nat) : List (OpRow × Op) :=
  (s.descrs t a).filterMap fun d =>
    match rowOf (s.opCodeAt t a (a + d.2)) with
    | none => none
    | some r =>
      match parseOp t r (s.opBytesAt t a (a + d.2)) with
      | .ok o => some (r, o)
      | .error _ => none

/-- Every byte the descriptors of a list name. -/
def State.listNames (s : State) (t : ThreadId) (a : Nat) : List Span := (s.listParsed t a).flatMap fun p => namedSpans t p.1 p.2

/-- A PREFETCH of a queued list marked: issued early, with the fault held for its own position if it has one. -/
def State.holdEarly (s : State) (t : ThreadId) (c : CurList) (x : Option Stop) : State :=
  match s.thread t with
  | some th => s.setThread { th with early := th.early ++ [(c.addr, c.opIndex, x)] }
  | none => s

/-- A PREFETCH issued before its tile begins: outstanding on the address generator, its effect taken place, or a fault of its source
held. -/
def State.issueEarly (s : State) (th : Thread) (c : CurList) (w : Work) : State :=
  let t := th.id
  let far := s.readsFar w.reads
  match if far then none else (w.run s).stop with
  | some x => s.holdEarly t c (some x)
  | none =>
    let s1 := s.holdEarly t c none
    let s2 := match s1.thread t with
      | some x => s1.setThread { x with out := x.out ++ [{ mkOutst .agen c 0x3A w with early := true, ran := !far }] }
      | none => s1
    (if far then s2.askPartners t c.here w.reads else s2.applyEff th c (w.run s2)).serveEngine t .agen none

/-- A PREFETCH of a queued list offered for issue; none while an outstanding operation or a full queue keeps it (06 R118). -/
def State.tryEarly (s : State) (t : ThreadId) (c : CurList) : Option State :=
  match s.thread t, parseOp t rowPrefetch (s.opBytes t c) with
  | none, _ => some s
  | _, .error e => some (s.holdEarly t c (some { status := e }))
  | some th, .ok o =>
    match s.judge { th with ckpt := none } c 0x3A o prefetchWork with
    | .error x => some (s.holdEarly t c (some x))
    | .ok w =>
      if (s.firstFenced (some t) (w.reads ++ w.writes)).isSome || (s.firstShut t (w.reads ++ w.writes)).isSome then some s
      else if hazard th w.reads w.writes || engineFull th rowPrefetch then none
      else some (s.issueEarly th c w)

/-- Whether a PREFETCH is demoted: its landing meets a byte that the lists ahead name (06 R137). -/
def State.demoted (s : State) (t : ThreadId) (ahead : List Nat) (o : Op) : Bool :=
  spansMeet ((o.t 0).spans.map (landing (o.t 0) (canonAddr t (bits o.own 0 64)))) (ahead.flatMap (s.listNames t))

/-- A PREFETCH of a queued list, before its tile begins: demoted, issued, or kept until it may issue, behind those kept before it. -/
def State.prefetchEarly (s : State) (t : ThreadId) (ahead : List Nat) (c : CurList) : State :=
  match s.thread t, parseOp t rowPrefetch (s.opBytes t c) with
  | some th, .ok o =>
    if s.demoted t ahead o then s.onDie t.die fun d => { d with cnt := modifyAt d.cnt 1 (· + 1) }
    else
      match if th.late.isEmpty then s.tryEarly t c else none with
      | some u => u
      | none => s.setThread { th with late := th.late ++ [(c.addr, c.opIndex, c.offset)] }
  | _, _ => (s.tryEarly t c).getD s

/-- The prefetches kept are offered again, in order, until one must still wait. -/
def State.offerLate (s : State) (t : ThreadId) : Nat → State
  | 0 => s
  | k + 1 =>
    match s.thread t with
    | none => s
    | some th =>
      match th.late with
      | [] => s
      | (a, i, off) :: rest =>
        let s1 := s.setThread { th with late := rest }
        match s.frameList th a with
        | .error _ => s1.offerLate t k
        | .ok c =>
          match s1.tryEarly t { c with opIndex := i, offset := off } with
          | some u => u.offerLate t k
          | none => s

/-- The prefetches of a queued list that stands behind the lists `ahead` (06 R136). -/
def State.prefetchList (s : State) (t : ThreadId) (ahead : List Nat) (a : Nat) : State :=
  match s.thread t with
  | none => s
  | some th =>
    match s.frameList th a with
    | .error _ => s
    | .ok c => ((s.descrs t a).filter fun d => s.opCodeAt t a (a + d.2) == 0x3A).foldl
        (fun u d => u.prefetchEarly t ahead { c with opIndex := d.1, offset := d.2 }) s

/-! ### Beginning and finishing lists -/

/-- The thread as its list begins: its prefetches become its own, those not yet issued run in place, and scales carried for another
tile go. -/
def Thread.begin (t : Thread) (c : CurList) (rest : List Nat) : Thread :=
  { t with
    state := .ready, cur := some c, queue := rest, waiting := none, ckpt := none, adds := 0, skip := 0
    late := t.late.filter (·.1 != c.addr)
    out := t.out.map fun (o : Outst) =>
      if o.list = c.addr then { o with early := false } else o
    carried := if t.carryTile = (c.picture, c.tile) then t.carried else []
    carryTile := (c.picture, c.tile) }

/-- The list two places behind the running one prefetches when that one begins (06 R136). -/
def State.prefetchNext (s : State) (t : ThreadId) : State :=
  match s.thread t with
  | some th =>
    match th.cur, th.queue with
    | some c, q :: a :: _ => s.prefetchList t [c.addr, q] a
    | _, _ => s
  | none => s

/-- A thread's next queued list begins, or stops it (06 R117, R118). -/
def State.beginList (s : State) (th : Thread) : State :=
  match th.queue with
  | [] => s.setThread { th with state := .idle }
  | a :: rest =>
    if s.listShut th.id a then s.fenceOut th (locate s.dieCount a)
    else
      let s1 := s.fetch th.id a
      match s1.frameList th a with
      | .error e => s1.stopWith th (listStop a e)
      | .ok c =>
        if th.isJob = false ∧ s.poolWaits th.id.die th.binding c.picture c.tile then
          if th.waiting.isSome then s else s.setThread { th with state := .blocked, waiting := some (.pool, s.gts) }
        else (s1.setThread { (th.begin c rest) with readyAt := s.gts }).prefetchNext th.id

/-- A cancelled LIST job ends at the list boundary of each of its contexts: one between lists begins no other, and the job ends with the
last list in hand (13 R301). -/
def State.cancelJob (s : State) (n : Nat) : State :=
  let mine := fun (t : Thread) => t.isJob && t.binding == n
  let s1 : State := { s with threads := s.threads.map fun (t : Thread) => if mine t then { t with queue := [], late := [] } else t }
  match s.job n with
  | none => s
  | some j =>
    if s1.threads.any fun t => mine t && t.cur.isSome && t.state != .stopped then s1
    else ((s1.setJob { j with state := 4 }).releasePools n).unbindThreads n

/-- A job whose list finished: complete with its last, and its reservations and threads freed (06 R140, 13 R301). -/
def State.jobListDone (s : State) (n : Nat) : State :=
  match s.job n with
  | none => s
  | some j =>
    if j.state ≠ 1 ∨ j.kind ≠ .list then s
    else
      let j1 := { j with done := j.done + 1 }
      if j1.cancel then (s.setJob j1).cancelJob n
      else if j1.done = j1.count then ((s.setJob { j1 with state := 2 }).releasePools n).unbindThreads n
      else s.setJob j1

/-- A lossless job whose operation has completed is complete (07 R176; 13 R301). -/
def State.jobIdle (s : State) (n : Nat) : State :=
  match s.job n with
  | none => s
  | some j =>
    if j.state ≠ 1 ∨ (j.kind ≠ .lzPack ∧ j.kind ≠ .lzUnpack) then s
    else ((s.setJob { j with state := 2, done := 1 }).releasePools n).unbindThreads n

/-- What a thread does between operations: it stops at an opcode that is not listed (05 R94), finishes its list when every
operation is complete, and begins the next. -/
def State.settle (s : State) (t : ThreadId) : Nat → State
  | 0 => s
  | k + 1 =>
    match s.thread t with
    | none => s
    | some th =>
      if th.state = .stopped then s
      else
        match th.cur with
        | none =>
          if !th.queue.isEmpty then (s.beginList th).settle t k
          else if th.isJob && th.out.isEmpty then s.jobIdle th.binding
          else s
        | some c =>
          if c.opIndex < c.opCount then
            if (rowOf (s.opCode t c)).isNone then s.stopThread th .badOpcode else s
          else if th.out.all (·.early) then
            let th1 := { th with cur := none, ckpt := none, adds := 0, skip := 0, state := .idle }
            let s1 := s.setThread th1
            ((if th.isJob then s1.jobListDone th.binding else s1)).settle t k
          else s

/-- Threads that wait for a buffer and whose request has been served begin their lists (06 R116, R141). -/
def State.wakePools (s : State) : State :=
  (s.threads.filter fun t => match t.waiting with | some (.pool, _) => true | _ => false).foldl (fun u t => u.settle t.id 12) s

/-- A thread moves on after an operation. -/
def State.moveOn (s : State) (t : ThreadId) : State := (s.settle t 12).wakePools

/-- A thread past an operation that leaves nothing outstanding. -/
def State.pass (s : State) (th : Thread) (size : Nat) : State := (s.setThread (th.passed size)).moveOn th.id

/-- A thread that must wait (06 R116). -/
def State.block (s : State) (th : Thread) (w : WaitOn) : State :=
  s.setThread { th with state := .blocked, waiting := some (w, s.gts) }

/-- Whether the part has a context. -/
def threadPresent (s : State) (t : ThreadId) : Bool := t.die < s.dieCount && t.unit < 256 && t.ctx < 16

/-- What a decision does. -/
def State.carryOut (s : State) (r : OpRow) (e : Engine) : Issue → State
  | .idle => s
  | .stop th x => (s.stopWith th x).wakePools
  | .fenced th l => s.fenceOut th l
  | .blocked th w => s.block th w
  | .go th c o w => (s.launch th c r e o w).moveOn th.id

/-- A command that offers a thread's next operation for issue (log 22). -/
def issueOp (s : State) (t : ThreadId) (r : OpRow) (e : Engine) (f : OpFn) : Host.Outcome State Fault Refusal :=
  if threadPresent s t then .next (s.carryOut r e (s.decideOp t r f)) else .fault .absentElement

end Sys2Proof.Machine
end

