-- ==== Sys2Proof/Machine/Results.lean ====
section
/-! DEFINITION. How operations end: destination elements, statistics and QSAT (03 R71 to R73), scale errors (03 R61, R78), scales found
by a scan (03 R63, R64), carried scales (03 R74 to R76), outlier channels (03 R68, R69) and weight references (05 R99). -/

namespace Sys2Proof.Machine

/-! ### Scale errors -/

/-- What a failing scale packet stops the thread with (03 R61, R78). -/
def scaleStop : ScaleErr → Stop
  | .packet => { status := .badParam }
  | .skew e f => { status := .scaleSkew, events := [(0x0303, e * 65536 + f)], sticky := some .scaleSkew }
  | .ended e => { status := .scaleSkew, events := [(0x0304, e * 65536)], sticky := some .scaleSkew }

/-- A scaled operand of an operation: its stream's state, and whether every block that an output element needs of it is good. -/
structure Feed where
  src : Src
  ok : Nat → Nat → Nat → Bool

/-- An operand whose elements stand where the output's do. -/
def Src.feed (a : Src) : Feed := ⟨a, a.goodAt⟩

/-- The error that ends an operation: that of the first operand that fails at the first element where one fails; a stream whose
failing block no element needs fails after them. -/
def feedStop (d : Tensor) (l : List Feed) : Option Stop :=
  if l.all (·.src.err.isNone) then none
  else ((d.coords.findSome? fun p => l.findSome? fun r => if r.ok p.1 p.2.1 p.2.2 then none else r.src.err).or
    (l.findSome? (·.src.err))).map scaleStop

/-- The scale packets operands read. -/
def scaleReads (l : List Tensor) : List Span := l.flatMap Tensor.scaleSpans

/-! ### Destinations -/

/-- Whether a destination's last channel block has unused positions that take the zero point of its stream (05 R114). -/
def Tensor.padded (d : Tensor) : Bool := d.fmt.isInt && d.scaled && d.c % d.lanes != 0

/-- The code of the unused channel positions of a destination's last block (05 R114): real zero, for an integer tensor the zero
point of the data block of the last real channel, as `zp` gives it or its packet. -/
def padCode (s : State) (d : Tensor) (zp : Option (Nat → Nat → Int)) (y x : Nat) : Nat :=
  d.fmt.zeroCode (match zp with
    | some z => z y x
    | none => if d.scaled then (s.packet d.scale (d.blockOf (d.c - 1) y x)).2 else 0)

/-- An element's place in the order C, H, W. -/
def Tensor.index (t : Tensor) (c y x : Nat) : Nat := (c * t.h + y) * t.w + x

/-- The memory runs of a destination whose cells stand in the order C, H, W; none is not written. -/
def cellRuns (s : State) (d : Tensor) (zp : Option (Nat → Nat → Int)) (cells : List (Option Cell)) : List (Nat × List Byte) :=
  let get := fun c y x => (cells.getD (d.index c y x) none).map (·.code)
  tensorRuns s d get fun y x => if (get (d.c - 1) y x).isSome then some (padCode s d zp y x) else none

/-- Real zero over a whole tensor: code *z* of an integer element, the format's zero else (08 R182). -/
def zeroRuns (s : State) (d : Tensor) : List (Nat × List Byte) :=
  tensorRuns s d (fun c y x => some (d.fmt.zeroCode (s.scaleAt d c y x).2)) fun y x => some (padCode s d none y x)

/-- Where an operation writes beside its destination: its statistics record and its squared errors (03 R71). -/
def statSpans (o : Op) (blocks : Nat) : List Span :=
  if o.hasStats then ⟨o.stats, 32⟩ :: (if o.sse = 0 then [] else [⟨o.sse, 8 * blocks⟩]) else []

/-- The squared error of each data block of a destination. -/
def blockSums (d : Tensor) (cells : List (Option Cell)) : List Nat :=
  (List.range d.blocks).map fun b =>
    ((d.coords.zip cells).filterMap fun p =>
      if d.blockOf p.1.1 p.1.2.1 p.1.2.2 = b then p.2.map (·.sse) else none).sum

/-- The statistics an operation writes at its end, with QSAT (03 R71, R73). -/
def statEff (x : Ctx) (d : Tensor) (cells : List (Option Cell)) (g : StatFlags) : List (Nat × List Byte) × List (Nat × Nat) :=
  if x.op.hasStats then
    let a := tallyOf (cells.filterMap id)
    let qsat := x.op.thresh != 0 && x.op.thresh < a.sat
    ((x.op.stats, statsRecord a g qsat x.cur.opIndex) ::
      (if x.op.sse = 0 then [] else [(x.op.sse, (blockSums d cells).flatMap (leBytes 8))]),
     if qsat then [(0x0301, x.cur.opIndex * 65536 + min a.sat 0xFFFF)] else [])
  else ([], [])

/-- Cells of a destination: none where a block that an element needs has failed. -/
def feedCells (d : Tensor) (feeds : List Feed) (cell : Nat → Nat → Nat → Cell) : List (Option Cell) :=
  d.coords.map fun p => if feeds.all fun r => r.ok p.1 p.2.1 p.2.2 then some (cell p.1 p.2.1 p.2.2) else none

/-- The streams an operation consumes: its operands', and the destination's own where unused positions take its zero point. -/
def withOwn (s : State) (d : Tensor) (own : Bool) (feeds : List Feed) : List Feed :=
  if own && d.padded then feeds ++ [(s.src d).feed] else feeds

/-- The effect of writing a destination: its cells, then, where no scale failed, its statistics. -/
def writeCells (x : Ctx) (s : State) (d : Tensor) (zp : Option (Nat → Nat → Int)) (feeds : List Feed) (cell : Nat → Nat → Nat → Cell)
    (g : StatFlags := {}) : Eff :=
  let all := withOwn s d zp.isNone feeds
  let cells := feedCells d all cell
  let stop := feedStop d all
  let st := if stop.isNone then statEff x d cells g else ([], [])
  { runs := cellRuns s d zp cells ++ st.1, stop := stop, events := st.2 }

/-- The packets read for the unused positions of a destination. -/
def padReads (d : Tensor) : List Span := if d.padded then d.scaleSpans else []

/-- A work that first checks an exact list's operands for infinities and NaN (02 R57). -/
def guardExact (x : Ctx) (ts : List Tensor) (run : State → Eff) : State → Eff := fun s =>
  if s.exactViolation x.cur ts then { stop := some (domainStop x.cur) } else run s

/-- The same for an operation that reads only the positions `at_` gives of a tensor, in every channel (02 R57, 05 R105). -/
def guardAt (x : Ctx) (a : Tensor) (at_ : State → List (Nat × Nat)) (run : State → Eff) : State → Eff := fun s =>
  if x.cur.exact && (a.fmt.isFloat && (at_ s).any fun p => (List.range a.c).any fun c => s.nonfiniteAt a c p.1 p.2) then
    { stop := some (domainStop x.cur) }
  else run s

/-- The same for what a condition on the state finds. -/
def guardWhen (x : Ctx) (bad : State → Bool) (run : State → Eff) : State → Eff := fun s =>
  if x.cur.exact && bad s then { stop := some (domainStop x.cur) } else run s

/-! ### Scales from a scan (03 R63) -/

/-- The least and the greatest of real values, 0 among them. -/
def rangeOf (l : List EV) : EV × EV :=
  l.foldl (fun r v => (if EV.le v r.1 then v else r.1, if EV.le r.2 v then v else r.2)) (.zero, .zero)

/-- The greatest magnitude of real values. -/
def magOf (l : List EV) : EV := l.foldl (fun m v => if EV.le m v.abs then v.abs else m) .zero

/-- Whether a value is rational. -/
def EV.rational : EV → Bool
  | .num _ _ k _ => k % 256 == 0
  | _ => false

/-- `RNE_FP32 ((hi - lo) / d)` as FP32 bits, `lo ≤ 0 ≤ hi`. A quotient above the largest finite FP32 value, which 03 R63 does not
speak of, becomes that value (DESIGN CHOICE, log 78). -/
def spreadFP32 (lo hi : EV) (d : Nat) : Nat :=
  if lo.rational && hi.rational then
    match hi.addExact lo.neg with
    | .num n e k _ => (toFloat .fp32 true n (e * d) k false).code
    | _ => 0
  else
    decideEnc (fun p => (encEV p hi).sub (encEV p lo)) (fun i p => (toFloat .fp32 true i (2 ^ p * d) 0 false).code)
      (fun a b => if a % 2 = 0 then a else b) precisions 0

/-- The smallest scale, 2^-126, as FP32 bits. -/
def minScale : Nat := 0x00800000

/-- `F_max` of a format scaled without a zero point (03 R63). -/
def fmtLargest : Fmt → EV
  | .e4m3 => .num 448 1 0 false
  | .e5m2 => .num 57344 1 0 false
  | .lns8 => .num 1 1 (32 * 63) false
  | _ => .num 1 1 16383 false

/-- The scale as FP32 bits and the zero point that R63 gives a block's finite values, shrunk by `c`. -/
def scanScale (f : Fmt) (c : EV) (l : List EV) : Nat × Int :=
  if f.isInt then
    let r := rangeOf l
    let lo := r.1.mul c
    let hi := r.2.mul c
    if r.1.isZero && r.2.isZero then (0x3F800000, f.qmin)
    else
      let s := max minScale (spreadFP32 lo hi (f.qmax - f.qmin).toNat)
      (s, f.qmin + (place 0 (lo.neg.divPos (decodeFloat .fp32 s))).n)
  else
    match (magOf l).mul c with
    | .num n d k _ =>
      if n = 0 then (0x3F800000, 0)
      else
        match (EV.num n d k false).divPos (fmtLargest f) with
        | .num a b e _ => (max minScale (toFloat .fp32 true a b e false).code, 0)
        | _ => (0x3F800000, 0)
    | _ => (0x3F800000, 0)

/-! ### Converting one element (03 R62) -/

/-- An element converted with a scale and a zero point, and its squared error where `fmse` is given. -/
def convertCell (f : Fmt) (fx : Nat) (sat keepInf : Bool) (p : Nat × Int) (fmse : Option Nat) (v : EV) : Cell :=
  let d := (convertEV f fx sat keepInf p.2 (v.divPos (decodeFloat .fp32 p.1))).cell f p.2 (v.mayCollapse f) 0 0
  match fmse with
  | some m => d.withError m f p v
  | none => d

/-- The code an element would have without the clamp (03 R75). -/
def unclamped (p : Nat × Int) (v : EV) : Int := codeOf p.2 (v.divPos (decodeFloat .fp32 p.1))

/-! ### Carried scales (03 R74 to R76) -/

/-- A stream's tile under way. -/
def State.tileOf (s : State) (stream picture tile : Nat) : Option TileWork :=
  (s.stream stream).bind fun st => (st.pics.find? (·.picture == picture)).bind fun p => p.tiles.find? (·.tile == tile)

/-- The tile whose list a thread runs; none for a job's. -/
def Ctx.tile (x : Ctx) : Option TileWork := if x.th.isJob then none else x.s.tileOf x.th.binding x.cur.picture x.cur.tile

/-- What firmware instantiated at the address of the list a thread runs (09 R195). -/
def Ctx.listRef (x : Ctx) : Option ListRef := x.tile.bind fun w => w.lists.find? (·.addr == x.cur.addr)

/-- The profile's network and list that a thread runs: those of the placement at the list's address (03 R74; DEDUCED, log 19). -/
def Ctx.listId (x : Ctx) : Option (List Byte × Nat × Nat) :=
  match (x.s.threadSlot x.th).bind x.s.slotImage, x.listRef with
  | some img, some r => some (img, r.net, r.list)
  | _, _ => none

/-- The step of the tile's loop that an operation belongs to: the ENC and DEC operations before it in its list (08 R181). -/
def Ctx.step (x : Ctx) : Nat :=
  ((x.s.descrs x.th.id x.cur.addr).take x.cur.opIndex).countP fun d =>
    [0x28, 0x29].contains (x.s.opCodeAt x.th.id x.cur.addr (x.cur.addr + d.2))

/-- The QUANT entry of a carried-scale operation. -/
def Ctx.carryCfg (x : Ctx) : Option CarryCfg :=
  x.listId.bind fun l => (imageQuant l.1).carried.find? fun q => q.net == l.2.1 && q.list == l.2.2 && q.op == x.cur.opIndex

/-- The outlier masks of an operation. -/
def Ctx.outlierCfg (x : Ctx) : Option OutlierCfg :=
  x.listId.bind fun l => (imageQuant l.1).outliers.find? fun q => q.net == l.2.1 && q.list == l.2.2 && q.op == x.cur.opIndex

/-- The outlier channels of an operation, in ascending order; refused when FLAGS bit 3 is set and the profile declares none. -/
def Ctx.outliers (x : Ctx) : Except Status (List Nat) :=
  if !x.op.outliers then .ok []
  else
    match x.outlierCfg with
    | none => .error .badParam
    | some q => .ok (q.masks.zipIdx.flatMap fun m => (List.range 256).filterMap fun i =>
        if bit m.1 i then some (256 * m.2 + i) else none)

/-- The scales a carried-scale operation uses at this step. -/
def Ctx.carriedScales (x : Ctx) (q : CarryCfg) (blocks : Nat) : List (Nat × Int) :=
  match x.th.carried.find? fun k => k.net == q.net && k.list == q.list && k.op == q.op with
  | some k => k.scales
  | none => List.replicate blocks (q.scale, q.zp)

/-- Whether an unclamped code exceeds a carried scale (03 R75); only integer formats can, an infinity always does and a NaN never
(DEDUCED, log 19). -/
def exceeds (f : Fmt) (fact : Nat) (z v : Int) : Bool :=
  16 * (v - z) > fact * (f.qmax - z) || 16 * (z - v) > fact * (z - f.qmin)

/-- What a conversion in carried-scale mode is made of: the pre-conversion values, an element's unclamped code and its cell under a
block's scale. -/
structure Carrying where
  pre : Nat → Nat → Nat → EV
  code : Nat × Int → Nat → Nat → Nat → Int
  cell : Nat × Int → Nat → Nat → Nat → Cell

/-- A conversion in carried-scale mode. The destination's stream receives the packets used (log 19); `side` gives the side tensor
under the scales used. -/
def carriedWrite (x : Ctx) (s : State) (d : Tensor) (q : CarryCfg) (feeds : List Feed) (k : Carrying) (sse : Bool)
    (side : (Nat → Nat → Nat → EV) → Option (Nat × List Nat) := fun _ => none) : Eff :=
  let used := x.carriedScales q d.blocks
  let at_ := fun (l : List (Nat × Int)) c y z => l.getD (d.blockOf c y z) (q.scale, q.zp)
  let good := fun (p : Nat × Nat × Nat) => feeds.all fun r => r.ok p.1 p.2.1 p.2.2
  let scan := (List.range d.blocks).map fun b =>
    scanScale d.fmt (.num 1 1 0 false) (d.coords.filterMap fun p =>
      let v := k.pre p.1 p.2.1 p.2.2
      if d.blockOf p.1 p.2.1 p.2.2 = b && good p && !v.nonfinite then some v else none)
  let exceeded := d.fmt.isInt && d.coords.any fun p =>
    good p && exceeds d.fmt q.fact (at_ used p.1 p.2.1 p.2.2).2 (k.code (at_ used p.1 p.2.1 p.2.2) p.1 p.2.1 p.2.2)
  let rerun := exceeded && q.rerun
  let final := if rerun then scan else used
  let e := writeCells x s d (some fun y z => (at_ final (d.c - 1) y z).2) feeds (fun c y z => k.cell (at_ final c y z) c y z)
    { sseValid := sse, carried := true, exceeded := exceeded, rerun := rerun }
  let packets := final.zipIdx.flatMap fun p => packetBytes p.1.1 p.1.2 (if rerun then 3 else 1) (p.2 % 65536)
  { e with
    runs := e.runs ++ (if e.stop.isNone then [(d.scale, packets ++ endMarker)] else [])
    events := e.events ++ (if rerun then [(0x0302, x.cur.opIndex * 65536)] else [])
    carry := some ⟨q.net, q.list, q.op, scan⟩
    stream := some d.scale
    side := if e.stop.isSome then none else side fun c y z => decodeFloat .fp32 (at_ final c y z).1 }

/-- The packet of an element: scale 1 and zero point 0 where the tensor has none. -/
def State.packetAt (s : State) (d : Tensor) (c y z : Nat) : Nat × Int :=
  if d.scaled then s.packet d.scale (d.blockOf c y z) else (0x3F800000, 0)

/-- Whether an operand's scale is dynamic: its stream was written by the part (log 79). -/
def State.dynamicScale (s : State) (t : Tensor) : Bool := t.scaled && s.dynamic.contains t.scale

/-- Whether the output stage takes the derived multiplier of 03 R65: a scale of an operand or of the destination is dynamic, or `force`
says that the operation always converts by the packet of its destination. -/
def stageDynamic (x : Ctx) (s : State) (d : Tensor) (ins : List Tensor) (force : Bool) : Bool :=
  x.op.hasStage && ((force && d.scaled) || s.dynamicScale d || ins.any s.dynamicScale)

/-- The effect of an operation whose results `k` enter an output stage (02 R48, R461): in carried-scale mode by its QUANT entry; with
the derived multiplier of 03 R65 where `force` or a scale of `ins` or of the destination is dynamic, `m` being the product of the
operands' scales; else with the stage's own. The squared error is that of the value past bias and activation (03 R71); it is valid
where the destination's scale is known (log 52). -/
def stageEff (x : Ctx) (s : State) (d : Tensor) (feeds : List Feed) (ins : List Tensor) (force : Bool) (m : Nat → Nat → Nat → EV)
    (k : Nat → Nat → Nat → Pre) : Eff :=
  let o := x.op
  let g := stageOf o.stage
  let stats := o.hasStats && d.scaled
  let derived := fun (p : Nat × Int) c y z =>
    let u := (k c y z).cell o d.fmt (stageFor g (m c y z) p) p.2
    if stats then u.withError o.fmse d.fmt p (((k c y z).real g).mul (m c y z)) else u
  match if o.hasStage && d.scaled then x.carryCfg else none with
  | some q =>
    carriedWrite x s d q feeds ⟨fun c y z => ((k c y z).real g).mul (m c y z), fun p c y z => (k c y z).code (stageFor g (m c y z) p),
      derived⟩ stats
  | none =>
    if stageDynamic x s d ins force then
      writeCells x s d none (if d.scaled then feeds ++ [(s.src d).feed] else feeds)
        (fun c y z => derived (s.packetAt d c y z) c y z) { sseValid := stats }
    else
      let valid := stats && (s.src d).err.isNone
      writeCells x s d none feeds (fun c y z =>
        let p := s.packetAt d c y z
        let u := (k c y z).cell o d.fmt g p.2
        if valid then
          u.withError o.fmse d.fmt p (((k c y z).inUnits g).mul (decodeFloat .fp32 p.1))
        else u) { sseValid := valid }

/-- Whether an operation with an output stage runs in carried-scale mode. -/
def stageCarried (x : Ctx) (d : Tensor) : Bool := x.op.hasStage && d.scaled && x.carryCfg.isSome

/-- The packets an operation with an output stage reads for its destination: for unused positions, for a derived multiplier and for
squared errors. -/
def stageReads (x : Ctx) (d : Tensor) (ins : List Tensor) (force : Bool) : List Span :=
  if !stageCarried x d && (d.padded || stageDynamic x x.s d ins force || x.op.hasStats) then d.scaleSpans else []

/-- The bytes it writes. -/
def stageWrites (x : Ctx) (d : Tensor) : List Span :=
  d.spans ++ statSpans x.op d.blocks ++ (if stageCarried x d then [⟨d.scale, 8 * d.blocks + 8⟩] else [])

/-- The bytes a carried-scale operation writes beside its cells. -/
def carriedSpans (d : Tensor) : List Span := [⟨d.scale, 8 * d.blocks + 8⟩]

/-! ### Weight references (05 R99, 09 R196, R214) -/

/-- The weights of a reference: their format, shape, codes in the order output channel, tap, input channel, scales and outlier
rows. -/
structure WeightSrc where
  fmt : Fmt
  gran : Nat
  cout : Nat
  kh : Nat
  kw : Nat
  cin : Nat
  code : Nat → Nat
  scale : Nat → EV × Int
  /-- the BF16 code of outlier row `i` -/
  row : Nat → Nat

/-- The weights of a section of an image. -/
def Weight.src (w : Weight) (img : List Byte) : WeightSrc :=
  { fmt := w.fmt, gran := if w.packets = 0 then 0 else w.gran, cout := w.cout, kh := w.kh, kw := w.kw, cin := w.cin
    code := packedCode w.fmt img w.codesOff
    scale := fun o => w.scale img (if w.gran = 1 then o else 0)
    row := fun i => leAt img (w.rowsOff + 2 * i) 2 }

/-- The weights of a merged copy in memory (09 R212, R214): its codes; packets never change. -/
def Weight.copySrc (w : Weight) (img : List Byte) (s : State) (addr : Nat) : WeightSrc :=
  { Weight.src w img with code := packedCode w.fmt (s.bytesAt addr (codeBytes w.fmt (w.cout * w.k))) 0 }

/-- The merged copy at an address that serves a thread's picture: of parity PICTURE mod 2, on its die (09 R195, R214). -/
def Ctx.copyAt (x : Ctx) (ref : Nat) : Option MergedCopy :=
  if x.th.isJob then none
  else (x.s.stream x.th.binding).bind fun st =>
    st.copies.find? fun c => c.addr == ref && c.parity == x.cur.picture % 2

/-- The weights a nonzero WEIGHT_REF names: a merged copy by its address, else PSLOT [63:56], zeros, WEIGHT_ID [15:0] (log 20). -/
def Ctx.weightRef (x : Ctx) (ref : Nat) : Except Status WeightSrc :=
  let own := (x.s.threadSlot x.th).bind x.s.slotImage
  match x.copyAt ref, own with
  | some c, some img =>
    match imageWeight img c.weight with
    | some w => .ok (w.copySrc img x.s ref)
    | none => .error .badParam
  | _, _ =>
    let slot := bits ref 56 8
    match if slot < 4 then x.s.slotImage slot else none with
    | none => .error .profileMissing
    | some img =>
      if bits ref 16 40 ≠ 0 then .error .badParam
      else
        match imageWeight img (ref % 65536) with
        | none => .error .badParam
        | some w => if w.packets ≠ 0 && w.gran = 2 then .error .badParam else .ok (w.src img)

/-- Where a copy lies, for the bytes an operation reads. -/
def Ctx.weightSpans (x : Ctx) (ref : Nat) (w : WeightSrc) : List Span :=
  if (x.copyAt ref).isSome then [⟨ref, codeBytes w.fmt (w.cout * w.kh * w.kw * w.cin)⟩] else []

end Sys2Proof.Machine
end

