-- ==== Sys2Proof/Machine/Tensor.lean ====
section
/-! DEFINITION. The tensor operations (05 R98 to R115, R463, R464; 06 R127, R135): matrix products and convolutions, elementwise
operations, reductions, pooling, regrouping, copies and transfers. -/

namespace Sys2Proof.Machine

/-! ### Reductions (02 R41 to R46, 03 R66, R69) -/

/-- An exact sum with what its placements count. -/
structure Acc where
  n : Int
  sat : Nat
  nonfin : Nat
  deriving DecidableEq, Repr

/-- The exact sum of placed values. -/
def sumPlaced (l : List Placed) : Acc := ⟨(l.map (·.n)).sum, (l.map fun p => b01 p.sat).sum, (l.map fun p => b01 p.nonfin).sum⟩

/-- The integer of an integer code's value. -/
def EV.int : EV → Int
  | .num n _ _ _ => n
  | _ => 0

/-- The terms of an output: raw code values of activation and weight, and those of the outlier side path. -/
structure Dot where
  ints : Bool
  za : Int
  /-- the weights' zero point and scale by output channel, and the activation's scale -/
  zw : Nat → Int
  sw : Nat → EV
  sa : EV
  terms : Nat → Nat → Nat → List (EV × EV)
  side : Nat → Nat → Nat → List (EV × EV)
  /-- a sum given whole: an XACC source -/
  whole : Option (Nat → Nat → Nat → Int) := none

/-- The zero-point correction of 03 R66. -/
def correction (za zw : Int) (l : List (EV × EV)) (f : Nat) : Int :=
  (-zw * (l.map fun t => t.1.int).sum - za * (l.map fun t => t.2.int).sum + l.length * za * zw) * 2 ^ f

/-- The exact sum of an output: W + C, the side path's products placed by the float row. -/
def Dot.exact (d : Dot) (f c y x : Nat) : Acc :=
  match d.whole with
  | some w => ⟨w c y x, 0, 0⟩
  | none =>
  let l := d.terms c y x
  let a := sumPlaced (l.map fun t => place f (t.1.mul t.2))
  let b := sumPlaced ((d.side c y x).map fun t => place f (t.1.mul t.2))
  ⟨a.n + b.n + (if d.ints then correction d.za (d.zw c) l f else 0), a.sat + b.sat, a.nonfin + b.nonfin⟩

/-- FP32 sums in groups of 32 after a first group whose length the tiling decides (02 R46). -/
def fp32From (first : Nat) (l : List EV) : EV :=
  if l.isEmpty then .zero
  else fp32Groups (l.length / 32 + 1) (some (treeSum 6 (l.take first))) (l.drop first)

/-- The products of an output for the FP32 accumulator, each rounded to FP32 (02 R46). Those of the side path, which the rule gives no
place in K order, come after the others (DESIGN CHOICE, log 80). -/
def Dot.products (d : Dot) (c y x : Nat) : List EV :=
  let f := fun (t : EV × EV) =>
    roundFP32 (if d.ints then EV.ofInt ((t.1.int - d.za) * (t.2.int - d.zw c)) else t.1.mul t.2)
  (d.terms c y x).map f ++ (d.side c y x).map fun t => roundFP32 (t.1.mul t.2)

/-- The product of the operands' scales for an output channel. -/
def Dot.scale (d : Dot) (c : Nat) : EV := d.sa.mul (d.sw c)

/-- What one output brings to the output stage: the exact sum, or the FP32 accumulator whose first group is as long as the tiling
decides. -/
def Dot.pre (k : Dot) (o : Op) (s : State) (d : Tensor) (c y z : Nat) : Pre :=
  if o.fp32 then .fp o.f (fp32From (1 + Config.freeValue (s.freeCtr + d.index c y z) % 32) (k.products c y z))
  else let a := k.exact o.f c y z; .exact o.f a.n a.sat a.nonfin

/-- The effect of a product operation. -/
def dotEff (x : Ctx) (s : State) (d : Tensor) (feeds : List Feed) (ins : List Tensor) (k : Dot) : Eff :=
  { stageEff x s d feeds ins false (fun c _ _ => k.scale c) (k.pre x.op s d) with draws := if x.op.fp32 then d.count else 0 }

/-- A PER_TENSOR operand of a product: every output needs its one block. -/
def Src.feedAll (a : Src) : Feed := ⟨a, fun _ _ _ => a.goodAt 0 0 0⟩

/-- An operand of weights given as a tensor: an output needs the block of its channel. -/
def Src.feedRows (b : Src) : Feed := ⟨b, fun c _ _ => b.goodAt c 0 0⟩

/-- Operand pairs of 02 R41. -/
def pairOk (a b : Fmt) : Bool := (a.isInt && b.isInt) || (a.isFloat && b.isFloat) || (a.isLns && b.isLns)

/-- The raw value of a code (02 R41: zero points and scales enter apart). -/
def rawValue (f : Fmt) (code : Nat) : EV := decodeCode f 0 code

/-- Whether a tensor may stand in a product: channel-blocked, and its scale one for the tensor (03 R60, 05 R115). -/
def activationOk (a : Tensor) : Bool := a.layout != 0 && (!a.scaled || a.gran == 0)

/-- The outlier side path of an operation: its channels in ascending order, and the number of filter taps and of outputs of a channel's
group. -/
structure SidePath where
  chans : List Nat
  taps : Nat
  outs : Nat

/-- The BF16 row element of outlier `j`, tap `t` and output channel `o`: rows stand by outlier channel, then tap, then output channel of
the outlier's group (DESIGN CHOICE, log 81). -/
def SidePath.rowAt (p : SidePath) (j t o : Nat) : Nat := (j * p.taps + t) * p.outs + o % p.outs

/-- The side path's terms of output channel `o` over the taps `l`: the side tensor's values of the outlier channels from `first`, `n` of
them, with their rows (03 R69). -/
def sideTerms (s : State) (a : Tensor) (w : WeightSrc) (p : SidePath) (first n o : Nat) (l : List (Nat × Nat × Nat)) : List (EV × EV) :=
  match s.sides.find? (·.1 == a.base) with
  | none => []
  | some side =>
    l.flatMap fun t => p.chans.zipIdx.filterMap fun k =>
      if first ≤ k.1 && k.1 < first + n then
        some (decodeFloat .bf16 (side.2.getD ((k.2 * a.h + t.2.1) * a.w + t.2.2) 0), decodeFloat .bf16 (w.row (p.rowAt k.2 t.1 o)))
      else none

/-- Whether a weight's codes at some indices, or its outlier rows, hold an infinity or a NaN (02 R57). -/
def WeightSrc.nonfinite (w : WeightSrc) (codes : List Nat) (p : SidePath) : Bool :=
  (w.fmt.isFloat && codes.any fun i => (decodeFloat w.fmt (w.code i)).nonfinite) ||
    (List.range (p.chans.length * p.taps * p.outs)).any fun i => (decodeFloat .bf16 (w.row i)).nonfinite

/-- MATMUL (05 R463). -/
def matmulWork : OpFn := fun x =>
  let o := x.op
  let a := o.t 0
  let d := o.t 2
  let ref := bits o.own 0 64
  let checks := fun (fmt : Fmt) (shape : Bool) =>
    if !activationOk a || !pairOk a.fmt fmt || !stageAllowed o d then some Status.badParam
    else if !shape || d.h ≠ a.h || d.w ≠ a.w then some .badShape
    else none
  match o.tensors.getD 1 none with
  | some b =>
    if ref ≠ 0 || b.layout = 0 || (b.scaled && b.gran = 2) || o.outliers then .error .badParam
    else
      match checks b.fmt (b.c == d.c && b.h == 1 && b.w == a.c) with
      | some e => .error e
      | none => .ok {
          reads := a.spans ++ a.scaleSpans ++ b.spans ++ b.scaleSpans ++ stageReads x d [a, b] false, writes := stageWrites x d
          run := guardExact x [a, b] fun s =>
            dotEff x s d [(s.src a).feedAll, (s.src b).feedRows] [a, b] {
              ints := a.fmt.isInt, za := (s.scaleAt a 0 0 0).2, zw := fun n => (s.scaleAt b n 0 0).2
              sa := (s.scaleAt a 0 0 0).1, sw := fun n => (s.scaleAt b n 0 0).1
              terms := fun n y z => (List.range a.c).map fun k =>
                (rawValue a.fmt (s.code a k y z), rawValue b.fmt (s.code b n 0 k))
              side := fun _ _ _ => [] } }
  | none =>
    if ref = 0 then .error .badParam
    else
      match x.weightRef ref, x.outliers with
      | .error e, _ => .error e
      | _, .error e => .error e
      | .ok w, .ok chans =>
        let path : SidePath := ⟨chans, 1, d.c⟩
        match checks w.fmt (w.cout == d.c && w.kh == 1 && w.kw == 1 && w.cin == a.c) with
        | some e => .error e
        | none => .ok {
            reads := a.spans ++ a.scaleSpans ++ x.weightSpans ref w ++ stageReads x d [a] false, writes := stageWrites x d
            run := guardWhen x (fun s => s.anyNonfinite a || w.nonfinite (List.range (d.c * a.c)) path) fun s =>
              dotEff x s d [(s.src a).feedAll] [a] {
                ints := a.fmt.isInt, za := (s.scaleAt a 0 0 0).2, zw := fun n => (w.scale n).2
                sa := (s.scaleAt a 0 0 0).1, sw := fun n => (w.scale n).1
                terms := fun n y z => (List.range a.c).map fun k =>
                  (rawValue a.fmt (s.code a k y z), rawValue w.fmt (w.code (n * a.c + k)))
                side := fun n y z => sideTerms s a w path 0 a.c n [(0, y, z)] } }

/-- A convolution whose outputs each read `cg` input channels from `first o`, `outs` outputs to a group, with the weights' shape and the
group rules checked by `shape` (05 R99, R102 to R106). A padded tap is never fetched (05 R105) and takes no place in the FP32 groups
of 02 R46 (DESIGN CHOICE, log 80). -/
def convWork (x : Ctx) (param shape : Bool) (cg outs : Nat) (first : Nat → Nat) : Except Status Work :=
  let o := x.op
  let a := o.t 0
  let d := o.t 1
  let v := windowOf o.own
  let ref := bits o.own weightBit 64
  if !v.inRange false || bits o.own windowBits (weightBit - windowBits) ≠ 0 || !param || !activationOk a || !stageAllowed o d then .error .badParam
  else
    match x.weightRef ref, x.outliers with
    | .error e, _ => .error e
    | _, .error e => .error e
    | .ok w, .ok chans =>
      if !pairOk a.fmt w.fmt then .error .badParam
      else if !shape || w.cout ≠ d.c || w.kh ≠ v.kh || w.kw ≠ v.kw || w.cin ≠ cg || !v.fits a d.h d.w || v.kh * v.kw * cg > 2 ^ 24 then
        .error .badShape
      else
        let path : SidePath := ⟨chans, v.kh * v.kw, outs⟩
        let used := fun (_ : State) => dedup ((List.range d.h).flatMap fun y => (List.range d.w).flatMap fun z => (v.taps a y z).map (·.1))
        let codes := fun (s : State) =>
          (List.range d.c).flatMap fun n => (used s).flatMap fun t => (List.range cg).map fun c => (n * v.kh * v.kw + t) * cg + c
        .ok {
        reads := v.spans a d.h d.w ++ a.scaleSpans ++ x.weightSpans ref w ++ stageReads x d [a] false, writes := stageWrites x d
        run := guardWhen x (fun s => w.nonfinite (codes s) path) <| guardAt x a (fun _ => v.positions a d.h d.w) fun s =>
          dotEff x s d [(s.src a).feedAll] [a] {
            ints := a.fmt.isInt, za := (s.scaleAt a 0 0 0).2, zw := fun n => (w.scale n).2
            sa := (s.scaleAt a 0 0 0).1, sw := fun n => (w.scale n).1
            terms := fun n y z => (v.taps a y z).flatMap fun t => (List.range cg).map fun c =>
              (rawValue a.fmt (s.code a (first n + c) t.2.1 t.2.2), rawValue w.fmt (w.code ((n * v.kh * v.kw + t.1) * cg + c)))
            side := fun n y z => sideTerms s a w path (first n) cg n (v.taps a y z) } }

/-- CONV (05 R101 to R105). -/
def convFn : OpFn := fun x =>
  let v := windowOf x.op.own
  convWork x (v.groups == 1 && v.depth == 1) true (x.op.t 0).c (max 1 (x.op.t 1).c) fun _ => 0

/-- DWCONV (05 R106). -/
def dwconvFn : OpFn := fun x =>
  let v := windowOf x.op.own
  convWork x (1 ≤ v.depth && v.depth ≤ 8) (v.groups == (x.op.t 0).c && (x.op.t 1).c == (x.op.t 0).c * v.depth) 1 (max 1 v.depth)
    fun n => n / v.depth

/-- GCONV (05 R106). -/
def gconvFn : OpFn := fun x =>
  let v := windowOf x.op.own
  let cin := (x.op.t 0).c
  let cout := (x.op.t 1).c
  let g := max v.groups 1
  convWork x (v.depth == 1 && cin / g ≤ 64)
    (2 ≤ v.groups && v.groups ≤ cin && cin % g == 0 && cout % g == 0) (cin / g) (max 1 (cout / g))
    fun n => n / (max 1 (cout / g)) * (cin / g)

/-- An element of a list by a free value, and the rest. -/
def pickOut (l : List EV) (n : Nat) : EV × List EV := (l.getD (n % max 1 l.length) .zero, l.eraseIdx (n % max 1 l.length))

/-- FP32 partials combined by any binary tree (02 R46): free values choose which two are added next. -/
def freeTree : Nat → Nat → List EV → EV
  | 0, _, l => l.headD .zero
  | k + 1, ctr, l =>
    if l.length ≤ 1 then l.headD .zero
    else
      let a := pickOut l (Config.freeValue ctr)
      let b := pickOut a.2 (Config.freeValue (ctr + 1))
      freeTree k (ctr + 2) (fpAdd a.1 b.1 :: b.2)

/-- SPLITK_REDUCE (05 R98). -/
def splitkWork : OpFn := fun x =>
  let o := x.op
  let ps := (List.range (o.tensors.length - 1)).map o.t
  let d := o.t (o.tensors.length - 1)
  let want := if o.fp32 then Fmt.fp32 else Fmt.xacc
  if ps.any (fun t => t.fmt != want) || !stageAllowed o d then .error .badParam
  else if ps.any fun t => !t.sameShape d then .error .badShape
  else .ok {
    reads := ps.flatMap Tensor.spans ++ stageReads x d [] false, writes := stageWrites x d
    run := guardExact x ps fun s =>
      let n := 2 * (ps.length - 1)
      { stageEff x s d [] [] false (fun _ _ _ => EV.one) (fun c y z =>
          if o.fp32 then .fp o.f (freeTree ps.length (s.freeCtr + n * d.index c y z) (ps.map fun t => s.real t o.f c y z))
          else .exact o.f (ps.map fun t => signed 64 (s.code t c y z)).sum 0 0) with
        draws := if o.fp32 then n * d.count else 0 } }

/-! ### Elementwise (05 R111, R464) -/

/-- The exact sum of two values as a result: exact where both are rational multiples of one power, else by enclosures. -/
def EV.addReal (a b : EV) : SRes :=
  match a, b with
  | .num n d k z, .num n' d' k' z' =>
    if n = 0 ∧ n' ≠ 0 then .exact b
    else if n' = 0 ∧ n ≠ 0 then .exact a
    else if (k - k') % 256 = 0 then .exact (a.addExact b)
    else
      let neg := if (n < 0) = (n' < 0) then decide (n < 0)
        else if magLe n.natAbs d k n'.natAbs d' k' then decide (n' < 0) else decide (n < 0)
      .enc neg (below := false) fun p =>
        let v := (encEV p (.num n d k z)).add (encEV p (.num n' d' k' z'))
        (if neg then v.neg else v).pos
  | _, _ => .exact (a.addExact b)

/-- A result placed on the grid (02 R41, R460). -/
def placeRes (f : Nat) : SRes → Placed
  | .exact v => place f v
  | .enc neg g _ =>
    let n := roundEncInt neg g f
    let c := clampInt n (-(gridLimit : Int)) gridLimit
    ⟨c, c != n, false⟩

/-- A result rounded once to FP32. -/
def roundRes : SRes → EV
  | .exact v => roundFP32 v
  | r => decodeFloat .fp32 (roundSRes .fp32 false (.num 1 1 0 false) 0 r).code

/-- A result squared. -/
def SRes.square : SRes → SRes
  | .exact v => .exact (v.mul v)
  | .enc _ g below => .enc false (fun p => Iv.mul p (g p) (g p)) below

/-- The greater or the lesser of two values; a NaN wins (05 R464). -/
def selectEV (greatest : Bool) (a b : EV) : EV :=
  if a = .nan ∨ b = .nan then .nan
  else if greatest then (if EV.gt b a then b else a) else (if EV.gt a b then b else a)

/-- The functions of ELTWISE on exact values. -/
def eltValue (func : Nat) (a b : EV) : SRes :=
  match func with
  | 0 => a.addReal b
  | 1 => a.addReal b.neg
  | 2 => .exact (a.mul b)
  | 3 => .exact (selectEV true a b)
  | 4 => .exact (selectEV false a b)
  | 5 => .exact a.abs
  | 6 => .exact a.neg
  | _ => (a.addReal b.neg).square

/-- A value placed; an XACC value lies on the grid already and is taken unchanged (02 R460, 05 R108). -/
def placeOf (f : Nat) (fmt : Fmt) (code : Nat) (v : EV) : Placed :=
  if fmt = .xacc then ⟨signed 64 code, false, false⟩ else place f v

/-- An operand of ELTWISE ADD and SUB placed: held in 48 bits, an XACC operand too (02 R42, 05 R111). -/
def placeHeld (f : Nat) (fmt : Fmt) (code : Nat) (v : EV) : Placed :=
  let p := placeOf f fmt code v
  let n := clampInt p.n (-(gridLimit : Int)) gridLimit
  ⟨n, p.sat || n != p.n, p.nonfin⟩

/-- The index of a broadcast axis. -/
def bcast (n i : Nat) : Nat := if n = 1 then 0 else i

/-- Sizes that go together on an axis. -/
def axisOk (a b d : Nat) : Bool := (a == b || a == 1 || b == 1) && d == max a b

/-- What FUNC of ELTWISE gives on the grid for two elements, each a format, a code and a real value (05 R111). -/
def eltExact (func f : Nat) (a b : Fmt × Nat × EV) : Placed :=
  if func ≤ 1 then
    let p := placeHeld f a.1 a.2.1 a.2.2
    let q := placeHeld f b.1 b.2.1 b.2.2
    ⟨if func = 0 then p.n + q.n else p.n - q.n, p.sat || q.sat, p.nonfin || q.nonfin⟩
  else
    match eltValue func a.2.2 b.2.2 with
    | .exact v =>
      if func = 5 ∧ a.1 = .xacc then ⟨((signed 64 a.2.1).natAbs : Int), false, false⟩
      else if func = 6 ∧ a.1 = .xacc then ⟨-(signed 64 a.2.1), false, false⟩
      else if (func = 3 ∨ func = 4) ∧ a.1 = .xacc ∧ v = a.2.2 then placeOf f a.1 a.2.1 v
      else if (func = 3 ∨ func = 4) ∧ b.1 = .xacc ∧ v = b.2.2 then placeOf f b.1 b.2.1 v
      else place f v
    | r => placeRes f r

/-- How many saturations, and how many non-finite values, ADD and SUB count: one for each operand. -/
def eltCounts (func f : Nat) (a b : Fmt × Nat × EV) : Nat × Nat :=
  let p := placeHeld f a.1 a.2.1 a.2.2
  let q := placeHeld f b.1 b.2.1 b.2.2
  let r := eltExact func f a b
  if func ≤ 1 then (b01 p.sat + b01 q.sat, b01 p.nonfin + b01 q.nonfin) else (b01 r.sat, b01 r.nonfin)

/-- ELTWISE (05 R111). MUL and SQDIFF of operands of different families, which 02 R41 keeps apart and 05 R98 admits, place the exact
product (DESIGN CHOICE, log 82). -/
def eltwiseWork : OpFn := fun x =>
  let o := x.op
  let func := bits o.own 0 4
  let a := o.t 0
  let d := o.t 2
  let unary := func = 5 ∨ func = 6
  let second := o.tensors.getD 1 none
  let b := second.getD a
  let both := second.isSome
  if 7 < func || (if unary then both else !both) || !stageAllowed o d then .error .badParam
  else if !(axisOk a.c b.c d.c && axisOk a.h b.h d.h && axisOk a.w b.w d.w) then .error .badShape
  else .ok {
    reads := a.spans ++ a.scaleSpans ++ (if both then b.spans ++ b.scaleSpans else []) ++ stageReads x d [] false
    writes := stageWrites x d
    run := guardExact x [a, b] fun s =>
      let at_ := fun (t : Tensor) (c y z : Nat) => (bcast t.c c, bcast t.h y, bcast t.w z)
      let elem := fun (t : Tensor) (c y z : Nat) =>
        let p := at_ t c y z
        (t.fmt, s.code t p.1 p.2.1 p.2.2, s.real t o.f p.1 p.2.1 p.2.2)
      let feed := fun (t : Tensor) => (⟨s.src t, fun c y z => let p := at_ t c y z; (s.src t).goodAt p.1 p.2.1 p.2.2⟩ : Feed)
      stageEff x s d (if both then [feed a, feed b] else [feed a]) [] false (fun _ _ _ => EV.one) fun c y z =>
        if o.fp32 then .fp o.f (roundRes (eltValue func (elem a c y z).2.2 (elem b c y z).2.2))
        else
          let k := eltCounts func o.f (elem a c y z) (elem b c y z)
          .exact o.f (eltExact func o.f (elem a c y z) (elem b c y z)).n k.1 k.2 }

/-! ### Reductions over axes (05 R112) -/

/-- Which axes an AXES code reduces: C, H, W. -/
def reducedAxes : Nat → Option (Bool × Bool × Bool)
  | 0 => some (true, false, false) | 1 => some (false, true, false) | 2 => some (false, false, true)
  | 3 => some (false, true, true) | 4 => some (true, true, true) | _ => none

/-- The inputs of an output, in the order C, H, W. -/
def reduceInputs (t : Tensor) (ax : Bool × Bool × Bool) (c y z : Nat) : List (Nat × Nat × Nat) :=
  (if ax.1 then List.range t.c else [c]).flatMap fun i =>
    (if ax.2.1 then List.range t.h else [y]).flatMap fun j =>
      (if ax.2.2 then List.range t.w else [z]).map fun k => (i, j, k)

/-- The place of the selected value of a list: the first NaN, else the first of the extremes (05 R107, R112, R464). -/
def selectIdx (greatest : Bool) (l : List EV) : Nat :=
  match l.findIdx? (· == .nan) with
  | some i => i
  | none =>
    (l.zipIdx.foldl (fun (b : Nat × EV) v =>
      if (if greatest then EV.gt v.1 b.2 else EV.gt b.2 v.1) then (v.2, v.1) else b) (0, l.headD .zero)).1

/-- The code a selection copies: the canonical NaN for a NaN (05 R464). -/
def copiedCode (f : Fmt) (code : Nat) : Nat :=
  if f.isFloat && decodeFloat f code == .nan then f.nanCode else code

/-- Whether REDUCE MAX and MIN copy the selected code. -/
def reduceCopies (o : Op) (a d : Tensor) : Bool :=
  !o.hasStage && d.fmt == a.fmt && (if a.scaled then a.gran == 0 && d.gran == 0 && d.scale == a.scale else !d.scaled)

/-- An operation outside both lists of 02 R461 that carries an output stage: the fields of the stage are descriptor fields of
its destination, checked by 02 R48 and 05 R97, and nothing applies them (log 36). -/
def idleStage (f : OpFn) : OpFn := fun x =>
  if x.op.hasStage && !stageFits x.op.stage (x.op.t (x.op.tensors.length - 1)).fmt then .error .badParam else f x

/-- REDUCE (05 R112). MAX and MIN that do not copy place the value selected, whatever ACC says; the limit of 02 R43 holds for exact sums. -/
def reduceWork : OpFn := fun x =>
  let o := x.op
  let func := bits o.own 0 4
  let a := o.t 0
  let d := o.t 1
  match reducedAxes (bits o.own 4 4) with
  | none => .error .badParam
  | some ax =>
    let n := (if ax.1 then a.c else 1) * (if ax.2.1 then a.h else 1) * (if ax.2.2 then a.w else 1)
    let select := func = 3 ∨ func = 4
    let copies := select && reduceCopies o a d
    let arg := func = 5 ∨ func = 6
    let fp := o.fp32 && func ≤ 2
    if 6 < func then .error .badParam
    else if (if arg then d.fmt != .xacc || o.f != 0 || o.hasStage else !copies && !stageAllowedFor fp o d) then .error .badParam
    else if d.c ≠ (if ax.1 then 1 else a.c) || d.h ≠ (if ax.2.1 then 1 else a.h) || d.w ≠ (if ax.2.2 then 1 else a.w) ||
        (func ≤ 2 && !fp && n > 2 ^ 24) then .error .badShape
    else .ok {
      reads := a.spans ++ a.scaleSpans ++ (if copies then d.scaleSpans else stageReads x d [] false)
      writes := if copies then d.spans ++ statSpans o d.blocks else stageWrites x d
      run := guardExact x [a] fun s =>
        let sa := s.src a
        let ins := fun c y z => reduceInputs a ax c y z
        let vals := fun c y z => (ins c y z).map fun p => s.real a o.f p.1 p.2.1 p.2.2
        let feed : Feed := ⟨sa, fun c y z => (ins c y z).all fun p => sa.goodAt p.1 p.2.1 p.2.2⟩
        let pick := fun c y z => (ins c y z).getD (selectIdx (func = 3 ∨ func = 5) (vals c y z)) (0, 0, 0)
        let placed := fun (p : Nat × Nat × Nat) =>
          let v := s.real a o.f p.1 p.2.1 p.2.2
          if func = 1 then place o.f (v.mul v) else placeOf o.f a.fmt (s.code a p.1 p.2.1 p.2.2) v
        if arg then writeCells x s d none [feed] fun c y z => { code := selectIdx (func = 5) (vals c y z) }
        else if copies then writeCells x s d none [feed] fun c y z =>
          let p := pick c y z
          copiedCell d.fmt (copiedCode a.fmt (s.code a p.1 p.2.1 p.2.2))
        else
          { stageEff x s d [feed] [] false (fun _ _ _ => EV.one) (fun c y z =>
              if select then let q := placed (pick c y z); .exact o.f q.n (b01 q.sat) (b01 q.nonfin)
              else if fp then
                let l := (vals c y z).map fun v => roundFP32 (if func = 1 then v.mul v else v)
                let t := fp32From (1 + Config.freeValue (s.freeCtr + d.index c y z) % 32) l
                .fp o.f (if func = 2 then roundFP32 (t.divPos (.num n 1 0 false)) else t)
              else
                let t := sumPlaced ((ins c y z).map placed)
                .exact o.f (if func = 2 then rneDiv t.n n else t.n) t.sat t.nonfin) with
            draws := if fp then d.count else 0 } }

/-! ### Pooling (05 R107, R108) -/

/-- The same format and scale stream: equal SCALE_ADDR, granularity and block (05 R109, R110). -/
def sameStream (a d : Tensor) : Bool :=
  a.fmt == d.fmt && a.scale == d.scale && (!a.scaled || (a.gran == d.gran && (a.gran != 2 || a.block == d.block)))

/-- POOL_MAX (05 R107). -/
def poolMaxWork : OpFn := idleStage fun x =>
  let o := x.op
  let a := o.t 0
  let d := o.t 1
  let v := windowOf o.own
  if !v.inRange true || v.depth ≠ 1 || !sameStream a d || d.layout ≠ a.layout then .error .badParam
  else if d.c ≠ a.c || !v.fits a d.h d.w then .error .badShape
  else .ok {
    reads := v.spans a d.h d.w ++ a.scaleSpans, writes := d.spans ++ statSpans o d.blocks
    run := guardAt x a (fun _ => v.positions a d.h d.w) fun s =>
      let sa := s.src a
      let feed : Feed := ⟨sa, fun c y z => sa.goodAt c 0 0 && (v.taps a y z).all fun t => sa.goodAt c t.2.1 t.2.2⟩
      writeCells x s d none [feed] fun c y z =>
        let ts := v.taps a y z
        let codes := ts.map fun t => s.code a c t.2.1 t.2.2
        let vals := ts.map fun t =>
          if a.fmt.isInt then rawValue a.fmt (s.code a c t.2.1 t.2.2) else s.real a o.f c t.2.1 t.2.2
        copiedCell a.fmt (if ts = [] then a.fmt.zeroCode (s.scaleAt d c y z).2
                          else copiedCode a.fmt (codes.getD (selectIdx true vals) 0)) }

/-- POOL_AVG (05 R108): a code of a scaled tensor enters without its scale. -/
def poolAvgWork : OpFn := fun x =>
  let o := x.op
  let a := o.t 0
  let d := o.t 1
  let v := windowOf o.own
  if !v.inRange true || v.depth ≠ 1 || !stageAllowed o d then .error .badParam
  else if d.c ≠ a.c || !v.fits a d.h d.w then .error .badShape
  else .ok {
    reads := v.spans a d.h d.w ++ a.scaleSpans ++ stageReads x d [a] false, writes := stageWrites x d
    run := guardAt x a (fun _ => v.positions a d.h d.w) fun s =>
      let sa := s.src a
      let taps := fun y z => v.taps a y z
      let feed : Feed := ⟨sa, fun c y z => (taps y z).all fun t => sa.goodAt c t.2.1 t.2.2⟩
      let scale := fun (c y z : Nat) => match taps y z with
        | t :: _ => (s.scaleAt a c t.2.1 t.2.2).1
        | [] => (s.scaleAt a c 0 0).1
      stageEff x s d [feed] [a] false scale fun c y z =>
        let ts := taps y z
        let t := sumPlaced (ts.map fun t =>
          let code := s.code a c t.2.1 t.2.2
          if a.fmt.isInt then place o.f (.ofInt (signed a.fmt.width code - (s.scaleAt a c t.2.1 t.2.2).2))
          else placeOf o.f a.fmt code (rawValue a.fmt code))
        let n := if v.countPad then v.kh * v.kw else ts.length
        .exact o.f (if n = 0 then 0 else rneDiv t.n n) t.sat t.nonfin }

/-! ### Regrouping (05 R109, R110) -/

/-- A movement of codes, each from the place of an input that `src` gives: a scaled input's stream is consumed (03 R77), and nothing is
converted. -/
def moveWork (x : Ctx) (ins : List Tensor) (d : Tensor) (src : Nat → Nat → Nat → Tensor × Nat × Nat × Nat) : Work :=
  { reads := ins.flatMap (fun t => t.spans ++ t.scaleSpans) ++ padReads d, writes := d.spans
    run := guardExact x ins fun s =>
      let feed := fun (t : Tensor) => (⟨s.src t, fun c y z =>
        let p := src c y z
        p.1 != t || (s.src t).goodAt p.2.1 p.2.2.1 p.2.2.2⟩ : Feed)
      let all := withOwn s d true (ins.map feed)
      { runs := cellRuns s d none (feedCells d all fun c y z => let p := src c y z; { code := s.code p.1 p.2.1 p.2.2.1 p.2.2.2 })
        stop := feedStop d all } }

/-- The block sizes of regrouping. -/
def blockSizes : List Nat := [2, 4, 8]

/-- The same format and scale stream, and none per channel (05 R109). -/
def regroupOk (a d : Tensor) : Bool := sameStream a d && (!a.scaled || a.gran != 1)

/-- S2D (05 R109). -/
def s2dWork : OpFn := idleStage fun x =>
  let a := x.op.t 0
  let d := x.op.t 1
  let b := x.op.own
  if !blockSizes.contains b || !regroupOk a d then .error .badParam
  else if a.h % b ≠ 0 || a.w % b ≠ 0 || a.c * b * b > 65535 || d.c ≠ a.c * b * b || d.h ≠ a.h / b || d.w ≠ a.w / b then
    .error .badShape
  else .ok (moveWork x [a] d fun c y z => (a, c % a.c, y * b + c / a.c / b, z * b + c / a.c % b))

/-- D2S, the inverse (05 R109). -/
def d2sWork : OpFn := idleStage fun x =>
  let a := x.op.t 0
  let d := x.op.t 1
  let b := x.op.own
  if !blockSizes.contains b || !regroupOk a d then .error .badParam
  else if a.c % (b * b) ≠ 0 || d.c ≠ a.c / (b * b) || d.h ≠ a.h * b || d.w ≠ a.w * b then .error .badShape
  else .ok (moveWork x [a] d fun c y z => (a, (y % b * b + z % b) * d.c + c, y / b, z / b))

/-- UPSAMPLE (05 R110). -/
def upsampleWork : OpFn := idleStage fun x =>
  let a := x.op.t 0
  let d := x.op.t 1
  let b := x.op.own
  if !blockSizes.contains b || a.fmt ≠ d.fmt then .error .badParam
  else if d.c ≠ a.c || d.h ≠ a.h * b || d.w ≠ a.w * b then .error .badShape
  else .ok (moveWork x [a] d fun c y z => (a, c, y / b, z / b))

/-- TRANSPOSE (05 R110): AXES 0 exchanges C and H, 1 C and W, 2 H and W (log 21). -/
def transposeWork : OpFn := idleStage fun x =>
  let a := x.op.t 0
  let d := x.op.t 1
  let ax := x.op.own
  let back := fun (c y z : Nat) => match ax with
    | 0 => (y, c, z)
    | 1 => (z, y, c)
    | _ => (c, z, y)
  if ax = 3 || a.fmt ≠ d.fmt then .error .badParam
  else if back a.c a.h a.w ≠ (d.c, d.h, d.w) then .error .badShape
  else .ok (moveWork x [a] d fun c y z => (a, back c y z))

/-- The input of a concatenation that holds a channel, and the channel there. -/
def concatAt : List Tensor → Nat → Option (Tensor × Nat)
  | [], _ => none
  | t :: ts, c => if c < t.c then some (t, c) else concatAt ts (c - t.c)

/-- CONCAT (05 R110). -/
def concatWork : OpFn := idleStage fun x =>
  let ps := (List.range (x.op.tensors.length - 1)).map x.op.t
  let d := x.op.t (x.op.tensors.length - 1)
  let a := ps.headD d
  if ps.any (fun t => t.h != a.h || t.w != a.w || t.fmt != a.fmt) || d.h ≠ a.h || d.w ≠ a.w || d.c ≠ (ps.map (·.c)).sum then
    .error .badShape
  else if d.fmt ≠ a.fmt then .error .badParam
  else if (d :: ps).any fun t => t.scaled != a.scaled || (a.scaled && (t.gran != a.gran || (a.gran == 2 && t.block != a.block))) then
    .error .badParam
  else if a.fmt.isInt && (ps.any fun t => t.gran != 0 || t.scale != a.scale) then .error .badParam
  else .ok (moveWork x ps d fun c y z => match concatAt ps c with
    | some (t, i) => (t, i, y, z)
    | none => (a, 0, y, z))

/-! ### Copies and transfers (05 R110; 06 R127, R135, R145) -/

/-- COPY, LOAD and STORE between their operands: a move of codes where both are unscaled or share a stream, an XACC source through the
output stage, else a conversion of each element (05 R110, 02 R54, 03 R62). -/
def copyWork : OpFn := fun x =>
  let o := x.op
  let a := o.t 0
  let d := o.t 1
  let xacc := a.fmt = Fmt.xacc
  if !a.sameShape d then .error .badShape
  else if sameStream a d then .ok {
    reads := a.spans ++ a.scaleSpans ++ padReads d, writes := d.spans ++ statSpans o d.blocks
    run := guardExact x [a] fun s =>
      writeCells x s d none [(s.src a).feed] fun c y z =>
        { copiedCell d.fmt (s.code a c y z) with nonfin := b01 (s.nonfiniteAt a c y z) } }
  else if xacc && !(o.hasStage && stageFits o.stage d.fmt) then .error .badParam
  else if xacc then .ok {
    reads := a.spans ++ stageReads x d [] true, writes := stageWrites x d
    run := fun s => stageEff x s d [] [] true (fun _ _ _ => EV.one) fun c y z => .exact o.f (signed 64 (s.code a c y z)) 0 0 }
  else .ok {
    reads := a.spans ++ a.scaleSpans ++ d.scaleSpans, writes := d.spans ++ statSpans o d.blocks
    run := guardExact x [a] fun s =>
      let wide := widerFloat a.fmt d.fmt && !a.scaled && !d.scaled
      writeCells x s d none [(s.src a).feed, (s.src d).feed] fun c y z =>
        convertCell d.fmt o.f o.satMode wide (s.packetAt d c y z) none (s.real a o.f c y z) }

/-- Whether a tensor lies wholly in its thread's scratchpad, or wholly outside it. -/
def tensorInside (t : ThreadId) (a : Tensor) : Bool := a.spans.all (inOwnScratch t)
def tensorOutside (t : ThreadId) (a : Tensor) : Bool := a.room = 2 ^ 64 && a.spans.all fun sp => !sp.overlaps (ownScratch t)

/-- A copy whose one operand lies in the thread's scratchpad and whose other lies outside it. An operand that runs across the end of
the scratchpad crosses from one range into another (06 R122, R127). -/
def crossingCopy (inside outside : Tensor) : OpFn := fun x =>
  let t := x.th.id
  if tensorOutside t inside || tensorInside t outside then .error .badParam
  else if tensorInside t inside && tensorOutside t outside then copyWork x
  else .error .badAddress

/-- LOAD: from outside the scratchpad into it (06 R127). -/
def loadWork : OpFn := fun x => crossingCopy (x.op.t 1) (x.op.t 0) x

/-- STORE: from the scratchpad to outside it (06 R127). -/
def storeWork : OpFn := fun x => crossingCopy (x.op.t 0) (x.op.t 1) x

/-- Memories that serve indivisible adds (06 R133, R135). -/
def addable (s : State) (sp : Span) : Bool :=
  match locate s.dieCount sp.base with
  | .scratch .. | .partner .. => false
  | _ => true

/-- ATOMIC_ADD (06 R135). -/
def atomicAddWork : OpFn := idleStage fun x =>
  let a := x.op.t 0
  let d := x.op.t 1
  if a.fmt ≠ d.fmt || !(a.fmt = Fmt.xacc || a.fmt = .fp32) || !tensorInside x.th.id a || !(d.spans.all (addable x.s)) then .error .badParam
  else if !a.sameShape d then .error .badShape
  else .ok {
    reads := a.spans, writes := d.spans, vary := a.fmt == .fp32
    run := guardExact x [a] fun s =>
      { runs := d.coords.map fun p =>
          let u := s.code a p.1 p.2.1 p.2.2
          let v := s.code d p.1 p.2.1 p.2.2
          let addr := d.base + d.bitOff p.1 p.2.1 p.2.2 / 8
          if a.fmt = Fmt.xacc then (addr, leBytes 8 (u + v))
          else (addr, leBytes 4 (convertEV .fp32 0 false true 0
            ((decodeFloat .fp32 v).addExact (decodeFloat .fp32 u))).code) } }

/-- Rotations of Sesame (06 R144). -/
def sesameRot : List (Nat × Nat) := [(13, 17), (29, 5), (11, 23), (7, 19), (3, 27), (21, 9), (15, 25), (31, 1)]

/-- Sesame (06 R144). -/
def sesame (seed stream worker step index : Nat) : BitVec 32 :=
  let w := fun (n : Nat) => BitVec.ofNat 32 n
  let k0 := w seed
  let k1 := w (seed / 2 ^ 32)
  let k := fun (i : Nat) => if i % 3 = 0 then k0 else if i % 3 = 1 then k1 else k0 ^^^ k1 ^^^ 0x5E5A3E1D#32
  let start := (w stream + k 0, w (worker % 65536 * 65536 + index / 2 ^ 32 % 65536) + k 1, w step + k 2, w index + k 0)
  let r := sesameRot.zipIdx.foldl (fun (x : BitVec 32 × BitVec 32 × BitVec 32 × BitVec 32) (ro : (Nat × Nat) × Nat) =>
    let x0 := x.1 + x.2.1
    let x1 := x.2.1.rotateLeft ro.1.1 ^^^ x0
    let x2 := x.2.2.1 + x.2.2.2
    let x3 := x.2.2.2.rotateLeft ro.1.2 ^^^ x2
    let i := (ro.2 + 1) / 2
    if ro.2 % 2 = 1 then (x0 + k i, x3 + k (i + 1), x2 + k (i + 2), x1 + k i + w i) else (x0, x3, x2, x1)) start
  r.1 ^^^ r.2.2.1

/-- The FP32 code RNG writes for a Sesame word (06 R145). -/
def rngCode (dist : Nat) (u : Nat) : Nat :=
  let v : Int := (u / 256 : Nat)
  match dist with
  | 0 => u
  | 1 => (toFloat .fp32 true v (2 ^ 24) 0 false).code
  | _ => (toFloat .fp32 true (v - 2 ^ 23) (2 ^ 24) 0 false).code

/-- RNG (06 R145). -/
def rngWork : OpFn := idleStage fun x =>
  let n := x.op.own
  let d := x.op.t 0
  let idx := bits n 144 64
  let dist := bits n 208 8
  if d.fmt ≠ .fp32 || 2 < dist || 2 ^ 48 < idx + d.count then .error .badParam
  else .ok {
    reads := [], writes := d.spans
    run := fun s =>
      { runs := tensorRuns s d (fun c y z =>
          some (rngCode dist (sesame (bits n 0 64) (bits n 64 32) (bits n 96 16) (bits n 112 32) (idx + d.index c y z)).toNat))
          fun _ _ => some 0 } }

end Sys2Proof.Machine
end

