-- ==== Sys2Proof/Machine/Convert.lean ====
section
/-! DEFINITION. Conversions that use a scale (03 R59 to R69, R74 to R76, R462) and the special-function slice's operations (04 R79 to
R87; 05 R113). -/

namespace Sys2Proof.Machine

/-! ### QSCAN, QCONV, REQUANT -/

/-- Formats a scan may aim at. -/
def scanTarget (f : Fmt) : Bool := !f.neverScaled

/-- A shrink factor in (0, 1] (03 R64). -/
def candidateOk (c : Nat) : Bool := c != 0 && c ≤ 0x3F800000

/-- The value of candidate `i`. -/
def candidateAt (own i : Nat) : EV := decodeFloat .fp32 (bits own (32 + 32 * i) 32)

/-- What a scan finds for a block: scale and zero point, candidate, and what its trial conversion counts (none without
candidates). -/
def scanBlock (f : Fmt) (own n : Nat) (fmse : Nat) (vals : List EV) : (Nat × Int) × Nat × Tally :=
  if n = 0 then (scanScale f (.num 1 1 0 false) vals, 0, {})
  else
    let all := (List.range n).map fun i =>
      let p := scanScale f (candidateAt own i) vals
      (p, i, tallyOf (vals.map (convertCell f 0 true false p (some fmse))))
    all.foldl (fun b e => if e.2.2.sse < b.2.2.sse then e else b) (all.headD ((0x3F800000, 0), 0, {}))

/-- The candidate most blocks chose, the lowest index on a tie (03 R71). -/
def mostChosen (l : List Nat) : Nat :=
  (List.range 4).foldl (fun b i => if l.count i > l.count b then i else b) 0

/-- QSCAN (03 R63, R64, R69, R462). -/
def qscanWork : OpFn := fun x =>
  let o := x.op
  let a := o.t 0
  let t := o.t 1
  let n := bits o.own 0 8
  if 4 < n || bits o.own 8 24 ≠ 0 || ((List.range n).any fun i => !candidateOk (bits o.own (32 + 32 * i) 32)) || !scanTarget t.fmt ||
      t.scale = 0 || (n ≠ 0 && 62 < o.fmse) then .error .badParam
  else
    match x.outliers with
    | .error e => .error e
    | .ok chans =>
      if !a.sameShape t then .error .badShape
      else .ok {
        reads := a.spans ++ a.scaleSpans, writes := ⟨t.scale, 8 * t.blocks + 8⟩ :: statSpans o t.blocks
        run := guardExact x [a] fun s =>
          let sa := s.src a
          let inBlock := fun (b : Nat) => t.coords.filter fun p => t.blockOf p.1 p.2.1 p.2.2 == b
          let good := fun (b : Nat) => (inBlock b).all fun p => sa.goodAt p.1 p.2.1 p.2.2
          let upto := ((List.range t.blocks).find? fun b => !good b).getD t.blocks
          let vals := fun (b : Nat) => (inBlock b).filterMap fun p =>
            let v := s.real a o.f p.1 p.2.1 p.2.2
            if v.nonfinite || chans.contains p.1 then none else some v
          let found := (List.range upto).map fun b => scanBlock t.fmt o.own n o.fmse (vals b)
          let packets := found.zipIdx.flatMap fun e => packetBytes e.1.1.1 e.1.1.2 0 (e.2 % 65536)
          let cells := t.coords.map fun p =>
            some ({ code := 0, nonfin := b01 (s.nonfiniteAt a p.1 p.2.1 p.2.2) } : Cell)
          let stop := sa.err.map scaleStop
          let sum := fun (k : Tally → Nat) => (found.map fun e => k e.2.2).sum
          let tally := { tallyOf (cells.filterMap id) with sat := sum (·.sat), collapse := sum (·.collapse), sse := sum (·.sse) }
          let qsat := o.thresh != 0 && o.thresh < tally.sat
          let kept := stop.isNone && o.hasStats
          { runs := (t.scale, packets ++ (if stop.isNone then endMarker else [])) ::
              (if kept then
                (o.stats, statsRecord tally { sseValid := n != 0, cand := mostChosen (found.map (·.2.1)) } qsat x.cur.opIndex) ::
                  (if o.sse = 0 then [] else [(o.sse, found.flatMap fun e => leBytes 8 e.2.2.sse)])
              else [])
            stop := stop, stream := some t.scale, events := if kept && qsat then [(0x0301, x.cur.opIndex * 65536 + min tally.sat 0xFFFF)] else [] } }

/-- The side tensor of outlier channels: RNE_BF16 (x / s) by channel, row and column (03 R69). -/
def sideOf (s : State) (a d : Tensor) (f : Nat) (chans : List Nat) (scale : Nat → Nat → Nat → EV) : List Nat :=
  chans.flatMap fun c => (List.range a.h).flatMap fun y => (List.range a.w).map fun z =>
    match (s.real a f c y z).divPos (scale (min c (d.c - 1)) y z) with
    | .num n e k w => (toFloat .bf16 true n e k w).code
    | v => (convertEV .bf16 0 true false 0 v).code

/-- QCONV and REQUANT of a source that is not XACC: each element by the row of 03 R62 for its destination. -/
def convertWork (x : Ctx) (chans : List Nat) : Work :=
  let o := x.op
  let a := o.t 0
  let d := o.t 1
  let carry := if d.scaled then x.carryCfg else none
  { reads := a.spans ++ a.scaleSpans ++ (if carry.isSome then [] else d.scaleSpans)
    writes := d.spans ++ statSpans o d.blocks ++ (if carry.isSome then carriedSpans d else [])
    run := guardExact x [a] fun s =>
      let fm := if o.hasStats then some o.fmse else none
      let wide := widerFloat a.fmt d.fmt && !a.scaled && !d.scaled
      let cell := fun (p : Nat × Int) (c y z : Nat) =>
        if chans.contains c then ({ code := d.fmt.zeroCode p.2 } : Cell)
        else convertCell d.fmt o.f o.satMode wide p fm (s.real a o.f c y z)
      let side := fun (scale : Nat → Nat → Nat → EV) => if chans = [] then none else some (d.base, sideOf s a d o.f chans scale)
      match carry with
      | some q =>
        carriedWrite x s d q [(s.src a).feed]
          ⟨fun c y z => if chans.contains c then .zero else s.real a o.f c y z,
           fun p c y z => if chans.contains c then p.2 else unclamped p (s.real a o.f c y z), cell⟩ o.hasStats side
      | none =>
        let e := writeCells x s d none [(s.src a).feed, (s.src d).feed] (fun c y z => cell (s.packetAt d c y z) c y z)
          { sseValid := o.hasStats }
        { e with side := if e.stop.isSome then none else side fun c y z => decodeFloat .fp32 (s.packetAt d c y z).1 } }

/-- QCONV of an XACC source: through the output stage, whose multiplier a scaled destination's packets give (03 R62, R65). -/
def stageConvertWork (x : Ctx) : Work :=
  let a := x.op.t 0
  let d := x.op.t 1
  { reads := a.spans ++ stageReads x d [] true, writes := stageWrites x d
    run := fun s => stageEff x s d [] [] true (fun _ _ _ => EV.one) fun c y z => .exact x.op.f (signed 64 (s.code a c y z)) 0 0 }

/-- QCONV (03 R62, R462). -/
def qconvWork : OpFn := fun x =>
  let o := x.op
  let a := o.t 0
  let d := o.t 1
  if (a.fmt.isInt && d.fmt.isInt) || d.fmt = .xacc then .error .badParam
  else if a.fmt = .xacc && !(o.hasStage && stageFits o.stage d.fmt) then .error .badParam
  else
    match x.outliers with
    | .error e => .error e
    | .ok chans =>
      if !a.sameShape d then .error .badShape
      else if a.fmt = .xacc then .ok (stageConvertWork x)
      else .ok (convertWork x chans)

/-- REQUANT (03 R62, R462). -/
def requantWork : OpFn := idleStage fun x =>
  let a := x.op.t 0
  let d := x.op.t 1
  if !a.fmt.isInt || !d.fmt.isInt then .error .badParam
  else if !a.sameShape d then .error .badShape
  else .ok (convertWork x [])

/-! ### The special-function slice -/

/-- Formats the slice reads, and writes (04 R80). -/
def sliceIn (f : Fmt) : Bool := f != .xacc
def sliceOut (f : Fmt) : Bool := f != .xacc && f != .int4

/-- A result of the slice as a cell of a destination with a scale and a zero point. -/
def sliceCell (f : Fmt) (sat : Bool) (choice : Nat) (pick : Pick) (p : Nat × Int) (r : SRes) : Cell :=
  let c := if f = .fp32 then faithful sat choice pick r else roundSRes f sat (decodeFloat .fp32 p.1) p.2 r
  let nonzero := match r with
    | .exact v => v.mayCollapse f
    | .enc .. => true
  c.cell f p.2 nonzero 0 0

/-- The effect of a slice operation over its destination: `need` says whether the blocks an element needs of the input are good, `f`
gives an element's result and the choice of an FP32 one, `count` its placed saturations and whether an input is infinite or NaN. -/
def sliceEff (x : Ctx) (s : State) (a d : Tensor) (need : Src → Nat → Nat → Nat → Bool) (f : Nat → Nat → Nat → SRes × Pick)
    (count : Nat → Nat → Nat → Nat × Bool) : Eff :=
  let o := x.op
  let e := writeCells x s d none [⟨s.src a, need (s.src a)⟩, (s.src d).feed] fun c y z =>
    let r := f c y z
    let k := sliceCell d.fmt o.satMode (Config.freeValue (s.freeCtr + d.index c y z)) r.2 (s.packetAt d c y z) r.1
    { k with sat := k.sat + (count c y z).1, nonfin := max k.nonfin (b01 (count c y z).2) }
  { e with draws := if d.fmt = .fp32 then d.count else 0 }

/-- The code next above (or below) a nonzero code of a format by value, none at the end of its range. -/
def nextCode (f : Fmt) (up : Bool) (code : Nat) : Option Nat :=
  let w := f.width
  let h := 2 ^ (w - 1)
  if f.isInt then
    let q := signed w code + (if up then 1 else -1)
    if q < f.qmin ∨ q > f.qmax then none else some (unsigned w q)
  else
    let neg := bit code (w - 1)
    let away := up != neg
    let m := code % h
    if f.isLns then
      let k := signed (w - 1) m + (if away then 1 else -1)
      if k > f.logMax then none
      else some ((if neg then h else 0) + unsigned (w - 1) k)
    else if away then (if m + 1 ≤ f.maxMag then some ((if neg then h else 0) + (m + 1)) else none)
    else if m = 0 then none else some ((if neg then h else 0) + (m - 1))

/-- The real value next to an element's in its format. -/
def State.nextReal (s : State) (t : Tensor) (fx : Nat) (up : Bool) (c y z : Nat) : Option EV :=
  (nextCode t.fmt up (s.code t c y z)).map fun k => if t.scaled then realOf t.fmt fx (s.scaleAt t c y z) k else decodeCode t.fmt fx k

/-- The bytes a slice operation reads and writes. -/
def sliceReads (a d : Tensor) : List Span := a.spans ++ a.scaleSpans ++ d.scaleSpans

/-- SFU (04 R79 to R82). -/
def sfuWork : OpFn := fun x =>
  let o := x.op
  let a := o.t 0
  let d := o.t 1
  match SFn.ofCode o.own with
  | none => .error .badParam
  | some fn =>
    if !sliceIn a.fmt || !sliceOut d.fmt then .error .badParam
    else if !a.sameShape d then .error .badShape
    else .ok {
      reads := sliceReads a d, writes := d.spans ++ statSpans o d.blocks, vary := d.fmt == .fp32
      run := fun s =>
        let v := fun (c y z : Nat) => s.real a o.f c y z
        if x.cur.exact && d.coords.any fun p => sfnOutside fn (v p.1 p.2.1 p.2.2) then { stop := some (domainStop x.cur) }
        else sliceEff x s a d (fun sa => sa.goodAt) (fun c y z =>
          (sfn fn (v c y z), sfnPick fn (v c y z) (s.nextReal a o.f false c y z) (s.nextReal a o.f true c y z)))
          fun c y z => (0, (v c y z).nonfinite) }

/-- Activations of GATE (04 R85). -/
def gateActs : List SFn := [.sigmoid, .tanh, .geluErf, .geluTanh, .silu]

/-- A value times a result. -/
def mulRes (a : EV) : SRes → SRes
  | .exact v => .exact (a.mul v)
  | .enc neg g below =>
    match a with
    | .num n d k z =>
      if n = 0 then .exact (.num 0 1 0 (z != neg))
      else .enc (decide (n < 0) != neg) (fun p => (Iv.mul p (encMag p n.natAbs d k) (g p)).pos) below
    | .inf s => .exact (.inf (s != neg))
    | .nan => .exact .nan

/-- GATE (04 R85). -/
def gateWork : OpFn := fun x =>
  let o := x.op
  let a := o.t 0
  let d := o.t 1
  let order := bit o.own 8
  match (SFn.ofCode (bits o.own 0 8)).filter gateActs.contains with
  | none => .error .badParam
  | some fn =>
    if !sliceIn a.fmt || !sliceOut d.fmt then .error .badParam
    else if a.c % 2 ≠ 0 || a.c ≠ 2 * d.c || a.h ≠ d.h || a.w ≠ d.w then .error .badShape
    else .ok {
      reads := sliceReads a d, writes := d.spans ++ statSpans o d.blocks, vary := d.fmt == .fp32
      run := guardExact x [a] fun s =>
        sliceEff x s a d (fun sa c y z => sa.goodAt c y z && sa.goodAt (c + d.c) y z) (fun c y z =>
          let lo := s.real a o.f c y z
          let hi := s.real a o.f (c + d.c) y z
          (mulRes (if order then hi else lo) (sfn fn (if order then lo else hi)), .free))
          fun c y z => (0, s.nonfiniteAt a c y z || s.nonfiniteAt a (c + d.c) y z) }

/-- The rows of a tensor along an AXES code, by their fixed coordinates in the order C, H, W. -/
def rowStarts (a : Tensor) (ax : Bool × Bool × Bool) : List (Nat × Nat × Nat) :=
  coords (if ax.1 then 1 else a.c) (if ax.2.1 then 1 else a.h) (if ax.2.2 then 1 else a.w)

/-- Elements of a row. -/
def rowLength (a : Tensor) (ax : Bool × Bool × Bool) : Nat :=
  (if ax.1 then a.c else 1) * (if ax.2.1 then a.h else 1) * (if ax.2.2 then a.w else 1)

/-- The row an element lies in. -/
def rowStart (ax : Bool × Bool × Bool) (c y z : Nat) : Nat × Nat × Nat :=
  (if ax.1 then 0 else c, if ax.2.1 then 0 else y, if ax.2.2 then 0 else z)

/-- `RNE (2^30 e^(v - m))` (04 R83). -/
def softTerm (m v : EV) : Nat :=
  match v with
  | .inf _ | .nan => 0
  | _ =>
    if EV.le m v then 2 ^ 30
    else (roundEncInt false (fun p => (expIv p ((encEV p v).sub (encEV p m))).pos) 30).toNat

/-- A row of SOFTMAX: its maximum's code, its terms' sum, none for a row without a finite maximum. -/
structure SoftRow where
  code : Nat
  m : EV
  sum : Nat
  finite : Bool

/-- A row's maximum and sum. -/
def softRow (f : Fmt) (codes : List Nat) (vals : List EV) : SoftRow :=
  let i := selectIdx true vals
  let m := vals.getD i .zero
  let code := writtenCode f (copiedCode f (codes.getD i 0))
  if m.nonfinite then ⟨code, m, 0, false⟩ else ⟨code, m, (vals.map (softTerm m)).sum, true⟩

/-- SOFTMAX (04 R83). -/
def softmaxWork : OpFn := fun x =>
  let o := x.op
  let a := o.t 0
  let d := o.t 1
  match reducedAxes o.own with
  | none => .error .badParam
  | some ax =>
    let rows := rowStarts a ax
    let st := o.r 0
    if !sliceIn a.fmt || !sliceOut d.fmt || (st.base ≠ 0 && st.len < 16 * rows.length) then .error .badParam
    else if !a.sameShape d || rowLength a ax > 2 ^ 24 then .error .badShape
    else .ok {
      reads := sliceReads a d, vary := d.fmt == .fp32
      writes := d.spans ++ statSpans o d.blocks ++ (if st.base = 0 then [] else [⟨st.base, 16 * rows.length⟩])
      run := guardExact x [a] fun s =>
        let ins := fun (p : Nat × Nat × Nat) => reduceInputs a ax p.1 p.2.1 p.2.2
        let row := fun (p : Nat × Nat × Nat) =>
          softRow a.fmt ((ins p).map fun q => s.code a q.1 q.2.1 q.2.2) ((ins p).map fun q => s.real a o.f q.1 q.2.1 q.2.2)
        let good := fun (sa : Src) (c y z : Nat) => (ins (rowStart ax c y z)).all fun q => sa.goodAt q.1 q.2.1 q.2.2
        let e := sliceEff x s a d good (fun c y z =>
          let r := row (rowStart ax c y z)
          (.exact (if r.finite then .num (softTerm r.m (s.real a o.f c y z)) r.sum 0 false else .nan), .free))
          fun c y z => (0, s.nonfiniteAt a c y z)
        let recs := rows.flatMap fun p => let r := row p; leBytes 8 r.code ++ leBytes 8 r.sum
        if st.base = 0 || e.stop.isSome then e else { e with runs := e.runs ++ [(st.base, recs)] } }

/-- NORM's AXES: CHANNEL 0, SPATIAL 1, ALL 2 (05 R113; log 18). -/
def normAxes : Nat → Option (Bool × Bool × Bool)
  | 0 => some (true, false, false) | 1 => some (false, true, true) | 2 => some (true, true, true) | _ => none

/-- A BF16 vector's element, or the value without one. -/
def State.affine (s : State) (addr c : Nat) (none_ : EV) : EV :=
  if addr = 0 then none_ else decodeFloat .bf16 (s.numAt (addr + 2 * c) 2)

/-- A row's statistics: the placed mean's numerator A, n, and the variance plus ε as a fraction (04 R84). -/
def normRow (layer : Bool) (f : Nat) (eps : EV) (l : List Int) : Int × EV :=
  let n := l.length
  let a := l.sum
  let q := (l.map fun i => i * i).sum
  let v := if layer then EV.num (n * q - a * a) (n * n) (-512 * f) false else .num q n (-512 * f) false
  (a, v.addExact eps)

/-- `v ^ (-1/2)` of a positive rational. -/
def rsqrtRes : EV → SRes
  | .num n d k _ => .enc false (fun p => sqrtIv p (encMag p d n.natAbs (-k))) false
  | v => .exact v

/-- NORM (04 R84, 05 R113). FORM 0 is LAYER and 1 RMS; the statistics range holds, row by row, the mean (LAYER only) and rstd, each in
whole bytes of the destination's format, a scaled one by the packet of the row's first element, and a shorter range is BAD_PARAM
(DESIGN CHOICE, log 83). -/
def normWork : OpFn := fun x =>
  let o := x.op
  let a := o.t 0
  let d := o.t 1
  let layer := !bit o.own 0
  let apply := bit o.own 3
  let epsBits := bits o.own 8 32
  let eps := decodeFloat .fp32 epsBits
  let gamma := canonAddr x.th.id (bits o.own 40 64)
  let beta := canonAddr x.th.id (bits o.own 104 64)
  let st := o.r 0
  match normAxes (bits o.own 1 2) with
  | none => .error .badParam
  | some ax =>
    let rows := rowStarts a ax
    let per := (if layer then 2 else 1) * (ceilDiv d.fmt.width 8)
    if bits o.own 4 4 ≠ 0 || !positiveNormal epsBits || !sliceIn a.fmt || !sliceOut d.fmt ||
        (st.base ≠ 0 && st.len < per * rows.length) then .error .badParam
    else if !a.sameShape d || rowLength a ax > 2 ^ 24 then .error .badShape
    else
      let vec := fun (b : Nat) => if b = 0 || !apply then [] else [(⟨b, 2 * a.c⟩ : Span)]
      .ok {
        reads := sliceReads a d ++ vec gamma ++ vec beta, vary := d.fmt == .fp32
        writes := (if apply then d.spans ++ statSpans o d.blocks else []) ++ (if st.base = 0 then [] else [⟨st.base, per * rows.length⟩])
        run := guardWhen x (fun s => apply && [gamma, beta].any fun b => b != 0 && (List.range a.c).any fun c => (s.affine b c .zero).nonfinite) <|
          guardExact x [a] fun s =>
          let ins := fun (p : Nat × Nat × Nat) => reduceInputs a ax p.1 p.2.1 p.2.2
          let placed := fun (p : Nat × Nat × Nat) => (place o.f (s.real a o.f p.1 p.2.1 p.2.2)).n
          let row := fun (p : Nat × Nat × Nat) => normRow layer o.f eps ((ins p).map placed)
          let good := fun (sa : Src) (c y z : Nat) => (ins (rowStart ax c y z)).all fun q => sa.goodAt q.1 q.2.1 q.2.2
          let e := if apply then
              sliceEff x s a d good (fun c y z =>
                let r := row (rowStart ax c y z)
                let mean := if layer then rneDiv r.1 (rowLength a ax) else 0
                let rstd := decodeFloat .bf16 (roundSRes .bf16 true (.num 1 1 0 false) 0 (rsqrtRes r.2)).code
                let t := (EV.num (placed (c, y, z) - mean) 1 (-256 * o.f) false).mul rstd
                (.exact ((t.mul (s.affine gamma c (.num 1 1 0 false))).addExact (s.affine beta c .zero)), .free))
                fun c y z => (b01 (place o.f (s.real a o.f c y z)).sat, s.nonfiniteAt a c y z)
            else { stop := ((s.src a).err.or (s.src d).err).map scaleStop }
          let one := fun (p : Nat × Nat × Nat) (i : Nat) (r : SRes) =>
            let pk := s.packetAt d p.1 p.2.1 p.2.2
            leBytes (ceilDiv d.fmt.width 8) (sliceCell d.fmt o.satMode (Config.freeValue (s.freeCtr + e.draws + i)) .free pk r).code
          let recs := rows.zipIdx.flatMap fun p =>
            let r := row p.1
            (if layer then one p.1 (2 * p.2) (.exact (.num r.1 (rowLength a ax) (-256 * o.f) false)) else []) ++
              one p.1 (2 * p.2 + 1) (rsqrtRes r.2)
          if st.base = 0 || e.stop.isSome then e
          else { e with runs := e.runs ++ [(st.base, recs)], draws := e.draws + 2 * rows.length } }

end Sys2Proof.Machine
end

