-- ==== Sys2Proof/Machine/Entropy.lean ====
section
/-! DEFINITION. The entropy lanes (07 R148 to R164, R467): rANS segments, the bypass field, ENC and DEC. -/

namespace Sys2Proof.Machine

/-! ### rANS (07 R155) -/

/-- L, the lower end of the state interval. -/
def ransL : Nat := 65536

/-- The start and the frequency of an index. -/
def entryOf (freq : List Nat) (i : Nat) : Nat × Nat := ((freq.take i).sum, freq.getD i 0)

/-- The index whose interval holds a slot. -/
def lookupIdx (freq : List Nat) (slot : Nat) : Nat :=
  (freq.foldl (fun (b : Nat × Nat × Bool) f =>
    if b.2.2 then b else if slot < b.2.1 + f then (b.1, b.2.1, true) else (b.1 + 1, b.2.1 + f, false)) (0, 0, false)).1

/-- One symbol encoded onto its state: the new states, and the words in decoder order. -/
def encodeOne (b : List Nat × List Nat) (e : Nat × Nat × Nat) : List Nat × List Nat :=
  let j := e.1 % 16
  let x := b.1.getD j ransL
  let emit := e.2.2 * 65536 ≤ x
  let y := if emit then x / 65536 else x
  (modifyAt b.1 j fun _ => y / e.2.2 * 65536 + y % e.2.2 + e.2.1, if emit then x % 65536 :: b.2 else b.2)

/-- The encoder after the symbols from `b` on, given as start and frequency in symbol order: it runs from the last one down. -/
def ransRun (l : List (Nat × Nat)) (b : Nat) : List Nat × List Nat :=
  ((l.zipIdx.drop b).reverse).foldl (fun r e => encodeOne r (e.2, e.1.1, e.1.2)) (List.replicate 16 ransL, [])

/-- A segment of symbols. -/
def ransEncode (l : List (Nat × Nat)) : List Byte :=
  let r := ransRun l 0
  r.1.flatMap (leBytes 4) ++ r.2.flatMap (leBytes 2)

/-! ### Chunks (07 R467) -/

/-- Lane cycles of a symbol. -/
def symCycles (esc : Bool) : Nat := if esc then 2 else 1

/-- A cycle count after an item of `cost` cycles, and whether the item begins a chunk of its own. -/
def chunkStep (cyc cost : Nat) : Nat × Bool := if 16384 < cyc + cost then (cost, true) else (cyc + cost, false)

/-- The symbols at which the chunks after the first begin; the last is the symbol count where the end cycles form a chunk. -/
def chunkStarts (escs : List Bool) : List Nat :=
  let r := escs.zipIdx.foldl (fun (b : Nat × List Nat) p =>
    let q := chunkStep b.1 (symCycles p.1)
    (q.1, if q.2 then b.2 ++ [p.2] else b.2)) (24, [])
  if (chunkStep r.1 16).2 then r.2 ++ [escs.length] else r.2

/-- A decoder under way: its 16 states and where the next word lies. -/
structure Rans where
  x : List Nat
  p : Nat
  deriving DecidableEq, Repr

/-- Starting on a segment, or the cause of damage (07 R158). -/
def ransStart (seg : List Byte) : Except Nat Rans :=
  if seg.length < 64 || seg.length % 2 ≠ 0 then .error 1
  else
    let x := (List.range 16).map fun j => leAt seg (4 * j) 4
    if x.any (· < ransL) then .error 4 else .ok ⟨x, 64⟩

/-- One symbol decoded with a table, or cause 2. -/
def ransSymbol (seg : List Byte) (freq : List Nat) (i : Nat) (r : Rans) : Except Nat (Nat × Rans) :=
  let j := i % 16
  let x := r.x.getD j ransL
  let slot := x % 65536
  let k := lookupIdx freq slot
  let e := entryOf freq k
  let y := e.2 * (x / 65536) + slot - e.1
  if ransL ≤ y then .ok (k, ⟨modifyAt r.x j fun _ => y, r.p⟩)
  else if seg.length < r.p + 2 then .error 2
  else .ok (k, ⟨modifyAt r.x j fun _ => y * 65536 + leAt seg r.p 2, r.p + 2⟩)

/-- The final checks (07 R156, R158). -/
def ransEnd (seg : List Byte) (r : Rans) : Option Nat :=
  if r.p ≠ seg.length then some 3 else if r.x.any (· != ransL) then some 5 else none

/-! ### The bypass field (07 R159, R160) -/

/-- The exponential-Golomb code of order 0. -/
def golomb (d : Nat) : List Bool := List.replicate (log2 (d + 1)) false ++ natBits (log2 (d + 1) + 1) (d + 1)

/-- The bits of an escaped value. -/
def escapeBits (t : Table) (v : Int) : List Bool :=
  let n : Int := t.freq.length - 1
  if v > n - 1 - t.off then false :: golomb (v - (n - t.off)).toNat else true :: golomb (-(t.off : Int) - 1 - v).toNat

/-- Bits of a byte range from a position on. -/
def bitAt (bs : List Byte) (i : Nat) : Bool := bit (bs.getD (i / 8) 0).toNat (7 - i % 8)

/-- Leading zeros of a code read from a position: their count and the position after them, or cause 6 or 7. -/
def leadZeros (bs : List Byte) : Nat → Nat → Nat → Except Nat (Nat × Nat)
  | 0, _, _ => .error 7
  | k + 1, pos, z =>
    if 8 * bs.length ≤ pos then .error 6
    else if bitAt bs pos then .ok (z, pos)
    else if z = 23 then .error 7
    else leadZeros bs k (pos + 1) (z + 1)

/-- An escaped value read from a position, and the position after it. -/
def readEscape (bs : List Byte) (t : Table) (pos : Nat) : Except Nat (Int × Nat) :=
  if 8 * bs.length ≤ pos then .error 6
  else
    match leadZeros bs 25 (pos + 1) 0 with
    | .error e => .error e
    | .ok (z, p) =>
      if 8 * bs.length < p + z + 1 then .error 6
      else
        let d := bitsNat ((List.range (z + 1)).map fun i => bitAt bs (p + i)) - 1
        let n : Int := t.freq.length - 1
        let v : Int := if bitAt bs pos then -(t.off : Int) - 1 - d else d + (n - t.off)
        if v < -(2 ^ 23) || v > 2 ^ 23 - 1 then .error 7 else .ok (v, p + z + 1)

/-- A byte range with bits placed from a position on: bits before it stand, the last byte's unused bits are 0. -/
def placeBits (old : List Byte) (pos : Nat) (l : List Bool) : List Byte :=
  packBits (((toBits (old.take (ceilDiv pos 8))).take pos) ++ l)

/-! ### Steps (07 R151, R152) -/

/-- The elements of a step, in symbol order. -/
def stepElems (t : Tensor) (ch0 nch parity : Nat) : List (Nat × Nat × Nat) :=
  (coords nch t.h t.w).filterMap fun p =>
    let odd := (p.2.1 + p.2.2) % 2 == 1
    if parity = 0 || (parity = 1 && !odd) || (parity = 2 && odd) then some (ch0 + p.1, p.2.1, p.2.2) else none

/-- ENC's and DEC's own fields. -/
structure Coding where
  slot : Nat
  tset : Nat
  parity : Nat
  ch0 : Nat
  nch : Nat
  bypass : Span
  pos : Nat
  result : Nat
  set : TableSet
  /-- the bank it is bound to, and its set's slot there -/
  bank : Nat
  sigma : Nat

/-- Formats of latents and means (07 R153). -/
def latentFmt (f : Fmt) : Bool := f == .int8 || f == .fp16 || f == .bf16 || f == .fp32

/-- The bit at which an operation's escapes begin: BYPASS_POS; in a list instantiated for a stream's tile firmware gives it 0 at step 0
and its predecessor's BYPASS_END at each later step (08 R183; DEDUCED, log 17). -/
def Ctx.bypassPos (x : Ctx) : Nat :=
  match x.listId, x.tile with
  | some _, some w => if x.step = 0 then 0 else ((w.ends.find? (·.1 + 1 == x.step)).map (·.2)).getD 0
  | _, _ => bits x.op.own 192 32

/-- The own fields checked against the planes and the latents (07 R161; 05 R115; 09 R207). -/
def codingOf (x : Ctx) (y mean scale : Tensor) : Except Status Coding :=
  let n := x.op.own
  let slot := bits n 0 8
  let parity := bits n 16 8
  let ch0 := bits n 32 16
  let nch := bits n 48 16
  match ownRange x.th.id n 64 with
  | .error e => .error e
  | .ok bp =>
    let pos := x.bypassPos
    if 2 < parity || bits n 24 8 ≠ 0 || nch = 0 || 512 < nch || 8 * bp.len < pos || bits n 224 64 % 16 ≠ 0 then .error .badParam
    else if !latentFmt y.fmt || !latentFmt mean.fmt || scale.fmt ≠ .lns16 || mean.layout ≠ 0 || scale.layout ≠ 0 then .error .badParam
    else
      match if slot < 4 then x.s.profiles.getD slot none else none with
      | none => .error .profileMissing
      | some p =>
        match (imageTableSets p.image)[bits n 8 8]? with
        | none => .error .badParam
        | some set =>
          if y.c < ch0 + nch || mean.c ≠ nch || scale.c ≠ nch || mean.h ≠ y.h || mean.w ≠ y.w || scale.h ≠ y.h || scale.w ≠ y.w then
            .error .badShape
          else if 2 ^ 24 < (stepElems y ch0 nch parity).length then .error .badShape
          else .ok {
            slot := slot, tset := bits n 8 8, parity := parity, ch0 := ch0, nch := nch, bypass := bp, pos := pos
            result := canonAddr x.th.id (bits n 224 64), set := set
            bank := x.bank, sigma := p.setSlots.getD (bits n 8 8) 0 }

/-- The table of an element (07 R152, 04 R93). -/
def Coding.table (k : Coding) (s : State) (scale : Tensor) (c y z : Nat) : Table :=
  ((s.banks.getD k.bank []).getD k.sigma []).getD (k.set.bin (s.code scale (c - k.ch0) y z)) ⟨0, []⟩

/-- The first scale error of the elements of a step, with its block. -/
def stepErr (s : State) (t : Tensor) (l : List (Nat × Nat × Nat)) : Option (Nat × ScaleErr) :=
  if t.scaled then
    let bs := dedup (l.map fun p => t.blockOf p.1 p.2.1 p.2.2)
    (sortBy (fun a b => decide (a ≤ b)) bs).findSome? fun b => (s.packetErr t b).map fun e => (b, e)
  else none

/-- The bytes of a step's elements. -/
def stepSpans (t : Tensor) (l : List (Nat × Nat × Nat)) : List Span := l.map fun p => t.elemSpan p.1 p.2.1 p.2.2

/-- A value rounded into a latent destination (07 R154). -/
def latentCell (s : State) (d : Tensor) (sat : Bool) (c y z : Nat) (v : EV) : Cell :=
  convertCell d.fmt 0 sat false (if d.scaled then s.packet d.scale (d.blockOf c y z) else (0x3F800000, 0)) none v

/-- The 16-byte result record (07 R162). -/
def codingResult (segBytes bypassEnd symbols escapes : Nat) : List Byte :=
  leBytes 4 segBytes ++ leBytes 4 bypassEnd ++ leBytes 4 symbols ++ leBytes 4 escapes

/-- Whether a latent or a mean of the step is infinite or NaN (07 R153). -/
def stepNonfinite (s : State) (y mean : Tensor) (ch0 : Nat) (both : Bool) (l : List (Nat × Nat × Nat)) : Bool :=
  l.any fun p => (both && s.nonfiniteAt y p.1 p.2.1 p.2.2) || s.nonfiniteAt mean (p.1 - ch0) p.2.1 p.2.2

/-- The value ENC codes for an element, and whether it was clamped (07 R153). -/
def codedValue (s : State) (y mean : Tensor) (ch0 : Nat) (p : Nat × Nat × Nat) : Int × Bool :=
  match (s.real y 0 p.1 p.2.1 p.2.2).addExact (s.real mean 0 (p.1 - ch0) p.2.1 p.2.2).neg with
  | .num n d k _ =>
    let g : Int := gridMag n.natAbs d k 0
    let v := if n < 0 then -g else g
    let c := clampInt v (-(2 ^ 23)) (2 ^ 23 - 1)
    (c, c != v)
  | _ => (0, false)

/-- A value set for a step, in the place of one that stands. -/
def setStep {α : Type} (l : List (Nat × α)) (k : Nat) (v : α) : List (Nat × α) :=
  if l.any (·.1 == k) then l.map fun e => if e.1 = k then (k, v) else e else l ++ [(k, v)]

/-- The end of a tile's step: the bypass bit it reached (07 R162). -/
def TileWork.endStep (w : TileWork) (step bitsEnd : Nat) : TileWork :=
  { w with ends := setStep w.ends step bitsEnd, bypassBits := bitsEnd }

/-- A tile's segment recorded once for its step, and its bypass field. -/
def TileWork.addSegment (w : TileWork) (step : Nat) (seg bypass : List Byte) (bitsEnd : Nat) : TileWork :=
  { w.endStep step bitsEnd with segments := setStep w.segments step seg, bypass := bypass }

/-- ENC (07 R151 to R162). Its lane part runs the chunks of R467 from the last symbol down, as R155 codes them; what a lane saves
between them is what it holds then (DEDUCED, log 88). -/
def encWork : OpFn := fun x =>
  let o := x.op
  let y := o.t 0
  let mean := o.t 1
  let scale := o.t 2
  let pay := o.r 0
  let reconBits := bits o.own 288 384
  match codingOf x y mean scale with
  | .error e => .error e
  | .ok k =>
    let recon : Except Status (Option Tensor) :=
      if bits reconBits 0 64 = 0 then .ok none else (parseTensor x.th.id false (leBytes 48 reconBits)).map some
    match recon with
    | .error e => .error e
    | .ok r =>
      if r.any fun t => !latentFmt t.fmt then .error .badParam
      else if r.any fun t => !t.sameShape y then .error .badShape
      else
        let l := stepElems y k.ch0 k.nch k.parity
        let rSpans := match r with | some t => stepSpans t l | none => []
        .ok {
          reads := stepSpans y l ++ y.scaleSpans ++ mean.spans ++ mean.scaleSpans ++ scale.spans ++
            (match r with | some t => t.scaleSpans | none => [])
          writes := [pay, k.bypass, ⟨k.result, 16⟩] ++ rSpans ++ statSpans o 1
          run := fun s =>
            if stepNonfinite s y mean k.ch0 true l then { stop := some (domainStop x.cur) }
            else
              let errs := [stepErr s y l, stepErr s mean (l.map fun p => (p.1 - k.ch0, p.2)),
                match r with | some t => stepErr s t l | none => none]
              match errs.findSome? id with
              | some e => { stop := some (scaleStop e.2) }
              | none =>
                let vs := l.map fun p => (p, codedValue s y mean k.ch0 p, k.table s scale p.1 p.2.1 p.2.2)
                let inRange := fun (t : Table) (v : Int) =>
                  decide (-(t.off : Int) ≤ v) && decide (v ≤ (t.freq.length : Int) - 2 - t.off)
                let idx := fun (t : Table) (v : Int) => if inRange t v then (v + t.off).toNat else t.freq.length - 1
                let syms := vs.map fun e => entryOf e.2.2.freq (idx e.2.2 e.2.1.1)
                let seg := ransEncode syms
                let bitsOf := fun (e : (Nat × Nat × Nat) × (Int × Bool) × Table) => if inRange e.2.2 e.2.1.1 then [] else escapeBits e.2.2 e.2.1.1
                let esc := vs.filter fun e => !inRange e.2.2 e.2.1.1
                let escBits := vs.flatMap bitsOf
                let saves := ((chunkStarts (vs.map fun e => !inRange e.2.2 e.2.1.1)).reverse).map fun b =>
                  let r := ransRun syms b
                  ({ states := r.1, symbol := b, word := r.2.length, bit := k.pos + ((vs.take b).flatMap bitsOf).length } : LaneSave)
                let endPos := k.pos + escBits.length
                if pay.len < seg.length || 8 * k.bypass.len < endPos then { stop := some { status := .noResource } }
                else
                  let field := placeBits (s.bytesAt k.bypass.base (ceilDiv k.pos 8)) k.pos escBits
                  let cellOf := fun (t : Tensor) (e : (Nat × Nat × Nat) × (Int × Bool) × Table) =>
                    latentCell s t o.satMode e.1.1 e.1.2.1 e.1.2.2
                      ((EV.ofInt e.2.1.1).addExact (s.real mean 0 (e.1.1 - k.ch0) e.1.2.1 e.1.2.2))
                  let cells : List ((Nat × Nat × Nat) × Cell) := match r with
                    | some t => vs.map fun e => (e.1, cellOf t e)
                    | none => vs.map fun e => (e.1, { code := 0 })
                  let runs : List (Nat × List Byte) := match r with
                    | some t => cells.map fun c => (t.base + t.bitOff c.1.1 c.1.2.1 c.1.2.2 / 8, leBytes (t.fmt.width / 8) c.2.code)
                    | none => []
                  let tally := tallyOf (cells.map (·.2))
                  let full := { tally with sat := tally.sat + (vs.filter fun e => e.2.1.2).length }
                  let qsat := o.hasStats && o.thresh != 0 && o.thresh < full.sat
                  { runs := [(pay.base, seg)] ++ (if esc.isEmpty then [] else [(k.bypass.base, field)]) ++
                      [(k.result, codingResult seg.length endPos l.length esc.length)] ++ runs ++
                      (if o.hasStats then [(o.stats, statsRecord full {} qsat x.cur.opIndex)] else [])
                    events := if qsat then [(0x0301, x.cur.opIndex * 65536 + min full.sat 0xFFFF)] else []
                    tile := fun w => w.addSegment x.step seg field endPos
                    saves := saves } }

/-- A step decoded so far: the values and whether each escaped, the cycles of the running chunk, what lanes saved at the boundaries,
and the damage: cause and symbol. -/
structure Decoded where
  values : List (Int × Bool) := []
  rans : Rans
  pos : Nat
  cyc : Nat := 24
  saves : List LaneSave := []
  damage : Option (Nat × Nat) := none

/-- The lane at an item of `cost` cycles that stands before symbol `i`: at a chunk boundary it saves its states and positions. -/
def Decoded.spend (d : Decoded) (i cost : Nat) : Decoded :=
  let q := chunkStep d.cyc cost
  { d with cyc := q.1, saves := if q.2 then d.saves ++ [⟨d.rans.x, i, d.rans.p, d.pos⟩] else d.saves }

/-- Whether the next symbol of a state is the escape of its table. -/
def escapeNext (t : Table) (x : Nat) : Bool := t.freq.length ≤ lookupIdx t.freq (x % 65536) + 1

/-- Symbols decoded in order, until damage. -/
def decodeSyms (seg byp : List Byte) : List (Nat × Table) → Decoded → Decoded
  | [], d => d
  | (i, t) :: rest, d0 =>
    let esc := escapeNext t (d0.rans.x.getD (i % 16) ransL)
    let d := d0.spend i (symCycles esc)
    match ransSymbol seg t.freq i d.rans with
    | .error c => { d with damage := some (c, i) }
    | .ok (k, r) =>
      if esc then
        match readEscape byp t d.pos with
        | .error c => { d with rans := r, damage := some (c, i) }
        | .ok (v, p) => decodeSyms seg byp rest { d with values := d.values ++ [(v, true)], rans := r, pos := p }
      else decodeSyms seg byp rest { d with values := d.values ++ [((k : Int) - t.off, false)], rans := r }

/-- How many symbols lie in chunks that a lane has finished: those before its latest boundary (07 R158, R467). -/
def Decoded.finished (d : Decoded) : Nat := (d.saves.getLast?.map (·.symbol)).getD 0

/-- DEC (07 R151 to R162). -/
def decWork : OpFn := fun x =>
  let o := x.op
  let pay := o.r 0
  let mean := o.t 0
  let scale := o.t 1
  let d := o.t 2
  match codingOf x d mean scale with
  | .error e => .error e
  | .ok k =>
    if bits o.own 288 384 ≠ 0 then .error .badParam
    else
      let l := stepElems d k.ch0 k.nch k.parity
      .ok {
        reads := [pay, k.bypass] ++ mean.spans ++ mean.scaleSpans ++ scale.spans ++ d.scaleSpans
        writes := stepSpans d l ++ [⟨k.result, 16⟩] ++ statSpans o 1
        run := fun s =>
          if stepNonfinite s d mean k.ch0 false l then { stop := some (domainStop x.cur) }
          else
            match stepErr s mean (l.map fun p => (p.1 - k.ch0, p.2)) with
            | some e => { stop := some (scaleStop e.2) }
            | none =>
              let seg := s.bytesAt pay.base pay.len
              let byp := s.bytesAt k.bypass.base k.bypass.len
              let hurt := fun (c i : Nat) =>
                ({ status := .streamDamaged, events := [(0x0501, c * 2 ^ 24 + i % 2 ^ 24)], damage := some (16 + c, i) } : Stop)
              match ransStart seg with
              | .error c => { stop := some (hurt c 0) }
              | .ok r =>
                let got := decodeSyms seg byp (l.zipIdx.map fun p => (p.2, k.table s scale p.1.1 p.1.2.1 p.1.2.2)) { rans := r, pos := k.pos }
                let kept := if got.damage.isSome then got.finished else l.length
                let err := stepErr s d l
                let ok := fun (p : Nat × Nat × Nat) => match err with
                  | some e => decide (d.blockOf p.1 p.2.1 p.2.2 < e.1)
                  | none => true
                let cells := ((l.zip got.values).take kept).filterMap fun e =>
                  if ok e.1 then
                    some (e.1, latentCell s d o.satMode e.1.1 e.1.2.1 e.1.2.2
                      ((EV.ofInt e.2.1).addExact (s.real mean 0 (e.1.1 - k.ch0) e.1.2.1 e.1.2.2)))
                  else none
                let runs := cells.map fun c => (d.base + d.bitOff c.1.1 c.1.2.1 c.1.2.2 / 8, leBytes (d.fmt.width / 8) c.2.code)
                let stop := match got.damage with
                  | some (c, i) => some (hurt c i)
                  | none =>
                    match err with
                    | some e => some (scaleStop e.2)
                    | none => (ransEnd seg got.rans).map fun c => hurt c l.length
                let tally := tallyOf (cells.map (·.2))
                let qsat := o.hasStats && o.thresh != 0 && o.thresh < tally.sat
                let last := if stop.isSome then [] else
                  (k.result, codingResult seg.length got.pos l.length (got.values.filter (·.2)).length) ::
                    (if o.hasStats then [(o.stats, statsRecord tally {} qsat x.cur.opIndex)] else [])
                { runs := runs ++ last, stop := stop
                  events := if stop.isNone && qsat then [(0x0301, x.cur.opIndex * 65536 + min tally.sat 0xFFFF)] else []
                  tile := fun w => w.endStep x.step got.pos
                  saves := (got.spend l.length 16).saves } }

end Sys2Proof.Machine
end

