-- ==== Sys2Proof/Machine/Templates.lean ====
section
/-! DEFINITION. List templates as operations (09 R195; 05 R94): their descriptors, the fields that firmware relocates, and what each
descriptor parses to once they are filled. -/

namespace Sys2Proof.Machine

/-- The places of a list's descriptors in the image. -/
def descrPlaces (img : List Byte) : Nat → Nat → List Nat
  | 0, _ => []
  | k + 1, p => p :: descrPlaces img k (p + 16 * leAt img (p + 1) 1)

/-- The descriptors of a template. -/
def Template.places (t : Template) (img : List Byte) : List Nat := descrPlaces img (leAt img (t.off + 2) 2) (t.off + 32)

/-- The operands of a descriptor with their offsets in it, from `o`; `many` tensors for a run of many. -/
def slotPlaces (many : Nat) : List Slot → Nat → List (Slot × Nat)
  | [], _ => []
  | .many _ _ :: ss, o => ((List.range many).map fun i => (Slot.read, o + 48 * i)) ++ slotPlaces many ss (o + 48 * many)
  | s :: ss, o => (s, o) :: slotPlaces many ss (o + s.len)

/-- The operands of the descriptor at `p`, with their offsets in it. -/
def descrSlots (img : List Byte) (p : Nat) : List (Slot × Nat) :=
  match rowOf (leAt img p 1) with
  | none => []
  | some r =>
    let stage := if bit (leAt img (p + 4) 2) 0 then 32 else 0
    slotPlaces ((manyCount r (16 * leAt img (p + 1) 1) stage).getD 0) r.slots 32

/-- The buffer a template's address field at `p` of the image is relocated to. -/
def Template.bufferAt (t : Template) (p : Nat) : Option Nat := (t.relocs.find? fun r => t.off + r.1 == p).map (·.2)


/-- H and W of the tensor whose BASE is the field at an offset of a list. -/
def fieldShape (l : List Byte) (off : Nat) : Nat × Nat := (leAt l (off + 22) 2, leAt l (off + 24) 2)

/-- Which of a buffer's addresses a relocated field takes: planes of another size than the first of their buffer have one of their own, in
the order of the list (DESIGN CHOICE, log 24: 09 R195 names all the reconstructed planes by the one identifier 0x0003). -/
def Template.planeAt (t : Template) (l : List Byte) (r : Nat × Nat) : Nat :=
  if r.2 = 3 then (dedup ((t.relocs.filter (·.2 == 3)).map fun q => fieldShape l q.1)).findIdx (· == fieldShape l r.1) else 0

/-- A template's bytes with every relocated field filled from its buffer identifier and its plane (09 R195). -/
def Template.filled (t : Template) (img : List Byte) (at_ : Nat → Nat → Nat) : List Byte :=
  let l := slice img t.off t.len
  t.relocs.foldl (fun b r => b.take r.1 ++ leBytes 8 (at_ r.2 (t.planeAt l r)) ++ b.drop (r.1 + 8)) l

/-- A descriptor of a list: its number, its offset, its row and its fields. -/
structure TOp where
  index : Nat
  off : Nat
  row : OpRow
  op : Op
  deriving DecidableEq, Repr

/-- What the descriptor at an offset of a list parses to for a thread. -/
def parsedAt (th : ThreadId) (bs : List Byte) (p : Nat) : Option (OpRow × Op) :=
  (rowOf (leAt bs p 1)).bind fun r =>
    match parseOp th r (slice bs p (16 * leAt bs (p + 1) 1)) with
    | .ok o => some (r, o)
    | .error _ => none

/-- The descriptors of a list's bytes that parse. -/
def opsOf (th : ThreadId) (bs : List Byte) : List TOp :=
  (descrPlaces bs (leAt bs 2 2) 32).zipIdx.filterMap fun p => (parsedAt th bs p.1).map fun o => ⟨p.2, p.1, o.1, o.2⟩

/-- A template's descriptors, a nonzero address in every relocated field. -/
def Template.opsOf (t : Template) (img : List Byte) : List TOp := Sys2Proof.Machine.opsOf ⟨0, 0, 0⟩ (t.filled img fun _ _ => 64)

/-- The operands of a descriptor with their offsets in the list: slot, tensor or none, byte range. -/
def TOp.operands (o : TOp) : List (Slot × Nat) :=
  let many := o.op.tensors.length - (o.row.slots.filter fun s => match s with | .range => false | .many .. => false | _ => true).length
  slotPlaces many o.row.slots (o.off + 32)

/-- A descriptor's tensors with their offsets in the list. -/
def TOp.tensorsAt (o : TOp) : List (Slot × Nat × Tensor) :=
  ((o.operands.filter fun x => x.1 != .range).zip o.op.tensors).filterMap fun e => e.2.map fun t => (e.1.1, e.1.2, t)

/-- A descriptor's byte ranges with their offsets in the list. -/
def TOp.rangesAt (o : TOp) : List (Nat × Span) :=
  ((o.operands.filter fun x => x.1 == .range).zip o.op.ranges).map fun e => (e.1.2, e.2)

/-- The offset in the list at which a descriptor's own fields begin. -/
def TOp.ownAt (o : TOp) : Nat := o.off + 32 + (o.operands.map fun x => x.1.len).sum

/-- The buffer identifier of a list's field. -/
def Template.idAt (t : Template) (off : Nat) : Option Nat := (t.relocs.find? (·.1 == off)).map (·.2)

/-- The weight that a descriptor's WEIGHT_REF is relocated to: by its number, or an adaptable layer's (09 R195). -/
def Template.weightId (t : Template) (img : List Byte) (o : TOp) : Option Nat :=
  let off := if o.row.code = 0x01 then o.ownAt else o.ownAt + weightBit / 8
  if 1 ≤ o.row.code ∧ o.row.code ≤ 4 then
    (t.idAt off).bind fun id =>
      if id / 65536 = 1 then some (id % 65536)
      else if id / 65536 = 2 then ((imageAdapt img)[id % 65536]?).map (·.1)
      else none
  else none

/-- The tensor a list writes last: of its last operation that writes one (DESIGN CHOICE, log 24: a network's output). -/
def lastWritten (ops : List TOp) : Option (Nat × Tensor) :=
  (ops.filterMap fun o => (o.tensorsAt.find? (·.1 == .written)).map fun e => (e.2.1, e.2.2)).getLast?

end Sys2Proof.Machine
end

