-- ==== Sys2Proof/Machine/ProfileCheck.lean ====
section
/-! DEFINITION. What PROFILE_LOAD checks of an image (09 R193 to R198, R201, R210, R217; 08 R180, R184; 04 R88; 03 R59, R61, R68,
R74 to R76; 05 R117 by 06): each check with the offset of its field; the first failing field is the one at the lowest offset
(log 17). -/

namespace Sys2Proof.Machine

/-- A check: the offset of the field in the image, and whether it holds. -/
abbrev Check := Nat × Bool

/-- Whether every byte of a run is zero. -/
def allZero (img : List Byte) (off len : Nat) : Bool := leAt img off len == 0

/-! ### Header and frames (09 R194, R195, R198) -/

/-- NAME: ASCII 0x20 to 0x7E, then zero bytes. -/
def nameOk (bs : List Byte) : Bool :=
  (bs.dropWhile fun (b : Byte) => 0x20 ≤ b.toNat && b.toNat ≤ 0x7E).all (· == 0)

/-- Where a section ends with its padding. -/
def Section.stop (s : Section) : Nat := s.off - 8 + roundUp (8 + s.len) 16

/-- The header's checks, for ABI versions from `lo` to `hi`. -/
def headerChecks (img : List Byte) (lo hi : Nat) : List Check :=
  let ss := imageSections img
  [(0, leAt img 0 2 == 0x5A50), (2, leAt img 2 1 == 1), (3, lo ≤ leAt img 3 1 && leAt img 3 1 ≤ hi),
   (4, ss.length == leAt img 4 4 && (match ss.getLast? with | some s => s.stop == img.length && 0x10 ≤ s.tag | none => false)),
   (8, leAt img 8 8 == img.length && img.length ≤ 2 ^ 31), (16, nameOk (slice img 16 16)),
   (32, profileDigest img == slice img 32 32)]

/-- The tags that must stand between two tags in ascending order. -/
def mandatoryTags : List Nat := [1, 2, 3, 4, 0x10]

/-- The highest INDEX of a tag. -/
def maxIndex (tag : Nat) : Nat := if tag = 3 then 3 else if tag = 0x10 then 255 else if tag = 0x20 then 65535 else 0

/-- The frame of a section after the one before it (tag, index): known tags ascending, none missing, TRAIN after ADAPT, indices
without gaps, the content and its zero padding inside the image. -/
def frameChecks (img : List Byte) (before : Nat × Nat) (s : Section) : List Check :=
  let known := [1, 2, 3, 4, 5, 6, 0x10, 0x20].contains s.tag
  let index := if s.tag = before.1 then before.2 + 1 else 0
  [(s.off - 8, known && before.1 ≤ s.tag && !(mandatoryTags.any fun t => before.1 < t && t < s.tag) &&
      !(s.tag == 6 && before.1 != 5)),
   (s.off - 6, s.index == index && s.index ≤ maxIndex s.tag),
   (s.off - 4, s.off + s.len ≤ img.length && s.stop ≤ img.length),
   (s.off + s.len, allZero img (s.off + s.len) (s.stop - (s.off + s.len)))]

/-- The frames of sections in order. -/
def framesChecks (img : List Byte) : Nat × Nat → List Section → List Check
  | _, [] => []
  | b, s :: ss => frameChecks img b s ++ framesChecks img (s.tag, s.index) ss

/-! ### GEOMETRY, LOOP, TABLESET (10 R222; 11 R250, R254; 08 R180; 04 R88) -/

/-- LATENT_STRIDE values of a kind of media. -/
def strideOk (media n : Nat) : Bool :=
  match media with
  | 0 => n == 16
  | 1 => [4, 8, 16, 32, 64].contains n
  | 2 => [4, 8, 16].contains n
  | _ => true

def geometryChecks (img : List Byte) (s : Section) : List Check :=
  let at_ := fun o k => leAt img (s.off + o) k
  [(s.off - 4, s.len == 5), (s.off, at_ 0 1 ≤ 2), (s.off + 1, strideOk (at_ 0 1) (at_ 1 1)),
   (s.off + 2, [0, 1, 2, 5].contains (at_ 2 1)),
   (s.off + 3, at_ 3 2 < 2 ^ 15 && ((at_ 0 1 == 1) == (at_ 3 2 == 0)))]

/-- A positive LNS16 code. -/
def lnsPositive (code : Nat) : Bool := code < 2 ^ 15 && decodeLns .lns16 code != .zero

def loopChecks (img : List Byte) (s : Section) : List Check :=
  let l := imageLoop img
  let n := leNat (s.content img)
  let g := l.groups.length
  let q := 15 + 11 * g
  let inCh := fun x => 1 ≤ x && x ≤ 512
  [(s.off - 4, s.len == ceilDiv l.used 8), (s.off, inCh l.latent), (s.off + 1, 1 ≤ g && g ≤ 16),
   (s.off + 1, l.groups.sum == l.latent), (s.off + q / 8, l.hyper ≤ 512), (s.off + l.used / 8, n / 2 ^ l.used == 0)] ++
    (l.groups.zipIdx.map fun (p : Nat × Nat) => (s.off + (15 + 10 * p.2) / 8, inCh p.1)) ++
    (l.hyperScale.zipIdx.map fun (p : Nat × Nat) => (s.off + (q + 14 + 16 * p.2) / 8, lnsPositive p.1))

/-- TABLE_SCALE: positive, not the saturation pattern, not below the one before. -/
def tableScaleOk (t : TableSet) (j : Nat) : Bool :=
  let c := t.scales.getD j 0
  lnsPositive c && c != 0x3FFF && (j == 0 || lnsLog .lns16 (t.scales.getD (j - 1) 0) ≤ lnsLog .lns16 c)

/-- A finite FP32 code. -/
def finite32 (c : Nat) : Bool := bits c 23 8 != 255

def tableSetChecks (img : List Byte) (s : Section) : List Check :=
  let t := tableSetOf (s.content img)
  let off := fun b => s.off + b / 8
  let unused := fun (c v : Nat) => decide (c < t.ncomp) || v == 0
  [(s.off - 4, s.len == ceilDiv tableSetBits 8), (off 0, t.family ≤ 2), (off 2, 1 ≤ t.ncomp && t.ncomp ≤ 3),
   (off 4, 2 ≤ t.n && t.n ≤ 1024), (off 15, t.off < t.n), (off 25, t.n + 1 ≤ t.res && t.res ≤ 4096), (off 38, t.shift ≤ 8),
   (off 1082, (t.u.take t.ncomp).sum == 65536), (off tableSetBits, leNat (s.content img) / 2 ^ tableSetBits == 0)] ++
    ((List.range 64).map fun j => (off (58 + 16 * j), tableScaleOk t j)) ++
    (t.u.zipIdx.map fun (p : Nat × Nat) =>
      (off (1082 + 17 * p.2), unused p.2 p.1 && (t.ncomp ≤ p.2 || (1 ≤ p.1 && p.1 ≤ 65536)))) ++
    (t.mu.zipIdx.map fun (p : Nat × Nat) => (off (1133 + 32 * p.2), unused p.2 p.1 && finite32 p.1)) ++
    (t.rho.zipIdx.map fun (p : Nat × Nat) =>
      (off (1229 + 32 * p.2), unused p.2 p.1 && (t.ncomp ≤ p.2 || positiveNormal p.1)))

/-! ### Lists (06 R117; 09 R195) -/

/-- Whether the descriptors from `p` number `k` and end at `stop`. -/
def framed (img : List Byte) (stop : Nat) : Nat → Nat → Bool
  | 0, p => p == stop
  | k + 1, p =>
    let n := leAt img (p + 1) 1
    2 ≤ n && n ≤ 32 && p + 16 * n ≤ stop && framed img stop k (p + 16 * n)

/-- Whether a buffer identifier names a buffer (09 R195). -/
def bufferOk (img : List Byte) (id : Nat) : Bool :=
  let k := id / 65536
  let i := id % 65536
  match k with
  | 0 => i == 1 || i == 2 || i == 3 || 0x100 ≤ i
  | 1 => (findSection img 0x20 i).isSome
  | 2 => i < (imageAdapt img).length
  | _ => false

/-- The checks of one list template, its DOMAIN given. -/
def templateChecks (img : List Byte) (domain : Nat) (t : Template) : List Check :=
  let at_ := fun o k => leAt img (t.off + o) k
  let r0 := t.off + t.len + 4
  [(t.off, at_ 0 1 == domain && framed img (t.off + t.len) (at_ 2 2) (t.off + 32)), (t.off + 1, at_ 1 1 ≤ 1),
   (t.off + 2, 1 ≤ at_ 2 2 && at_ 2 2 ≤ 4096), (t.off + 4, t.len % 16 == 0 && 32 ≤ t.len && t.len ≤ 2 ^ 20),
   (t.off + 19, at_ 19 1 == 0), (t.off + 20, allZero img (t.off + 20) 12)] ++
    (t.relocs.zipIdx.flatMap fun (p : (Nat × Nat) × Nat) =>
      ([(r0 + 16 * p.2, 32 ≤ p.1.1 && p.1.1 + 8 ≤ t.len), (r0 + 16 * p.2 + 4, bufferOk img p.1.2),
       (r0 + 16 * p.2 + 8, allZero img (r0 + 16 * p.2 + 8) 8)] : List Check)) ++
    ((t.places img).map fun p => (p, ((imageGeometry img).media == 0 || !([0x30, 0x31].contains (leAt img p 1))) &&
      (parsedAt ⟨0, 0, 0⟩ (t.filled img fun _ _ => 64) (p - t.off)).isSome) : List Check)

/-- Where templates laid out one after another end. -/
def templatesEnd (p : Nat) (ts : List Template) : Nat :=
  match ts.getLast? with
  | some t => t.off + t.len + 4 + 16 * t.relocs.length
  | none => p

/-! ### Networks (09 R193; 08 R184) -/

/-- Whether a role permits a domain: 0 EXACT, 1 FREE. -/
def roleAllows (role domain : Nat) : Bool := domain == 0 || (domain == 1 && [0, 1, 6].contains role)

/-- Where an operand of a list lies: the buffer it is relocated to, or its address. -/
def Template.placeOf (t : Template) (off base : Nat) : Option Nat × Nat :=
  match t.idAt off with
  | some id => (some id, 0)
  | none => (none, base)

/-- The tensor a network writes last (DESIGN CHOICE, log 24: its output). -/
def Network.output (n : Network) (img : List Byte) : Option (Template × Nat × Tensor) :=
  (n.lists.getLast?).bind fun t => (lastWritten (t.opsOf img)).map fun e => (t, e.1, e.2)

/-- The output tensors of the ANALYSIS networks (08 R184). -/
def analysisOutputs (img : List Byte) : List (Option Nat × Nat) :=
  ((imageNetworks img).filter (·.role == 0)).filterMap fun n => (n.output img).map fun e => e.1.placeOf e.2.1 e.2.2.base

/-- The checks of 08 R184 on one list of a LOOP network: ENC names its RECON, and the analysis output is only its latent
operand. -/
def loopListChecks (img : List Byte) (out : List (Option Nat × Nat)) (t : Template) : List Check :=
  let encs := (t.places img).filter fun p => leAt img p 1 == 0x28
  (encs.map fun p => (p + 228, (leAt img (p + 228) 8 != 0 || (t.bufferAt (p + 228)).isSome) &&
      !out.contains (t.placeOf (p + 228 - t.off) (canonAddr ⟨0, 0, 0⟩ (leAt img (p + 228) 8))))) ++
    ((t.opsOf img).flatMap fun o =>
      (o.tensorsAt.map fun e => (t.off + e.2.1,
        !out.contains (t.placeOf e.2.1 e.2.2.base) || (o.row.code == 0x28 && e.2.1 == o.off + 32))) ++
      o.rangesAt.map fun e => (t.off + e.1, !out.contains (t.placeOf e.1 e.2.base)))

def networkChecks (img : List Byte) (out : List (Option Nat × Nat)) (s : Section) : List Check :=
  let role := leAt img s.off 1
  let domain := leAt img (s.off + 1) 1
  let ts := templatesFrom img (leAt img (s.off + 2) 2) (s.off + 4)
  ([(s.off, role ≤ 7), (s.off + 1, domain ≤ 1 && roleAllows role domain), (s.off + 2, 1 ≤ leAt img (s.off + 2) 2),
   (s.off - 4, templatesEnd (s.off + 4) ts == s.off + s.len)] : List Check) ++
    ts.flatMap (templateChecks img domain) ++ (if role = 7 then ts.flatMap (loopListChecks img out) else [])

/-! ### Weights, ADAPT, QUANT, TRAIN -/

/-- A weight's packets: a scale of 03 R59, a zero point of its format, no reserved flag or end, its block's index. -/
def packetOk (img : List Byte) (w : Weight) (b : Nat) : Bool :=
  let p := w.packetsOff + 8 * b
  positiveNormal (leAt img p 4) && zpFits w.fmt (signed 8 (leAt img (p + 4) 1)) && leAt img (p + 5) 1 < 4 &&
    leAt img (p + 6) 2 == b % 65536

/-- The bytes of the BF16 rows that the outlier channels of a weight take, by an operation that names it: one row element for each
outlier channel, tap and output channel (03 R69; log 81). -/
def outlierBytes (img : List Byte) (w : Weight) (e : OutlierCfg) : Option Nat :=
  match (imageNetworks img).find? (·.net == e.net) with
  | none => none
  | some n => n.lists[e.list]?.bind fun t =>
    (t.opsOf img).find? (·.index == e.op) |>.bind fun o =>
      if t.weightId img o = some w.id then
        some (2 * (((e.masks.map fun m => ((List.range 256).filter (bit m)).length).sum) * w.kh * w.kw *
          (if o.row.code = 3 ∨ o.row.code = 4 then ceilDiv w.cout (windowOf o.op.own).groups else w.cout)))
      else none

/-- Whether the outlier rows of a weight are as long as the masks of the operations that name it ask; FLAGS bit 1 clear: none
(09 R196). -/
def outlierRowsOk (img : List Byte) (w : Weight) : Bool :=
  if w.outlierRows then
    let ls := (imageQuant img).outliers.filterMap (outlierBytes img w)
    ls != [] && ls.all (· == w.rowsLen)
  else w.rowsLen == 0

def weightChecks (img : List Byte) (s : Section) : List Check :=
  let at_ := fun o k => leAt img (s.off + o) k
  match weightOf img s with
  | none => [(s.off, false)]
  | some w =>
    let g := at_ 1 1
    let n := w.cout * w.k
    ([(s.off, w.fmt != .xacc), (s.off + 1, g / 16 == 0 && g % 4 != 3 && (g % 4 == 2 || g / 4 == 0)), (s.off + 2, w.cout != 0),
     (s.off + 4, w.kh != 0), (s.off + 5, w.kw != 0), (s.off + 6, w.cin != 0), (s.off + 8, w.placement ≤ 1),
     (s.off + 9, at_ 9 1 ≤ 3), (s.off + 10, at_ 10 4 == 0),
     (s.off - 4, 14 + codeBytes w.fmt n + 8 * w.packets + w.rowsLen == s.len && outlierRowsOk img w &&
       (!w.fmt.alwaysScaled || w.packets != 0)),
     (w.packetsOff - 1, w.fmt != .int4 || n % 2 == 0 || leAt img (w.packetsOff - 1) 1 / 16 == 0)] : List Check) ++
      (List.range w.packets).map fun b => (w.packetsOff + 8 * b, packetOk img w b)

/-- Whether a network of a role that may not read adaptable layers reads layer `a`, whose weight is `id` (09 R210). -/
def misread (img : List Byte) (a id : Nat) : Bool :=
  (imageNetworks img).any fun n => [0, 1, 7].contains n.role &&
    n.lists.any fun t => t.relocs.any fun r => r.2 == 65536 + id || r.2 == 2 * 65536 + a

def adaptChecks (img : List Byte) (s : Section) : List Check :=
  let l := imageAdapt img
  let layerOk := fun (a id : Nat) => match imageWeight img id with
    | some w => w.fmt == .int8 && w.gran ≤ 1 && w.adaptable && !w.outlierRows && !misread img a id
    | none => false
  ([(s.off - 4, s.len == 1 + 3 * l.length), (s.off, 1 ≤ l.length && l.length ≤ 64)] : List Check) ++
    l.zipIdx.flatMap fun (p : (Nat × Nat) × Nat) =>
      [(s.off + 1 + 3 * p.2, layerOk p.2 p.1.1 && !((l.take p.2).any (·.1 == p.1.1))),
       (s.off + 3 + 3 * p.2, 1 ≤ p.1.2 && p.1.2 ≤ 16)]

/-- A weight marked ADAPTABLE is listed by ADAPT (09 R210). -/
def adaptableListed (img : List Byte) (s : Section) : List Check :=
  [(s.off + 9, !bit (leAt img (s.off + 9) 1) 0 || (imageAdapt img).any (·.1 == s.index))]

/-- The order of entries (NET, LIST, OP). -/
def quantKey (net list op : Nat) : Nat := net * 2 ^ 32 + list * 2 ^ 16 + op

/-- The format an operation writes; INT8 where it writes none. -/
def descrFmt (img : List Byte) (p : Nat) : Fmt :=
  match (descrSlots img p).find? (·.1 == .written) with
  | some x => (Fmt.ofCode (leAt img (p + x.2 + 26) 1)).getD .int8
  | none => .int8

def quantChecks (img : List Byte) (s : Section) : List Check :=
  let q := imageQuant img
  let keys := q.carried.map fun c => quantKey c.net c.list c.op
  let oKeys := q.outliers.map fun c => quantKey c.net c.list c.op
  let n := q.carried.length
  let rises := fun (l : List Nat) (i : Nat) => i == 0 || l.getD (i - 1) 0 < l.getD i 0
  ([(s.off - 4, q.whole)] : List Check) ++
    (q.carried.zipIdx.flatMap fun (p : CarryCfg × Nat) =>
      let o := s.off + 13 * p.2
      [(o, rises keys p.2 && (quantOp img p.1.net p.1.list p.1.op).isSome), (o + 6, positiveNormal p.1.scale),
       (o + 10, match quantOp img p.1.net p.1.list p.1.op with | some d => zpFits (descrFmt img d) p.1.zp | none => true),
       (o + 11, 16 ≤ p.1.fact), (o + 12, leAt img (o + 12) 1 ≤ 1)]) ++
    q.outliers.zipIdx.map fun (p : OutlierCfg × Nat) =>
      (s.off + 13 * n, rises oKeys p.2 && p.1.masks.all fun m => ((List.range 256).filter (bit m)).length ≤ 8)

/-- A form of 02 R56 that may vary, as far as a descriptor shows it. -/
def mayVary (img : List Byte) (p : Nat) : Bool :=
  let code := leAt img p 1
  let acc32 := leAt img (p + 3) 1 == 1
  let first := Fmt.ofCode (leAt img (p + 32 + 26) 1) == some .fp32
  let sums := match (descrSlots img p).getLast? with
    | some x => [0, 1, 2].contains (leAt img (p + x.2 + 48) 1 % 16)
    | none => false
  (acc32 && ([1, 2, 3, 4, 5].contains code || (code == 9 && sums))) || (first && (code == 5 || code == 0x3B)) ||
    ([0x18, 0x19, 0x1A, 0x1B].contains code && descrFmt img p == .fp32)

/-- The three list groups of a TRAIN section: counts at bytes 28, 30 and 32, lists from byte 36. -/
def trainGroups (img : List Byte) (s : Section) : List Template × List Template × List Template :=
  let f := templatesFrom img (leAt img (s.off + 28) 2) (s.off + 36)
  let p1 := templatesEnd (s.off + 36) f
  let b := templatesFrom img (leAt img (s.off + 30) 2) p1
  let p2 := templatesEnd p1 b
  (f, b, templatesFrom img (leAt img (s.off + 32) 2) p2)

def trainChecks (img : List Byte) (s : Section) : List Check :=
  let at_ := fun o k => leAt img (s.off + o) k
  let (f, b, u) := trainGroups img s
  let count := fun n => 1 ≤ n && n ≤ 256
  [(s.off, at_ 0 2 != 0), (s.off + 2, at_ 2 2 != 0), (s.off + 4, positiveNormal (at_ 4 4)), (s.off + 8, at_ 8 1 ≤ 1),
   (s.off + 9, at_ 9 3 == 0), (s.off + 20, positiveNormal (at_ 20 4)), (s.off + 24, at_ 24 4 == 0), (s.off + 28, count (at_ 28 2)),
   (s.off + 30, count (at_ 30 2)), (s.off + 32, count (at_ 32 2)), (s.off + 34, at_ 34 2 == 0),
   (s.off - 4, templatesEnd (s.off + 36) (f ++ b ++ u) == s.off + s.len)] ++
    (f ++ b).flatMap (templateChecks img 0) ++ u.flatMap (templateChecks img 1) ++
    u.map fun t => (t.off, !((t.places img).any (mayVary img)))

/-! ### The whole image -/

/-- The checks of a section's content. -/
def contentChecks (img : List Byte) (out : List (Option Nat × Nat)) (s : Section) : List Check :=
  match s.tag with
  | 1 => geometryChecks img s
  | 2 => loopChecks img s
  | 3 => tableSetChecks img s
  | 4 => quantChecks img s
  | 5 => adaptChecks img s
  | 6 => trainChecks img s
  | 0x10 => networkChecks img out s
  | 0x20 => weightChecks img s ++ adaptableListed img s
  | _ => []

/-- Every check of step 1 of 09 R201. The contents are read only where the frames hold. -/
def imageChecks (img : List Byte) (lo hi : Nat) : List Check :=
  let ss := imageSections img
  let frames := headerChecks img lo hi ++ framesChecks img (0, 0) ss
  if (framesChecks img (0, 0) ss).all (·.2) && ss.length == leAt img 4 4 then
    frames ++ ss.flatMap (contentChecks img (analysisOutputs img))
  else frames

/-- The offset of the first failing field, none when the image passes. -/
def imageFault (img : List Byte) (lo hi : Nat) : Option Nat :=
  ((imageChecks img lo hi).filter (! ·.2)).foldl (fun m c => some (match m with | some x => min x c.1 | none => c.1)) none

end Sys2Proof.Machine
end

