-- ==== Sys2Proof/Machine/Costs.lean ====
section
/-! DEFINITION. What admission takes from a profile (01 R26; 05 R106; 06 R140; 08 R187, R189; 10 R229, R239; 11 R263): the lists that a
kind of stream runs, the cycles of a tile's chain, its lane cycles, and the buffers of its stages. The spec gives the tables of cycles;
which lists it means, and how they scale to a tile, is log 24. -/

namespace Sys2Proof.Machine

/-! ### The lists a stream runs -/

/-- Whether a stream runs a network: `dir` 0 encodes, 1 decodes; a LATENT stream runs the heads its mask names and no SYNTHESIS (09 R193;
11 R261). -/
def Network.runs (n : Network) (dir : Nat) (latent : Bool) (heads : Nat) : Bool :=
  if latent then [2, 3, 5, 7].contains n.role || (n.role == 6 && bit heads n.net)
  else if dir = 0 then n.role ≤ 5 || n.role == 7
  else [2, 3, 4, 5, 7].contains n.role

/-- ENC and DEC. -/
def codes (o : TOp) : Bool := o.row.code == 0x28 || o.row.code == 0x29

/-- The lists a stream runs, with their network's number and their place in it: of a LOOP network those without the other direction's
operation. -/
def runningLists (img : List Byte) (dir : Nat) (latent : Bool) (heads : Nat) : List (Nat × Nat × Template) :=
  ((imageNetworks img).filter fun n => n.runs dir latent heads).flatMap fun n =>
    n.lists.zipIdx.filterMap fun (t : Template × Nat) =>
      if (t.1.opsOf img).any fun o => o.row.code == (if dir = 0 then 0x29 else 0x28) then none else some (n.net, t.2, t.1)

/-- The latents of an ENC or DEC. -/
def TOp.latents (o : TOp) : Tensor := if o.row.code = 0x28 then o.op.t 0 else o.op.t 2

/-- Latent positions of the grid that a stream's lists are written for: of their first coding operation after the hyper step. -/
def templateGrid (img : List Byte) (lists : List (Nat × Nat × Template)) : Nat :=
  let all := (lists.flatMap fun l => (l.2.2.opsOf img).filter codes).map fun o => o.latents.h * o.latents.w
  max 1 ((if (imageLoop img).hyper = 0 then all else all.drop 1).headD 1)

/-! ### Cycles (08 R187) -/

/-- `n` of a template as a tile of `a` latent positions has it, where the template has `b`. -/
def scaledTo (a b n : Nat) : Nat := ceilDiv (n * a) (max 1 b)

/-- Multiply-accumulates of a unit's tensor array per cycle (01 R26). -/
def arrayRate : Fmt → Nat
  | .int4 => 1024
  | .int8 | .e4m3 | .e5m2 | .lns8 => 512
  | .lns16 => 256
  | .bf16 | .fp16 => 128
  | _ => 32

/-- Multiply-accumulates of the depthwise path per cycle (05 R106). -/
def pathRate : Fmt → Nat
  | .int4 | .int8 | .e4m3 | .e5m2 | .lns8 => 128
  | .lns16 => 64
  | .bf16 | .fp16 => 32
  | _ => 16

/-- The format of the second operand of a product. -/
def weightFmt (img : List Byte) (t : Template) (o : TOp) : Fmt :=
  match (t.weightId img o).bind (imageWeight img) with
  | some w => w.fmt
  | none => if o.row.code = 0x01 then (o.op.t 1).fmt else (o.op.t 0).fmt

/-- Multiply-accumulates of a product. -/
def TOp.macs (o : TOp) : Nat :=
  let v := windowOf o.op.own
  let out := ((o.op.tensors.getLastD none).getD Tensor.absent).count
  let c := (o.op.t 0).c
  if o.row.code = 0x01 then out * c
  else if o.row.code = 0x02 then out * (v.kh * v.kw * c)
  else out * (v.kh * v.kw * (c / max 1 v.groups))

/-- Elements of an operation's largest tensor. -/
def TOp.elements (o : TOp) : Nat := (o.tensorsAt.map fun e => e.2.2.count).foldl max 0

/-- Symbols of a coding operation on a tile. -/
def TOp.symbols (o : TOp) (a b : Nat) : Nat :=
  let n := scaledTo a b (o.latents.h * o.latents.w)
  let parity := bits o.op.own 16 8
  bits o.op.own 48 16 * (if parity = 1 then (n + 1) / 2 else if parity = 2 then n / 2 else n)

/-- Cycles of an operation on its engine: products by the rates of their formats, array operations at 1.25 times (10 R239), special
functions 16 elements, the vector engine and the address generators 64; MSEARCH 553 for each block and reference (10 R229). -/
def TOp.cycles (o : TOp) (img : List Byte) (t : Template) (a b refs : Nat) : Nat :=
  let n := scaledTo a b o.elements
  let macs := scaledTo a b o.macs
  let f := (o.op.t 0).fmt
  let w := weightFmt img t o
  match o.row.code with
  | 0x01 | 0x02 => ceilDiv (5 * macs) (4 * min (arrayRate f) (arrayRate w))
  | 0x03 | 0x04 => ceilDiv macs (min (pathRate f) (pathRate w))
  | 0x18 | 0x19 | 0x1A | 0x1B => ceilDiv n 16
  | 0x28 => ceilDiv (o.symbols a b) 64 + (24 + o.symbols a b + 16)
  | 0x29 => 24 + o.symbols a b + 16
  | 0x30 => scaledTo a b ((o.op.t 0).h / 16 * ((o.op.t 0).w / 16)) * 553 * refs
  | 0x40 => 12
  | 0x44 => 16
  | _ => if o.row.engine.isSome then ceilDiv n 64 else 0

/-- Operations of a list charged twice: carried-scale ones of POLICY 1 (03 R76; 08 R189). -/
def rerunOps (img : List Byte) (net list : Nat) : List Nat :=
  (imageQuant img).carried.filterMap fun q => if q.net = net ∧ q.list = list ∧ q.rerun then some q.op else none

/-- The wait charged for an engine: one chunk of lower class, and a lane's switch (08 R189). -/
def engineWait : Engine → Nat
  | .lane => 16384 + 32
  | _ => 16384

/-- A step's cycles beside its operations': the fence, and a hand-off at each change of engine and to the next step (08 R187); and the
wait on every engine it uses (08 R189). -/
def stepExtra (es : List Engine) : Nat :=
  let changes := ((es.zip (es.drop 1)).filter fun p => p.1 != p.2).length
  12 + 16 * (changes + 1) + ((dedup es).map engineWait).sum

/-- The chain of a list (08 R189; 10 R239): `before` the operations since the latest coding one. What stands before the hyper step, and
after the last step, belongs to no step. -/
def chainFrom (cost : TOp → Nat) (lone : List TOp → Nat) (hyper : Bool) : List TOp → List TOp → Nat
  | [], before => lone before
  | o :: os, before =>
    if codes o then
      let mine := (before.filter fun x => x.row.code != 0x40) ++ [o]
      (if hyper then lone before + cost o + stepExtra [.lane]
       else (mine.map cost).sum + stepExtra (mine.filterMap fun x => x.row.engine)) + chainFrom cost lone false os []
    else chainFrom cost lone hyper os (before ++ [o])

/-- The chain of a list on a tile of `a` latent positions, the template's having `b`, with `refs` references searched. -/
def listChain (img : List Byte) (a b refs : Nat) (l : Nat × Nat × Template) : Nat :=
  let twice := rerunOps img l.1 l.2.1
  let cost := fun (o : TOp) => o.cycles img l.2.2 a b refs * (if twice.contains o.index then 2 else 1)
  let lone := fun (os : List TOp) => (os.map fun o => cost o + (match o.row.engine with | some e => engineWait e | none => 0)).sum
  let ops := l.2.2.opsOf img
  chainFrom cost lone (0 < (imageLoop img).hyper && ops.any codes) ops []

/-- The lane cycles of a list on a tile. -/
def listLane (img : List Byte) (a b : Nat) (l : Nat × Nat × Template) : Nat :=
  (((l.2.2.opsOf img).filter codes).map fun o => 24 + o.symbols a b + 16).sum

/-! ### Stage buffers (06 R140; 09 R195) -/

/-- Bytes from BASE that a tensor takes. -/
def Tensor.extent (t : Tensor) : Nat := (t.planes - 1) * t.planePitch + t.h * t.rowPitch

/-- The address fields of a descriptor with the bytes that each names (05 R94, R95; 07 R156, R161). -/
def TOp.fields (o : TOp) : List (Nat × Nat) :=
  let n := o.symbols 1 1
  let tensor := fun (p : Nat) (t : Tensor) => [(p, t.extent), (p + 32, 8 * t.blocks + 8)]
  let d := (o.op.tensors.getLastD none).getD Tensor.absent
  [(o.off + 8, 32), (o.off + 16, 8 * d.blocks)] ++ (o.tensorsAt.flatMap fun e => tensor e.2.1 e.2.2) ++
    (o.rangesAt.map fun e => (e.1, max e.2.len (if codes o then 64 + 2 * n else 0))) ++
    (if codes o then
      (o.ownAt + 28, 16) :: (match parseTensor ⟨0, 0, 0⟩ false (leBytes 48 (bits o.op.own 288 384)) with
        | .ok t => tensor (o.ownAt + 36) t
        | .error _ => [])
     else if o.row.code = 0x1A then [(o.ownAt + 5, 2 * (o.op.t 0).c), (o.ownAt + 13, 2 * (o.op.t 0).c)]
     else if o.row.code = 0x3A then [(o.ownAt, (o.op.t 0).extent)]
     else if o.row.code = 0x42 ∨ o.row.code = 0x43 then [(o.ownAt, 8)]
     else [])

/-- Bytes of bypass field that a list's steps may need at a field: 48 bits a symbol (07 R159). -/
def TOp.bypassField (o : TOp) : List (Nat × Nat) := if codes o then [(o.ownAt + 8, max (bits o.op.own 128 32) (6 * o.symbols 1 1))] else []

/-- The working buffers that lists name, with the bytes of each: the stages of a stream or job, one buffer each (06 R140; log 24). -/
def stageBuffers (img : List Byte) (ts : List Template) : List (Nat × Nat) :=
  let named := fun (f : TOp → List (Nat × Nat)) => ts.flatMap fun t => (t.opsOf img).flatMap fun o => (f o).filterMap fun e =>
    (t.idAt e.1).bind fun id => if 0x100 ≤ id ∧ id < 65536 then some (id, e.2) else none
  let most := named TOp.fields
  let sums := named TOp.bypassField
  (dedup ((most ++ sums).map (·.1))).map fun id =>
    (id, max (((most.filter (·.1 == id)).map (·.2)).foldl max 0) ((sums.filter (·.1 == id)).map (·.2)).sum)

end Sys2Proof.Machine
end

