-- ==== Sys2Proof/Machine/Profiles.lean ====
section
/-! DEFINITION. Profiles: staging, loading, the switch of table banks, unloading and querying (09 R199 to R205; 07 R163 to R166;
06 R139; 18 R407, R415). -/

namespace Sys2Proof.Machine

/-! ### Staging (09 R200; 18 R413; 19 R425) -/

/-- Granules a staging area takes. -/
def granules (bytes : Nat) : Nat := ceilDiv bytes 65536

/-- Granules of D0's LPDDR5X pool that staged profiles hold. -/
def State.stagedGranules (s : State) : Nat :=
  ((s.staging.filter (·.kind == 0)).map fun (g : Staging) => granules g.length).sum

/-- Free shared granules of D0's LPDDR5X pool (06 R139). -/
def State.sharedFree (s : State) : Nat :=
  let p := (s.die 0).poolLp
  p.sharedSize false - heldGranules p.shared - s.stagedGranules

/-- Whether `need` bytes at a base lie in [`lo`, `hi`) and meet no staging area. -/
def State.stageFits (s : State) (lo hi need base : Nat) : Bool :=
  lo ≤ base && base + need ≤ hi && !(s.staging.any fun g => base < g.base + roundUp g.length 65536 && g.base < base + need)

/-- Where firmware stages `len` bytes inside [`lo`, `hi`): a free place (log 23), and the state with the draw counted. -/
def State.stagePlace (s : State) (lo hi len : Nat) : Option (Nat × State) :=
  let need := 65536 * granules len
  let (v, s1) := s.draw
  let first := lo + 65536 * (v % max 1 ((hi - lo) / 65536))
  (((first :: s.staging.map fun (g : Staging) => g.base + roundUp g.length 65536) ++ [lo]).find? (s.stageFits lo hi need)).map
    fun b => (b, s1)

/-- A staging area with its queue pair and RKEY, and the reply: STAGE_ID, zero, MR (13 R301). -/
def State.newStage (s : State) (d : Datagram) (kind base len : Nat) : State × Answer :=
  let (id, s1) := s.newNumber
  let (qpn, s2) := s1.newQp false id 3 (networkOf d.port)
  let (key, s3) := s2.draw
  let g : Staging := {
    id := id, kind := kind, session := d.session.toNat, length := len, base := base, rkey := key % 2 ^ 32, qpn := qpn }
  ({ s3 with staging := s3.staging ++ [g] },
    .good (beBytes 4 id ++ zeros 4 ++ beBytes 8 base ++ beBytes 4 (key % 2 ^ 32) ++ beBytes 8 len ++ beBytes 3 qpn ++ [0]))

/-- A staging area released, with its queue pair. -/
def State.dropStage (s : State) (id : Nat) : State :=
  match s.staging.find? (·.id == id) with
  | some g => ({ s with staging := s.staging.filter (·.id != id) } : State).closeQp g.qpn
  | none => s

/-- The live staging area of a kind with a number. -/
def State.stageOf (s : State) (kind id : Nat) : Option Staging := s.staging.find? fun g => g.kind == kind && g.id == id

/-- The bytes staged. -/
def State.stagedBytes (s : State) (g : Staging) : List Byte := s.bytesAt g.base g.length

/-! ### Loading (09 R201 to R203; 07 R165) -/

/-- Granules the weights of an image take in a pool: placement 0 deep SRAM, 1 LPDDR5X (09 R196, 06 R139). -/
def weightGranules (img : List Byte) (placement : Nat) : Nat :=
  granules (((imageWeights img).filter (·.placement == placement)).map Weight.bytes).sum

/-- Set slots that loaded profiles use (07 R165). -/
def State.setSlotsUsed (s : State) : List Nat :=
  s.profiles.flatMap fun p => match p with
    | some f => f.setSlots
    | none => []

/-- Free set slots. -/
def State.setSlotsFree (s : State) : List Nat := (List.range 4).filter fun i => !s.setSlotsUsed.contains i

/-- Whether every die's pools have room for the weights of an image (06 R139, 18 R407). -/
def State.weightsFit (s : State) (img : List Byte) : Bool :=
  (s.dies.take s.dieCount).all fun d =>
    d.poolLp.covers false 0 (weightGranules img 1) && d.poolDs.covers true 0 (weightGranules img 0)

/-- The slot that holds a digest. -/
def State.slotOf (s : State) (digest : List Byte) : Option Nat :=
  (List.range 4).find? fun i => match s.profiles.getD i none with
    | some p => p.digest == digest
    | none => false

/-- An empty slot. -/
def State.slotFree (s : State) : Option Nat := (List.range 4).find? fun i => (s.profiles.getD i none).isNone

/-- COMMIT's reply parameters: SLOT, zero. -/
def slotParams (slot : Nat) : List Byte := [byte slot, 0, 0, 0]

/-- A COMMIT that ends before the bank steps; its staging area is released (09 R200, R202). -/
def State.commitEnds (s : State) (id : Nat) (st : Status) (ps : List Byte) (detail : Nat) : State × Answer :=
  (s.dropStage id, { status := .pending, params := zeros 4, final := some (st, ps, 0xFFFFFFFF, detail) })

/-- The weights of an image take their granules on every die (06 R139). -/
def State.placeWeights (s : State) (slot : Nat) (img : List Byte) : State :=
  s.onDies fun d => { d with
    poolLp := { d.poolLp with weights := d.poolLp.weights ++ [(slot, weightGranules img 1)] }
    poolDs := { d.poolDs with weights := d.poolDs.weights ++ [(slot, weightGranules img 0)] } }

/-- COMMIT's steps 1 to 4 (09 R201): the weights take their room at once; a load that passes them waits for its bank steps. -/
def State.commit (s : State) (r : Req) (g : Staging) : State × Answer :=
  let img := s.stagedBytes g
  match imageFault img s.abiMin s.abiMax with
  | some off => s.commitEnds g.id .badParam [] off
  | none =>
    match s.slotOf (slice img 32 32) with
    | some slot => s.commitEnds g.id .ok (slotParams slot) 0
    | none =>
      let sets := (imageTableSets img).length
      match s.slotFree with
      | none => s.commitEnds g.id .noResource [] 0
      | some slot =>
        if s.setSlotsFree.length < sets || !s.weightsFit img then s.commitEnds g.id .noResource [] 0
        else
          ({ s.placeWeights slot img with loading := some {
              req := r, stageId := g.id, slot := slot, image := img, setSlots := s.setSlotsFree.take sets } },
            .wait (zeros 4))

/-- PROFILE_LOAD (09 R200, R201, R203; 13 R301). -/
def State.profileLoad (s : State) (d : Datagram) : State × Answer :=
  let phase := beAt d.params 0 1
  let id := beAt d.params 4 4
  if 2 < phase then (s, .fail .badParam 0)
  else if d.params.length ≠ (if phase = 0 then 12 else 8) then (s, .fail .badParam)
  else if beAt d.params 1 3 ≠ 0 then (s, .fail .badParam 1)
  else if phase = 0 then
    let len := beAt d.params 4 8
    if len = 0 ∨ 2 ^ 31 < len then (s, .fail .badParam 4)
    else if s.sharedFree < granules len then (s, .fail .noResource)
    else
      match s.stagePlace 0 0x2FC0000000 len with
      | none => (s, .fail .noResource)
      | some (base, t) => t.newStage d 0 base len
  else
    match s.stageOf 0 id with
    | none => (s, .fail .badParam 4)
    | some g =>
      if phase = 2 then (s.dropStage id, .good [])
      else if s.loading.isSome || s.activation.isSome then (s, .fail .resourceBusy)
      else s.commit (dgReq d) g

/-- PROFILE_LOAD STAGE. -/
def execProfileLoadStage (d : Datagram) (s : State) : Host.Outcome State Fault Refusal :=
  .next (s.serve d 0x0010 true none none fun _ t => t.profileLoad d)

/-- PROFILE_LOAD COMMIT. -/
def execProfileLoadCommit (d : Datagram) (s : State) : Host.Outcome State Fault Refusal :=
  .next (s.serve d 0x0010 true none none fun _ t => t.profileLoad d)

/-- PROFILE_LOAD ABANDON. -/
def execProfileLoadAbandon (d : Datagram) (s : State) : Host.Outcome State Fault Refusal :=
  .next (s.serve d 0x0010 true none none fun _ t => t.profileLoad d)

/-- Whether an operation is bound to the inactive bank (07 R164 to R166). -/
def State.bankHeld (s : State) : Bool :=
  s.threads.any fun t => t.out.any fun o => !o.done && o.bank == some (1 - s.activeBank)

/-- The bank a switch makes active: the sets in use copied, the new sets built, the other slots empty (07 R165). -/
def State.newBank (s : State) (l : LoadRun) : List (List Table) :=
  let active := s.banks.getD s.activeBank []
  let built := (imageTableSets l.image).map TableSet.tables
  (List.range 4).map fun i =>
    match l.setSlots.findIdx? (· == i) with
    | some k => built.getD k []
    | none => if s.setSlotsUsed.contains i then active.getD i [] else []

/-- BANK_SWITCH (07 R165, R166; 09 R201 step 6): once nothing is bound to the inactive bank, every region switches at one tick,
the slot is LOADED, its digest enters the measurement log, and the load is answered. -/
def execBankSwitch (s : State) : Host.Outcome State Fault Refusal :=
  match s.loading with
  | none => .next s
  | some l =>
    if !s.firmwareRuns || s.bankHeld then .next s
    else
      let other := 1 - s.activeBank
      let s1 := { s with
        banks := modifyAt s.banks other fun _ => s.newBank l
        activeBank := other
        profiles := modifyAt s.profiles l.slot fun _ => some { image := l.image, digest := slice l.image 32 32, setSlots := l.setSlots }
        loading := none }
      .next (((s1.dropStage l.stageId).relogBase).finish l.req .ok (slotParams l.slot))

/-! ### Unloading and querying (09 R204, R199) -/

/-- Streams bound to a slot, until they close (09 R205). -/
def State.slotStreams (s : State) (slot : Nat) : Nat := (s.streams.filter (·.slot == slot)).length

/-- Unfinished jobs bound to a slot. -/
def State.slotJobs (s : State) (slot : Nat) : Nat := (s.jobs.filter fun j => j.state < 2 && j.slot == some slot).length

/-- A slot emptied: its weights released on every die, where pending granules may drop, its digest gone from the log
(09 R204; 18 R406, R407). -/
def State.emptySlot (s : State) (slot : Nat) : State :=
  ({ s with
    profiles := modifyAt s.profiles slot fun _ => none
    dies := s.dies.zipIdx.map fun (p : Die × Nat) =>
      ({ p.1 with
        poolLp := { p.1.poolLp with weights := p.1.poolLp.weights.filter (·.1 != slot) }
        poolDs := { p.1.poolDs with weights := p.1.poolDs.weights.filter (·.1 != slot) } }).dropPending p.2 s.gts } : State).relogBase

/-- PROFILE_UNLOAD (09 R204). -/
def execProfileUnload (d : Datagram) (s : State) : Host.Outcome State Fault Refusal :=
  .next (s.serve d 0x0011 true none none fun _ t =>
    let slot := beAt d.params 0 1
    if d.params.length ≠ 4 then (t, .fail .badParam)
    else if 3 < slot then (t, .fail .badParam 0)
    else if beAt d.params 1 3 ≠ 0 then (t, .fail .badParam 1)
    else if t.loading.isSome || t.activation.isSome then (t, .fail .resourceBusy)
    else if (t.profiles.getD slot none).isNone then (t, .fail .profileMissing)
    else if t.slotStreams slot + t.slotJobs slot ≠ 0 then (t, .fail .resourceBusy)
    else (t.emptySlot slot, { status := .pending, final := some (.ok, [], 0xFFFFFFFF, 0) }))

/-- PROFILE_QUERY (09 R199; 13 R301, R302). -/
def execProfileQuery (d : Datagram) (s : State) : Host.Outcome State Fault Refusal :=
  .next (s.serve d 0x0012 false none none fun _ t =>
    let slot := beAt d.params 0 1
    if d.params.length ≠ 4 then (t, .fail .badParam)
    else if beAt d.params 1 3 ≠ 0 then (t, .fail .badParam 1)
    else
      match t.profiles.getD slot none with
      | some p => (t, .good ([1, 0, 0, 0] ++ p.digest ++ profileName p.image ++ beBytes 4 (t.slotStreams slot) ++
          beBytes 4 (t.slotJobs slot)))
      | none => (t, .good (zeros 60)))

end Sys2Proof.Machine
end

