-- ==== Sys2Proof/Machine/Lossless.lean ====
section
/-! DEFINITION. The lossless engine (07 R168 to R179): the greedy parse, the ZLZ format, running out of output space and resuming. -/

namespace Sys2Proof.Machine

/-- The window of the match search. -/
def lzWin : Nat := 2 ^ 20

/-- The hash of four bytes (07 R170). -/
def hash4 (bs : List Byte) (p : Nat) : Nat := leAt bs p 4 * 0x9E3779B1 % 2 ^ 32 / 65536

/-- How many bytes agree from `c` and from `p`, `lim` at most. -/
def agree (a : Array Byte) (c p : Nat) : Nat → Nat
  | 0 => 0
  | k + 1 => if a.getD c 0 = a.getD p 0 then agree a (c + 1) (p + 1) k + 1 else 0

/-- The candidates of a position, nearest first: earlier positions of its hash inside the window, `depth` at most. The ring of
`prev` entries holds exactly these (07 R170). -/
def candidates (bs : List Byte) (p depth : Nat) : List Nat :=
  (((List.range (min p lzWin)).map fun i => p - 1 - i).filter fun c => hash4 bs c == hash4 bs p).take depth

/-- A token: a literal byte, or a match's length and distance. -/
inductive Token where
  | lit (b : Byte)
  | copy (len dist : Nat)
  deriving DecidableEq, Repr

/-- The bytes a token covers. -/
def Token.len : Token → Nat
  | .lit _ => 1
  | .copy n _ => n

/-- The token at a position (07 R170). -/
def nextToken (bs : List Byte) (a : Array Byte) (depth p : Nat) : Token :=
  let best :=
    if p + 4 ≤ bs.length then
      (candidates bs p depth).foldl (fun (b : Nat × Nat) c =>
        let l := agree a c p (min 65539 (bs.length - p))
        if b.1 < l then (l, p - c) else b) (0, 0)
    else (0, 0)
  if 4 ≤ best.1 then .copy best.1 best.2 else .lit (a.getD p 0)

/-- The tokens of the block that starts at `start`, from `p` on, and where the block ends (07 R171). -/
def blockTokens (bs : List Byte) (a : Array Byte) (depth start : Nat) : Nat → Nat → List Token × Nat
  | 0, p => ([], p)
  | k + 1, p =>
    if bs.length ≤ p ∨ start + 65536 ≤ p then ([], p)
    else
      let t := nextToken bs a depth p
      let r := blockTokens bs a depth start k (p + t.len)
      (t :: r.1, r.2)

/-- A symbol of an alphabet (true: LL) with its raw bits: their count and value. -/
structure LzSym where
  ll : Bool
  idx : Nat
  nraw : Nat
  raw : Nat
  deriving DecidableEq, Repr

/-- The symbols of a token (07 R172). -/
def Token.syms : Token → List LzSym
  | .lit b => [⟨true, b.toNat, 0, 0⟩]
  | .copy n d =>
    let m := n - 4
    let e := log2 m
    let q := d - 1
    let g := log2 q
    [if m < 16 then ⟨true, 256 + m, 0, 0⟩ else ⟨true, 272 + 2 * (e - 4) + bits m (e - 1) 1, e - 1, m % 2 ^ (e - 1)⟩,
     if q < 4 then ⟨false, q, 0, 0⟩ else ⟨false, 4 + 2 * (g - 2) + bits q (g - 1) 1, g - 1, q % 2 ^ (g - 1)⟩]

/-- Sizes of the alphabets. -/
def llSize : Nat := 296
def dSize : Nat := 40

/-- Frequencies from counts (07 R173). -/
def zlzNorm (cnt : List Nat) : List Nat :=
  let total := cnt.sum
  if total = 0 then cnt
  else
    let f := cnt.map fun c => if c = 0 then 0 else max 1 (rneDiv (c * 65536 : Nat) total).toNat
    modifyAt f (argMax f) fun x => x + 65536 - f.sum

/-- Counts of an alphabet's symbols. -/
def symCounts (l : List LzSym) (ll : Bool) : List Nat :=
  (List.range (if ll then llSize else dSize)).map fun i => (l.filter fun s => s.ll == ll && s.idx == i).length

/-- A presence map of `w` bits. -/
def presence (f : List Nat) (w : Nat) : List Byte :=
  leBytes (w / 8) ((f.zipIdx.map fun p => if p.1 = 0 then 0 else 2 ^ p.2).sum)

/-- Zero bytes to a multiple of four. -/
def pad4 (bs : List Byte) : List Byte := bs ++ zeros (roundUp bs.length 4 - bs.length)

/-- A block's bytes (07 R174, R175). -/
def lzBlock (data : List Byte) (tokens : List Token) (last : Bool) : List Byte :=
  let syms := tokens.flatMap Token.syms
  let fl := zlzNorm (symCounts syms true)
  let fd := zlzNorm (symCounts syms false)
  let seg := ransEncode (syms.map fun s => entryOf (if s.ll then fl else fd) s.idx)
  let raw := syms.flatMap fun s => natBits s.nraw s.raw
  let freqs := pad4 (((fl ++ fd).filter (· != 0)).flatMap fun f => leBytes 2 (f - 1))
  let head := fun (kind len : Nat) => [byte (b01 last + 2 * kind), 0, 0, 0] ++ leBytes 4 len ++ leBytes 4 data.length ++
    leBytes 4 (crc32c data)
  let body := leBytes 4 tokens.length ++ leBytes 4 syms.length ++ leBytes 4 seg.length ++ leBytes 4 raw.length ++
    presence fl 320 ++ presence fd 64 ++ freqs ++ seg ++ packBits raw
  let coded := roundUp (16 + body.length) 4
  let stored := roundUp (16 + data.length) 4
  if tokens = [] ∨ stored < coded then pad4 (head 1 stored ++ data) else pad4 (head 0 coded ++ body)

/-- The ZLZ stream header (07 R174). -/
def lzHeader (depth len : Nat) : List Byte := leBytes 2 0x5A4C ++ [1, 0] ++ leBytes 2 depth ++ zeros 2 ++ leBytes 8 len

/-- A run of the engine: bytes out, blocks, and the positions reached since the job's start; `full`: the next block does not fit. -/
structure LzRun where
  out : List Byte := []
  blocks : Nat := 0
  consumed : Nat := 0
  produced : Nat := 0
  full : Bool := false
  /-- damage: the cause number and the block index (07 R175) -/
  damage : Option (Nat × Nat) := none
  deriving DecidableEq, Repr

/-- Packing on from a position while blocks fit `cap` (07 R176). -/
def packLoop (bs : List Byte) (a : Array Byte) (depth cap : Nat) : Nat → LzRun → LzRun
  | 0, r => r
  | k + 1, r =>
    let (ts, e) := blockTokens bs a depth r.consumed (bs.length + 1) r.consumed
    let last := e == bs.length
    let b := (if r.produced = 0 then lzHeader depth bs.length else []) ++ lzBlock (slice bs r.consumed (e - r.consumed)) ts last
    if cap < r.out.length + b.length then { r with full := true }
    else
      let r' := { r with out := r.out ++ b, blocks := r.blocks + 1, consumed := e, produced := r.produced + b.length }
      if last then r' else packLoop bs a depth cap k r'

/-- LZ_PACK from the positions of a token, or from the start. -/
def lzPack (bs : List Byte) (depth cap consumed produced : Nat) : LzRun :=
  packLoop bs bs.toArray depth cap (bs.length / 65536 + 2) { consumed := consumed, produced := produced }

/-! ### Unpacking -/

/-- The symbols still to decode of a block. -/
structure LzDec where
  rans : Rans
  sym : Nat := 0
  rawPos : Nat := 0
  out : List Byte := []
  deriving DecidableEq, Repr

/-- A match's base and raw bit count from an index counted past the direct ones: `lo` direct values, exponents from `e0`. -/
def splitIdx (i lo e0 : Nat) : Nat × Nat :=
  if i < lo then (i, 0)
  else
    let e := e0 + (i - lo) / 2
    (2 ^ e + (i - lo) % 2 * 2 ^ (e - 1), e - 1)

/-- Raw bits read, or cause 7. -/
def readRaw (raw : List Byte) (rawBits n : Nat) (d : LzDec) : Except Nat (Nat × LzDec) :=
  if rawBits < d.rawPos + n then .error 7
  else .ok (bitsNat ((List.range n).map fun i => bitAt raw (d.rawPos + i)), { d with rawPos := d.rawPos + n })

/-- One symbol decoded with a table; a table that does not sum to 65,536 is cause 4, a failed rANS check 5. -/
def lzSymbol (seg : List Byte) (freq : List Nat) (d : LzDec) : Except Nat (Nat × LzDec) :=
  if freq.sum ≠ 65536 then .error 4
  else
    match ransSymbol seg freq d.sym d.rans with
    | .error _ => .error 5
    | .ok (k, r) => .ok (k, { d with rans := r, sym := d.sym + 1 })

/-- Bytes copied from `dist` back, overlapping as they come. -/
def copyBack (pre : List Byte) (out : List Byte) (dist : Nat) : Nat → List Byte
  | 0 => out
  | k + 1 =>
    let b := if dist ≤ out.length then out.getD (out.length - dist) 0 else pre.getD (pre.length - (dist - out.length)) 0
    copyBack pre (out ++ [b]) dist k

/-- One token decoded; `before` counts the bytes produced before the block and `pre` holds the last of them. -/
def lzToken (seg raw : List Byte) (rawBits : Nat) (fl fd : List Nat) (pre : List Byte) (before : Nat) (d : LzDec) : Except Nat LzDec := do
  let (k, d) ← lzSymbol seg fl d
  if k < 256 then .ok { d with out := d.out ++ [byte k] }
  else
    let (m, n) := splitIdx (k - 256) 16 4
    let (rb, d) ← readRaw raw rawBits n d
    let (j, d) ← lzSymbol seg fd d
    let (q, n2) := splitIdx j 4 2
    let (rd, d) ← readRaw raw rawBits n2 d
    let dist := q + rd + 1
    if before + d.out.length < dist ∨ pre.length + d.out.length < dist then .error 6
    else .ok { d with out := copyBack pre d.out dist (m + rb + 4) }

/-- Tokens decoded in order. -/
def lzTokens (seg raw : List Byte) (rawBits : Nat) (fl fd : List Nat) (pre : List Byte) (before : Nat) : Nat → LzDec → Except Nat LzDec
  | 0, d => .ok d
  | k + 1, d =>
    match lzToken seg raw rawBits fl fd pre before d with
    | .error e => .error e
    | .ok d' => lzTokens seg raw rawBits fl fd pre before k d'

/-- Frequencies of the present symbols of a map, from values stored as FREQ − 1. -/
def mapFreqs (m size : Nat) (stored : List Nat) : List Nat :=
  ((List.range size).foldl (fun (b : List Nat × List Nat) i =>
    if bit m i then (b.1 ++ [b.2.headD 0 + 1], b.2.drop 1) else (b.1 ++ [0], b.2)) ([], stored)).1

/-- A block's decoded bytes, or its cause of damage. -/
def lzUnblock (b : List Byte) (pre : List Byte) (before : Nat) : Except Nat (List Byte) :=
  let kind := bits (leAt b 0 1) 1 2
  let inLen := leAt b 8 4
  let check := fun (out : List Byte) => if out.length ≠ inLen ∨ crc32c out ≠ leAt b 12 4 then Except.error 8 else .ok out
  if kind = 1 then
    if b.length ≠ roundUp (16 + inLen) 4 then .error 3
    else if (b.drop (16 + inLen)).any (· != 0) then .error 2
    else check (slice b 16 inLen)
  else if b.length < 80 then .error 3
  else
    let tokens := leAt b 16 4
    let nsym := leAt b 20 4
    let segLen := leAt b 24 4
    let rawBits := leAt b 28 4
    let llMap := leAt b 32 40
    let dMap := leAt b 72 8
    let n := ((List.range llSize).filter (bit llMap)).length
    let k := ((List.range dSize).filter (bit dMap)).length
    let fEnd := 80 + roundUp (2 * (n + k)) 4
    let stop := fEnd + segLen + ceilDiv rawBits 8
    if llMap / 2 ^ llSize ≠ 0 ∨ dMap / 2 ^ dSize ≠ 0 then .error 2
    else if b.length ≠ roundUp stop 4 then .error 3
    else if (b.drop stop).any (· != 0) ∨ (slice b (80 + 2 * (n + k)) (fEnd - (80 + 2 * (n + k)))).any (· != 0) then .error 2
    else
      let stored := (List.range (n + k)).map fun i => leAt b (80 + 2 * i) 2
      let fl := mapFreqs llMap llSize (stored.take n)
      let fd := mapFreqs dMap dSize (stored.drop n)
      if (n ≠ 0 ∧ fl.sum ≠ 65536) ∨ (k ≠ 0 ∧ fd.sum ≠ 65536) then .error 4
      else
        let seg := slice b fEnd segLen
        match ransStart seg with
        | .error _ => .error 5
        | .ok r =>
          match lzTokens seg (slice b (fEnd + segLen) (ceilDiv rawBits 8)) rawBits fl fd pre before tokens { rans := r } with
          | .error e => .error e
          | .ok d =>
            if d.sym ≠ nsym ∨ d.rawPos ≠ rawBits then .error 3
            else if (ransEnd seg d.rans).isSome then .error 5
            else check d.out

/-- Unpacking on while blocks fit `cap`: `bs` the stream from the next block on, `base` its place in the whole stream, `total`
INPUT_LENGTH, `index` the next block's. -/
def unpackLoop (bs : List Byte) (base total cap : Nat) : Nat → Nat → List Byte → LzRun → LzRun
  | 0, _, _, r => r
  | k + 1, index, pre, r =>
    let p := r.consumed - base
    let hurt := fun c => { r with damage := some (c, index) }
    let h := leAt bs p 1
    let len := leAt bs (p + 4) 4
    let inLen := leAt bs (p + 8) 4
    if bs.length < p + 16 then hurt 3
    else if h / 8 ≠ 0 ∨ 1 < bits h 1 2 ∨ leAt bs (p + 1) 3 ≠ 0 then hurt 2
    else if len < 16 ∨ bs.length < p + len then hurt 3
    else if cap < r.out.length + inLen then { r with full := true }
    else
      match lzUnblock (slice bs p len) pre r.produced with
      | .error c => hurt c
      | .ok out =>
        let r' := { r with
          out := r.out ++ out, blocks := r.blocks + 1, consumed := r.consumed + len, produced := r.produced + out.length }
        if bit h 0 then
          if r'.produced ≠ total then hurt 9 else if p + len ≠ bs.length then hurt 10 else r'
        else if total < r'.produced then hurt 9
        else unpackLoop bs base total cap k (index + 1) ((pre ++ out).drop ((pre ++ out).length - min (pre ++ out).length lzWin)) r'

/-- Unpacking from the start of a stream: the header first. -/
def lzUnpack (bs : List Byte) (cap : Nat) : LzRun :=
  if bs.length < 16 then { damage := some (3, 0) }
  else if leAt bs 0 2 ≠ 0x5A4C ∨ leAt bs 2 1 ≠ 1 then { damage := some (1, 0) }
  else if leAt bs 3 1 ≠ 0 ∨ leAt bs 6 2 ≠ 0 then { damage := some (2, 0) }
  else
    let r := unpackLoop bs 0 (leAt bs 8 8) cap (bs.length / 16 + 1) 0 [] { consumed := 16 }
    if r.blocks = 0 then { r with consumed := 0 } else r

/-- Unpacking a stream from its next block on. -/
def lzUnpackFrom (bs window : List Byte) (consumed produced total cap : Nat) : LzRun :=
  unpackLoop bs consumed total cap (bs.length / 16 + 1) 0 window { consumed := consumed, produced := produced }

/-- The whole of a stream decompressed, none where it is damaged (07 R175); blocks of 32-bit lengths never fill the room given. -/
def lzAll (bs : List Byte) : Option (List Byte) :=
  let r := lzUnpack bs (2 ^ 64)
  if r.damage.isSome then none else some r.out

/-! ### Records and tokens (07 R176 to R178) -/

/-- The 32-byte result record. -/
def lzResult (r : LzRun) : List Byte :=
  leBytes 4 (b01 r.full) ++ leBytes 4 r.blocks ++ leBytes 8 r.consumed ++ leBytes 8 r.produced ++ zeros 8

/-- The resume token: `window` the last uncompressed bytes before the resume point. -/
def lzResumeToken (unpack : Bool) (depth consumed produced total : Nat) (window : List Byte) : List Byte :=
  let body := leBytes 2 0x5A52 ++ [byte (b01 unpack), 1] ++ leBytes 2 depth ++ zeros 2 ++ leBytes 8 consumed ++ leBytes 8 produced ++
    leBytes 8 total ++ leBytes 4 (crc32c window)
  body ++ leBytes 4 (crc32c body)

/-- The last bytes of the window before a point. -/
def lastWindow (bs : List Byte) (upto : Nat) : List Byte := slice bs (upto - min upto lzWin) (min upto lzWin)

/-- A token that holds together for a direction. -/
def tokenOk (unpack : Bool) (t : List Byte) : Bool :=
  t.length == 40 && leAt t 0 2 == 0x5A52 && leAt t 2 1 == b01 unpack && leAt t 3 1 == 1 && leAt t 6 2 == 0 &&
    crc32c (t.take 36) == leAt t 36 4

/-- A pack resumed from a token, none where a check fails (07 R178). -/
def resumePack (t bs : List Byte) (depth cap : Nat) : Option LzRun :=
  let c := leAt t 8 8
  if tokenOk false t && 1 ≤ depth && depth ≤ 256 && bs.length == leAt t 24 8 && c ≤ bs.length &&
      crc32c (lastWindow bs c) == leAt t 32 4 then
    some (lzPack bs depth cap c (leAt t 16 8))
  else none

/-- An unpack resumed from a token, none where a check fails. -/
def resumeUnpack (t bs window : List Byte) (cap : Nat) : Option LzRun :=
  let c := leAt t 8 8
  let p := leAt t 16 8
  if tokenOk true t && window.length == min p lzWin && crc32c window == leAt t 32 4 then
    some (if c = 0 then lzUnpack bs cap else lzUnpackFrom bs window c p (leAt t 24 8) cap)
  else none

/-- The event of a damaged stream (07 R175). -/
def lzDamageArg (d : Nat × Nat) : Nat := d.1 * 2 ^ 24 + d.2 % 2 ^ 24

/-! ### The operations -/

/-- Bytes of STATE_AREA: 8.5 MiB (07 R169). -/
def stateAreaLen : Nat := 17 * 2 ^ 19

/-- A state area where LZ_PACK may keep its hash state. -/
def stateAreaOk (s : State) (a : Nat) : Bool :=
  a % 64 == 0 && match locate s.dieCount a with
    | .lpddr .. | .deepSram .. => true
    | _ => false

/-- What a run of the engine does for an operation: output, record and, when the output is full, a token; a damaged stream
stops it. -/
def lzEff (dir : Bool) (depth total outAddr result tokenOut : Nat) (window : List Byte) (r : LzRun) : Eff :=
  match r.damage with
  | some d => { runs := [(outAddr, r.out)], stop := some { status := .streamDamaged, events := [(0x0502, lzDamageArg d)] } }
  | none =>
    { runs := [(outAddr, r.out), (result, lzResult r)] ++
        (if r.full && tokenOut != 0 then [(tokenOut, lzResumeToken dir depth r.consumed r.produced total window)] else []) }

/-- LZ_PACK (07 R169 to R178). -/
def lzPackWork : OpFn := fun x =>
  let n := x.op.own
  let at_ := fun lo => canonAddr x.th.id (bits n lo 64)
  let depth := bits n 0 16
  let inp := x.op.r 0
  let out := x.op.r 1
  let tin := at_ 160
  if depth = 0 || 256 < depth || bits n 16 16 ≠ 0 || !stateAreaOk x.s (at_ 96) then .error .badParam
  else .ok {
    reads := inp :: (if tin = 0 then [] else [⟨tin, 40⟩])
    writes := [out, ⟨at_ 32, 32⟩, ⟨at_ 96, stateAreaLen⟩] ++ (if at_ 224 = 0 then [] else [⟨at_ 224, 40⟩])
    run := fun s =>
      let bs := s.bytesAt inp.base inp.len
      let r := if tin = 0 then some (lzPack bs depth out.len 0 0)
        else resumePack (s.bytesAt tin 40) bs depth out.len
      match r with
      | none => { stop := some { status := .badParam } }
      | some r => lzEff false depth bs.length out.base (at_ 32) (at_ 224) (lastWindow bs r.consumed) r }

/-- LZ_UNPACK (07 R174 to R178). -/
def lzUnpackWork : OpFn := fun x =>
  let n := x.op.own
  let at_ := fun lo => canonAddr x.th.id (bits n lo 64)
  let inp := x.op.r 0
  let out := x.op.r 1
  let tin := at_ 160
  match ownRange x.th.id n 288 with
  | .error e => .error e
  | .ok win =>
    if bits n 16 16 ≠ 0 then .error .badParam
    else .ok {
      reads := inp :: (if tin = 0 then [] else [⟨tin, 40⟩, win])
      writes := [out, ⟨at_ 32, 32⟩] ++ (if at_ 224 = 0 then [] else [⟨at_ 224, 40⟩])
      run := fun s =>
        let bs := s.bytesAt inp.base inp.len
        let window := if tin = 0 then [] else s.bytesAt win.base win.len
        let token := s.bytesAt tin 40
        let r := if tin = 0 then some (lzUnpack bs out.len) else resumeUnpack token bs window out.len
        let total := if tin = 0 then leAt bs 8 8 else leAt token 24 8
        match r with
        | none => { stop := some { status := .badParam } }
        | some r => lzEff true (bits n 0 16) total out.base (at_ 32) (at_ 224)
            (let all := window ++ r.out; all.drop (all.length - min all.length lzWin)) r }

end Sys2Proof.Machine
end

