-- ==== Sys2Proof/Machine/Streams.lean ====
section
/-! DEFINITION. Streams: their parameters, admission, opening, configuring, closing and reporting (10 R222, R226, R227, R235 to R241,
R246; 11 R247, R248, R252, R260, R263; 13 R301 to R306; 14 R316, R317, R334). -/

namespace Sys2Proof.Machine

/-! ### Geometry (10 R223, R224; 11 R249, R250, R253, R254) -/

/-- Samples of a chroma plane per axis, by SAMPLING, in `n` luma samples. -/
def StreamParams.chroma (p : StreamParams) (n : Nat) : Nat :=
  match p.sampling with
  | 0 => n / 2
  | 1 => n
  | _ => 0

/-- Bytes of a raw sample of a kind of media. -/
def StreamParams.sampleBytes (p : StreamParams) (media : Nat) : Nat :=
  match media with
  | 0 => if p.bitDepth = 8 then 1 else 2
  | 1 => if p.bitDepth = 16 then 2 else 4
  | _ => 2

/-- Samples of an audio frame per channel. -/
def StreamParams.frame (p : StreamParams) : Nat := p.sampleRate / 50

/-- Bytes of a raw picture. -/
def StreamParams.rawSize (p : StreamParams) (media : Nat) : Nat :=
  match media with
  | 0 => (p.width * p.height + 2 * (p.chroma p.width * p.chroma p.height)) * p.sampleBytes 0
  | 1 => p.frame * p.channels * p.sampleBytes 1
  | _ => p.azimuth * p.beams * (4 + p.returnPlane)

/-- Extended width and height of a picture. -/
def StreamParams.extW (p : StreamParams) (media stride : Nat) : Nat :=
  match media with
  | 0 => roundUp p.width 16
  | 1 => roundUp p.frame (max 1 stride)
  | _ => roundUp p.azimuth (max 1 stride)

def StreamParams.extH (p : StreamParams) (media stride : Nat) : Nat :=
  match media with
  | 0 => roundUp p.height 16
  | 1 => 1
  | _ => roundUp p.beams (max 1 stride)

/-- Columns and rows of the tile grid. -/
def StreamParams.cols (p : StreamParams) (media stride : Nat) : Nat :=
  if media = 1 then 1 else ceilDiv (p.extW media stride) (max 1 p.tileSize)

def StreamParams.rows (p : StreamParams) (media : Nat) : Nat :=
  if media = 0 then ceilDiv (p.extH 0 16) (max 1 p.tileSize) else 1

/-- Tiles of a picture. -/
def StreamParams.tiles (p : StreamParams) (media stride : Nat) : Nat := p.cols media stride * p.rows media

/-- The tile's first column and row, and its width and height, in extended samples. -/
def StreamParams.tileBox (p : StreamParams) (media stride k : Nat) : Nat × Nat × Nat × Nat :=
  let w := p.extW media stride
  let h := p.extH media stride
  let nc := max 1 (p.cols media stride)
  let x := k % nc * p.tileSize
  let y := k / nc * p.tileSize
  match media with
  | 0 => (x, y, min p.tileSize (w - x), min p.tileSize (h - y))
  | 1 => (0, 0, w, 1)
  | _ => (x, 0, min p.tileSize (w - x), h)

/-- Bytes of the largest tile of a raw picture. -/
def StreamParams.tileRaw (p : StreamParams) (media : Nat) : Nat :=
  match media with
  | 0 =>
    let w := min p.width p.tileSize
    let h := min p.height p.tileSize
    (w * h + 2 * (p.chroma w * p.chroma h)) * p.sampleBytes 0
  | 1 => p.rawSize 1
  | _ => min p.azimuth p.tileSize * p.beams * (4 + p.returnPlane)

/-- Bytes of a scan's residual when every element is present (11 R258). -/
def StreamParams.residualMost (p : StreamParams) : Nat :=
  let n := p.azimuth * p.beams
  ceilDiv n 8 + p.cols 2 1 + 3 * n + (if p.imode = 1 then 3 * n else 0) + n * p.returnPlane

/-! ### Entries (13 R303, R304) -/

/-- An entry: its ID, the bytes of its value, and where it begins in the parameters. -/
structure Entry where
  id : Nat
  value : List Byte
  off : Nat
  deriving DecidableEq, Repr

/-- A row of the table of 13 R303: LEN; media (bits video, audio, range) and directions (bits encode, decode, ingest) for which it
is valid; class 0 only; when STREAM_CONFIG may set it: 0 never, 1 at any time, 2 before a video stream's first picture, 3 only
there. -/
structure EntryRule where
  id : Nat
  len : Nat
  media : Nat := 7
  dirs : Nat := 7
  class0 : Bool := false
  config : Nat := 0
  deriving DecidableEq, Repr

/-- The table of 13 R303. -/
def entryRules : List EntryRule :=
  [{ id := 0x01, len := 2, media := 1, config := 2 }, { id := 0x02, len := 2, media := 1, config := 2 },
   { id := 0x03, len := 1, media := 3, config := 2 }, { id := 0x04, len := 1, media := 1, config := 2 },
   { id := 0x05, len := 2, media := 5, config := 2 }, { id := 0x06, len := 2, config := 2 },
   { id := 0x07, len := 4, class0 := true }, { id := 0x08, len := 4, class0 := true }, { id := 0x09, len := 4, class0 := true },
   { id := 0x0A, len := 4, media := 2 }, { id := 0x0B, len := 1, media := 2 }, { id := 0x0C, len := 2, media := 4 },
   { id := 0x0D, len := 2, media := 4 }, { id := 0x0E, len := 1, media := 4 }, { id := 0x0F, len := 1, media := 4, config := 1 },
   { id := 0x10, len := 1, media := 4, config := 1 }, { id := 0x11, len := 1, media := 4, config := 1 },
   { id := 0x12, len := 2, media := 4, config := 1 }] ++
  [{ id := 0x20, len := 1, config := 1 }, { id := 0x21, len := 1 }, { id := 0x22, len := 1, config := 1 },
   { id := 0x23, len := 2, media := 1, config := 1 }, { id := 0x24, len := 1, config := 1 }, { id := 0x25, len := 4, dirs := 1 },
   { id := 0x26, len := 1, dirs := 1 }, { id := 0x27, len := 1, dirs := 2, config := 1 },
   { id := 0x28, len := 1, dirs := 2, config := 1 }, { id := 0x29, len := 1, dirs := 1 }, { id := 0x2A, len := 32, dirs := 2 },
   { id := 0x2B, len := 1, dirs := 4 }, { id := 0x2C, len := 1, dirs := 4 }, { id := 0x2D, len := 1 },
   { id := 0x2E, len := 4, config := 3 }]

/-- The entries of parameters from an offset to their end; the offset of the first byte that breaks the layout. -/
def entriesFrom (ps : List Byte) : Nat → Nat → Except Nat (List Entry)
  | 0, p => .error p
  | k + 1, p =>
    if p = ps.length then .ok []
    else
      let len := beAt ps (p + 2) 2
      let stop := p + 4 + roundUp len 4
      if ps.length < stop then .error p
      else if beAt ps (p + 4 + len) (stop - (p + 4 + len)) ≠ 0 then .error (p + 4 + len)
      else (entriesFrom ps k stop).map ({ id := beAt ps p 2, value := slice ps (p + 4) len, off := p } :: ·)

/-- Every entry of parameters from an offset. -/
def parseEntries (ps : List Byte) (p : Nat) : Except Nat (List Entry) := entriesFrom ps (ps.length / 4 + 1) p

/-- What a stream is, as far as its entries' rules ask. -/
structure Kind where
  media : Nat
  dir : Nat
  cls : Nat
  latent : Bool
  geo : Geometry
  deriving DecidableEq, Repr

/-- Whether a value lies in its range (10 R222, R226, R227; 11 R247, R248, R252; 13 R303; 06 R141). -/
def Kind.valueOk (k : Kind) (id v : Nat) : Bool :=
  let within := fun lo hi => decide (lo ≤ v) && decide (v ≤ hi)
  match id with
  | 0x01 | 0x02 => within 64 16384
  | 0x03 => if k.media = 0 then within 8 12 else v == 16 || v == 24
  | 0x04 => v ≤ 2
  | 0x05 => k.geo.hasTile v
  | 0x06 => within 1 1024
  | 0x07 => if k.media = 1 then v == 20000000 else within 1000000 1000000000
  | 0x0A => [16000, 32000, 44100, 48000, 96000].contains v
  | 0x0B => within 1 16
  | 0x0C => within 64 4096
  | 0x0D => within 8 256
  | 0x12 => within 1 256
  | 0x20 => v ≤ 100
  | 0x22 => k.media == 0 || v == 1
  | 0x26 => v ≤ 2
  | 0x0E | 0x10 | 0x21 | 0x24 | 0x27 | 0x28 | 0x2B | 0x2C | 0x2D => v ≤ 1
  | 0x2A => k.latent
  | 0x2E => v < 2 ^ 24
  | _ => true

/-- Whether STREAM_CONFIG may set an entry now (13 R303; 11 R248). `at_`: the APPLY_AT of the request. -/
def Kind.settable (k : Kind) (r : EntryRule) (started : Bool) (at_ : Nat) : Bool :=
  match r.config with
  | 1 | 3 => true
  | 2 => k.media == 0 && !started && at_ == 0
  | _ => false

/-- The offset at which entries break the rules of 13 R304; `config`: none at open, else whether a picture has started and the
request's APPLY_AT. -/
def Kind.entriesFault (k : Kind) (config : Option (Bool × Nat)) : List Nat → List Entry → Option Nat
  | _, [] => none
  | seen, e :: es =>
    match entryRules.find? (·.id == e.id) with
    | none => some e.off
    | some r =>
      let when_ := match config with
        | none => r.config != 3
        | some (started, at_) => k.settable r started at_
      if seen.contains e.id || !bit r.media k.media || !bit r.dirs k.dir || (r.class0 && k.cls != 0) || !when_ then some e.off
      else if e.value.length ≠ r.len then some (e.off + 2)
      else if !k.valueOk e.id (beNat e.value) then some (e.off + 4)
      else k.entriesFault config (e.id :: seen) es

/-- A parameter set by its ID. -/
def StreamParams.set (p : StreamParams) (id v : Nat) : StreamParams :=
  match id with
  | 0x01 => { p with width := v } | 0x02 => { p with height := v } | 0x03 => { p with bitDepth := v }
  | 0x04 => { p with sampling := v } | 0x05 => { p with tileSize := v } | 0x06 => { p with refreshN := v }
  | 0x07 => { p with interval := v } | 0x08 => { p with maxInput := v } | 0x09 => { p with maxOutput := v }
  | 0x0A => { p with sampleRate := v } | 0x0B => { p with channels := v } | 0x0C => { p with azimuth := v }
  | 0x0D => { p with beams := v } | 0x0E => { p with returnPlane := v } | 0x0F => { p with rangeE := v }
  | 0x10 => { p with imode := v } | 0x11 => { p with ei := v } | 0x12 => { p with resDepth := v }
  | 0x20 => { p with shareCap := v } | 0x21 => { p with adapt := v } | 0x22 => { p with refSearch := v }
  | 0x23 => { p with ltAuto := v } | 0x24 => { p with emitIncomplete := v } | 0x25 => { p with source := v }
  | 0x26 => { p with reconDigest := v } | 0x27 => { p with digestReport := v } | 0x28 => { p with digestCheck := v }
  | 0x29 => { p with archive := v } | 0x2A => { p with heads := v } | 0x2B => { p with ingestFormat := v }
  | 0x2C => { p with reorder := v } | 0x2D => { p with network := v }
  | _ => p

/-- Entries applied in order. -/
def StreamParams.apply (p : StreamParams) (es : List Entry) : StreamParams :=
  es.foldl (fun q e => q.set e.id (beNat e.value)) p

/-- Whether entries name an ID. -/
def named (es : List Entry) (id : Nat) : Bool := es.any (·.id == id)

/-- The default tile size: 512, or the smallest that the profile offers (10 R222). -/
def Geometry.defaultTile (g : Geometry) : Nat :=
  if g.hasTile 512 then 512
  else (((List.range 15).map fun i => 256 + 128 * i).find? g.hasTile).getD 0

/-- Defaults of what open did not give (10 R222; 11 R248, R252). -/
def StreamParams.fill (p : StreamParams) (k : Kind) (es : List Entry) : StreamParams :=
  let p1 := { p with
    tileSize := if named es 5 then p.tileSize else k.geo.defaultTile
    refreshN := if named es 6 then p.refreshN else match k.media with | 0 => 64 | 1 => 50 | _ => 16
    interval := if k.media = 1 then 20000000 else p.interval }
  { p1 with
    maxInput := if named es 8 then p.maxInput else p1.rawSize k.media
    maxOutput := if named es 9 then p.maxOutput else p1.rawSize k.media }

/-- What a class-0 stream, and an encoding audio or range stream, must name: the geometry has no default (10 R222; 11 R248,
R252), class 0 declares its rate, and an encoding or LATENT stream its largest output. -/
def Kind.missing (k : Kind) (es : List Entry) : Bool :=
  let geo := match k.media with
    | 0 => [1, 2, 3, 4]
    | 1 => [0x0A, 0x0B, 3]
    | _ => [0x0C, 0x0D]
  let must := (if k.cls = 0 || (k.media != 0 && k.dir == 0) then geo else []) ++
    (if k.cls = 0 then (if k.media = 1 then [] else [7]) ++ (if k.dir = 0 || k.latent then [9] else []) else [])
  must.any fun i => !named es i

/-- Whether parameters disagree among themselves: odd luma sizes at 4:2:0, an input larger than a raw picture. -/
def Kind.disagrees (k : Kind) (p : StreamParams) : Bool :=
  (k.media == 0 && p.sampling == 0 && (p.width % 2 != 0 || p.height % 2 != 0)) ||
    (k.cls == 0 && p.rawSize k.media < p.maxInput)

/-- Lists of a network that name a buffer identifier. -/
def Network.names (n : Network) (buffer : Nat) : Bool := n.lists.any fun t => t.relocs.any fun r => r.2 == buffer

/-- NET numbers a HEADS mask names, ascending. -/
def headNets (mask : Nat) : List Nat := (List.range 256).filter (bit mask)

/-- Whether a LATENT open must be refused (11 R260). -/
def latentRefused (img : List Byte) (mask : Nat) : Bool :=
  let nets := imageNetworks img
  let heads := headNets mask
  heads == [] || 16 < heads.length ||
    heads.any (fun h => match nets.find? (·.net == h) with
      | some n => n.role != 6 || n.names 3
      | none => true) ||
    nets.any fun n => n.role != 4 && n.role != 6 && n.names 3

/-! ### What an open asks for (13 R301; 09 R205) -/

/-- The checked parameters of STREAM_OPEN or ADMIT. -/
structure Ask where
  kind : Kind
  slot : Nat
  digest : List Byte
  ticket : Nat
  params : StreamParams
  /-- the entries' bytes as given -/
  entries : List Byte
  list : List Entry
  deriving DecidableEq, Repr

/-- Whether a SOURCE, an ARCHIVE value and HEADS may stand (10 R244; 01 R31; 14 R334; 11 R260). -/
def State.asksWell (s : State) (k : Kind) (p : StreamParams) (es : List Entry) (img : List Byte) : Option Nat :=
  let at_ := fun id => match es.find? (·.id == id) with
    | some e => e.off + 4
    | none => 0xFFFFFFFF
  let sourceBad := named es 0x25 && p.source != 0 && match s.stream p.source with
    | some x => x.dir != .ingest || x.state == .stopped
    | none => true
  let archiveBad := p.archive != 0 && (k.cls != 2 || !s.twin.on || s.streams.any fun x => x.params.archive == p.archive)
  if sourceBad then some (at_ 0x25)
  else if archiveBad then some (at_ 0x29)
  else if k.latent && latentRefused img p.heads then some (at_ 0x2A)
  else if k.missing es || k.disagrees p then some 0xFFFFFFFF
  else none

/-- STREAM_OPEN's parameters at an offset, checked: a status and FIELD where they fail. -/
def State.readAsk (s : State) (ps : List Byte) (o : Nat) : Except (Status × Nat) Ask :=
  let at_ := fun i k => beAt ps (o + i) k
  let bad := fun (f : Nat) => (Except.error (.badParam, f) : Except (Status × Nat) Ask)
  if ps.length < o + 40 then bad 0xFFFFFFFF
  else if 2 < at_ 0 1 then bad o
  else if 2 < at_ 1 1 || (at_ 1 1 == 2 && at_ 0 1 != 0) then bad (o + 1)
  else if 3 < at_ 2 1 then bad (o + 2)
  else if 1 < at_ 3 1 || (at_ 3 1 == 1 && at_ 1 1 != 1) then bad (o + 3)
  else if at_ 36 4 ≠ 0 && at_ 2 1 != 0 then bad (o + 36)
  else
    match s.slotOf (slice ps (o + 4) 32) with
    | none => .error (.profileMissing, o + 4)
    | some slot =>
      let img := ((s.profiles.getD slot none).map Profile.image).getD []
      let k : Kind := { media := at_ 0 1, dir := at_ 1 1, cls := at_ 2 1, latent := at_ 3 1 == 1, geo := imageGeometry img }
      if k.geo.media ≠ k.media then bad o
      else
        match parseEntries ps (o + 40) with
        | .error f => bad f
        | .ok es =>
          match k.entriesFault none [] es with
          | some f => bad f
          | none =>
            let p := (({} : StreamParams).apply es).fill k es
            match s.asksWell k p es img with
            | some f => bad f
            | none => .ok {
                kind := k, slot := slot, digest := slice ps (o + 4) 32, ticket := at_ 36 4, params := p
                entries := ps.drop (o + 40), list := es }

/-! ### Admission (10 R238, R239, R246; 11 R263; 06 R140, R142) -/

/-- Motion-engine cycles of a picture: 553 for each 16 × 16 block and reference searched (10 R229). -/
def Ask.motionCycles (a : Ask) : Nat :=
  if a.kind.media = 0 ∧ a.kind.dir = 0 then
    a.params.extW 0 16 / 16 * (a.params.extH 0 16 / 16) * 553 * ((List.range 8).filter (bit a.params.refSearch)).length
  else 0

/-- Match-engine cycles of a scan (11 R263). -/
def Ask.matchCycles (a : Ask) : Nat := if a.kind.media = 2 then a.params.residualMost * ceilDiv a.params.resDepth 8 else 0

/-- What admission counts of a set of regions: units, lanes and regions in service (10 R239; 18 R408). -/
structure Capacity where
  units : Nat
  lanes : Nat
  regions : Nat

/-- The capacity of `g` regions, of which these are free: a number marked LOST, or down, does not count (18 R404, R408). -/
def State.capacity (s : State) (g : Nat) (l : List (Nat × Nat)) : Capacity := {
  units := max 1 ((l.map fun r => ((List.range 32).filter fun u => s.unitUp r.1 (r.2 * 32 + u)).length).sum + 32 * (g - l.length))
  lanes := max 1 ((l.map fun r =>
    ((List.range 4).filter fun k => ((s.die r.1).ent.getD (r.2 * 5 + k) {}).up).length).sum + 4 * (g - l.length))
  regions := max 1 g }

/-- Latent positions of a tile (08 R181; 10 R222; 11 R250, R254). -/
def Ask.grid (a : Ask) (k : Nat) : Nat :=
  let st := max 1 a.kind.geo.stride
  let (_, _, w, h) := a.params.tileBox a.kind.media st k
  ceilDiv w st * (if a.kind.media = 1 then 1 else ceilDiv h st)

/-- The lists a stream runs. -/
def Ask.lists (a : Ask) (img : List Byte) : List (Nat × Nat × Template) :=
  runningLists img a.kind.dir a.kind.latent (if a.kind.latent then a.params.heads else 0)

/-- Cycles by which a picture that carries deltas lengthens every chain (09 R214; 10 R239): the multiply-accumulates of every adaptable
layer at its highest rank, charged as INT8 array work (DESIGN CHOICE, log 24), over `u` units. -/
def Ask.mergeCycles (a : Ask) (img : List Byte) (u : Nat) : Nat :=
  if a.params.adapt = 1 then
    ceilDiv (ceilDiv (5 * ((imageAdapt img).map fun e => match imageWeight img e.1 with
      | some w => e.2 * (w.cout * w.k)
      | none => 0).sum) (4 * 512)) (max 1 u)
  else 0

/-- References that MSEARCH searches. -/
def Ask.references (a : Ask) : Nat := ((List.range 8).filter (bit a.params.refSearch)).length

/-- C_max: the largest chain among a picture's tiles (08 R189; 10 R239). -/
def Ask.tileChain (a : Ask) (img : List Byte) (units : Nat) : Nat :=
  let lists := a.lists img
  let b := templateGrid img lists
  (dedup ((List.range (a.params.tiles a.kind.media a.kind.geo.stride)).map a.grid)).foldl
    (fun m g => max m ((lists.map (listChain img g b a.references)).sum)) 0 + a.mergeCycles img units

/-- Λ: the lane cycles of a picture (10 R239). -/
def Ask.laneCycles (a : Ask) (img : List Byte) : Nat :=
  let lists := a.lists img
  let b := templateGrid img lists
  ((List.range (a.params.tiles a.kind.media a.kind.geo.stride)).map fun k => (lists.map (listLane img (a.grid k) b)).sum).sum

/-- The image of an ask's profile. -/
def State.askImage (s : State) (a : Ask) : List Byte := (s.slotImage a.slot).getD []

/-- lanes × regions × W, W the tile work in cycles (10 R239; 11 R263). -/
def Ask.work (a : Ask) (img : List Byte) (c : Capacity) : Nat :=
  let nt := a.params.tiles a.kind.media a.kind.geo.stride
  max (max (ceilDiv nt c.units * a.tileChain img c.units * c.lanes * c.regions)
      (a.laneCycles img * c.regions))
    (max (a.motionCycles * c.lanes) (a.matchCycles * c.lanes))

/-- Luma samples whose ingest time the bound adds (10 R246). -/
def Ask.ingest (a : Ask) : Nat := if a.kind.dir = 2 ∨ a.params.source ≠ 0 then a.params.width * a.params.height else 0

/-- Denominator of the bound in µs, and its numerator without the 250 µs. -/
def Ask.boundDen (c : Capacity) : Nat := 1200 * c.lanes * c.regions * 1061683200
def Ask.boundNum (a : Ask) (img : List Byte) (c : Capacity) : Nat :=
  a.work img c * 1061683200 + a.ingest * 10 ^ 6 * (1200 * c.lanes * c.regions)

/-- A PACER's period in µs, added to the bound it admits: a picture may wait that long for its tick (20 R457); 0 without one. -/
def State.pacerUs (s : State) : Nat := if s.hulT7.toNat % 4 = 2 then s.hulT7.toNat / 256 else 0

/-- The bound in µs, rounded up. -/
def Ask.boundUs (a : Ask) (img : List Byte) (c : Capacity) : Nat := ceilDiv (a.boundNum img c) (Ask.boundDen c) + 250

/-- Free regions, by die and then region: in service and reserved by no class-0 stream. -/
def State.freeRegions (s : State) : List (Nat × Nat) :=
  (List.range s.dieCount).flatMap fun d => (s.die d).regions.zipIdx.filterMap fun (r : Region × Nat) =>
    if r.1.owner = 0xFFFFFFFF ∧ r.1.hul = 0 ∧ r.1.quiesced = false then some (d, r.2) else none

/-- Regions class 0 holds. -/
def State.class0Regions (s : State) : Nat :=
  ((s.dies.take s.dieCount).map fun d => (d.regions.filter fun (r : Region) => r.owner != 0xFFFFFFFF).length).sum

/-- The stages of a stream with their granules: its working buffers lie in deep SRAM (06 R140; DESIGN CHOICE, log 24). -/
def Ask.stages (a : Ask) (img : List Byte) : List (Nat × Nat) :=
  (stageBuffers img ((a.lists img).map (·.2.2))).map fun b => (b.1, granules b.2)

/-- Bytes of a picture's planes as a reference keeps them: INT8 at depth 8, FP16 above, FP32 for audio and range (10 R223, R226). -/
def Ask.pictureBytes (a : Ask) : Nat :=
  let p := a.params
  let n := p.extW a.kind.media a.kind.geo.stride * p.extH a.kind.media a.kind.geo.stride
  match a.kind.media with
  | 0 => (n + (if p.sampling = 2 then 0 else if p.sampling = 0 then n / 2 else 2 * n)) * (if p.bitDepth = 8 then 1 else 2)
  | 1 => 4 * n * p.channels
  | _ => 4 * n * (2 + p.returnPlane)

/-- Bytes of a picture's reference features: the outputs of the MOTION networks over its tiles (10 R226). -/
def Ask.featureBytes (a : Ask) (img : List Byte) : Nat :=
  a.params.tiles a.kind.media a.kind.geo.stride *
    (((imageNetworks img).filter fun n => n.role == 5).map fun n => match n.output img with
      | some e => e.2.2.extent
      | none => 0).sum

/-- Granules of two copies of every adaptable layer of a placement (09 R215). -/
def Ask.copyGranules (a : Ask) (img : List Byte) (placement : Nat) : Nat :=
  if a.params.adapt = 1 then
    ((imageAdapt img).map fun e => match imageWeight img e.1 with
      | some w => if w.placement = placement then 2 * granules (codeBytes w.fmt (w.cout * w.k)) else 0
      | none => 0).sum
  else 0

/-- Granules of a stream in a pool of each of its dies (06 R140): its stages and adaptable copies; in LPDDR5X the reference store, with the
picture being coded, and an ingest stream's decoded pictures (10 R226, R245; log 24). -/
def Ask.granules (a : Ask) (img : List Byte) (ds : Bool) : Nat :=
  if a.kind.dir = 2 then (if ds then 0 else Config.ingestGranules a.params.ingestFormat a.params.width a.params.height)
  else if ds then ((a.stages img).map (·.2)).sum + a.copyGranules img 0
  else 9 * ceilDiv (a.pictureBytes + a.featureBytes img) 65536 + a.copyGranules img 1

/-- Whether the pools of dies have room (06 R142). -/
def State.poolsHave (s : State) (dies : List Nat) (lp ds : Nat) : Bool :=
  dies.all fun d => (s.die d).poolLp.covers false lp 0 && (s.die d).poolDs.covers true ds 0

/-- Granules reserved on dies. -/
def State.reservePools (s : State) (dies : List Nat) (owner lp ds : Nat) : State :=
  { s with dies := s.dies.zipIdx.map fun (p : Die × Nat) =>
      if dies.contains p.2 then { p.1 with
        poolLp := { p.1.poolLp with reserved := p.1.poolLp.reserved ++ [(owner, lp)] }
        poolDs := { p.1.poolDs with reserved := p.1.poolDs.reserved ++ [(owner, ds)] } }
      else p.1 }

/-- The largest tile's output. -/
def Ask.tileOutput (a : Ask) : Nat :=
  if a.kind.dir = 0 ∨ a.kind.latent then Config.tileOutput a.digest a.entries else a.params.tileRaw a.kind.media

/-- The reason admission refuses, in the order of the list of 10 R239; none where it admits. -/
def State.refusal (s : State) (a : Ask) (g : Nat) : Option Nat :=
  let regions := (s.freeRegions).take g
  let ports := (s.portsUp a.params.network).take 2
  let c := s.capacity g regions
  let img := s.askImage a
  if 10 ^ 6 * Ask.boundDen c < a.boundNum img c + (250 + s.pacerUs) * Ask.boundDen c then some 1
  else if a.params.interval * 12 * (c.lanes * c.regions) < a.work img c * 10 then some 2
  else if regions.length < g then some 3
  else if 4 * s.dieCount < s.class0Regions + g then some 4
  else if 1875000 < a.tileOutput then some 5
  else if ports.any fun p => 50000000000 < s.portRate p + a.params.outputRate then some 6
  else if !s.poolsHave (dedup (regions.map (·.1))) (a.granules img false) (a.granules img true) then some 7
  else none

/-- A transcode of class 0 that declares reordering (10 R246). -/
def State.reordered (s : State) (a : Ask) : Bool :=
  a.params.reorder == 1 || match s.stream a.params.source with
    | some x => x.params.reorder == 1
    | none => false

/-- Regions taken by an owner number. -/
def State.takeRegions (s : State) (owner : Nat) (l : List (Nat × Nat)) : State :=
  { s with dies := s.dies.zipIdx.map fun (p : Die × Nat) => { p.1 with
      regions := p.1.regions.zipIdx.map fun (r : Region × Nat) =>
        if l.contains (p.2, r.2) then { r.1 with owner := BitVec.ofNat 32 owner } else r.1 } }

/-- ADMIT's parameters as the STREAM_OPEN that uses the ticket must repeat them: without TICKET. -/
def openForm (ps : List Byte) (o : Nat) : List Byte := slice ps o 36 ++ ps.drop (o + 40)

/-- ADMIT (10 R239; 13 R301). -/
def State.admission (s : State) (d : Datagram) (x : Session) : State × Answer :=
  let g := beAt d.params 0 1
  if d.params.length < 44 then (s, .fail .badParam)
  else if g = 0 then (s, .fail .badParam 0)
  else if beAt d.params 1 3 ≠ 0 then (s, .fail .badParam 1)
  else if beAt d.params 6 1 ≠ 0 then (s, .fail .badParam 6)
  else if beAt d.params 40 4 ≠ 0 then (s, .fail .badParam 40)
  else
    match s.readAsk d.params 4 with
    | .error (st, f) => (s, .fail st f)
    | .ok a =>
      if s.reordered a then (s, .fail .admissionRefused)
      else
        match s.refusal a g with
        | some r => (s, .fail .admissionRefused 0xFFFFFFFF r)
        | none =>
          let regions := s.freeRegions.take g
          let img := s.askImage a
          let bound := a.boundUs img (s.capacity g regions) + s.pacerUs
          let (n, s1) := s.newNumber
          let (qpn, s2) := s1.newQp true n 0 a.params.network
          let s3 := (s2.takeRegions n regions).reservePools (dedup (regions.map (·.1))) n (a.granules img false) (a.granules img true)
          let t : Ticket := {
            number := n, owner := x.hostKey, openParams := openForm d.params 4, regions := regions, boundUs := bound
            createdAt := s.gts, resLp := a.granules img false, resDs := a.granules img true, params := a.params, qpn := qpn }
          ({ s3 with tickets := s3.tickets ++ [t] },
            .good (beBytes 4 n ++ beBytes 4 bound ++ [byte regions.length, 0, 0, 0] ++
              regions.flatMap fun r => [byte r.1, byte r.2]))

/-- ADMIT. -/
def execAdmitReq (d : Datagram) (s : State) : Host.Outcome State Fault Refusal :=
  .next (s.serve d 0x0020 false none none fun x t => t.admission d x)

/-- A ticket released with its regions, reservations and queue pair (13 R304). -/
def State.dropTicket (s : State) (t : Ticket) : State :=
  (((({ s with tickets := s.tickets.filter (·.number != t.number) } : State).releasePools t.number).releaseRegions t.number).closeQp
    t.qpn)

/-- TICKET_EXPIRY: 10 s without a STREAM_OPEN (13 R304). -/
def execTicketExpiry (ticket : Nat) (s : State) : Host.Outcome State Fault Refusal :=
  match s.tickets.find? (·.number == ticket) with
  | some t => .next (if s.firmwareRuns ∧ t.createdAt + 10 * 10 ^ 9 ≤ s.gts then s.dropTicket t else s)
  | none => .next s

/-! ### Opening (13 R301; 14 R316, R317, R334) -/

/-- The BULK descriptor of a queue pair (14 R317). -/
def State.bulk (s : State) (qpn : Nat) : List Byte :=
  match s.qp qpn with
  | some q =>
    beBytes 3 q.qpn ++ [0, byte q.port, byte (q.alt.getD 0xFF), byte q.network, 0] ++ beBytes 16 (s.gidOf q.port) ++
      beBytes 16 (match q.alt with | some a => s.gidOf a | none => 0) ++ beBytes 8 (Config.serviceId q.qpn).toNat ++
      beBytes 4 16777216 ++ beBytes 2 64 ++ zeros 10
  | none => zeros 64

/-- DIRECTION of 13 R301. -/
def dirOf (n : Nat) : Dir := if n = 0 then .encode else if n = 1 then .decode else .ingest

/-- A twin message on both links (14 R332). -/
def State.sendTwin (s : State) (kind : Nat) (data : List Byte) : State := (s.sendMsg 0 kind data).sendMsg 1 kind data

/-- The digest CONFIG carries: profile digest, then the open entries sorted by ID (14 R334). -/
def configDigest (digest : List Byte) (es : List Entry) : List Byte :=
  let sorted := sortBy (fun (a b : Entry) => decide (a.id ≤ b.id)) es
  shake256 (digest ++ sorted.flatMap fun e =>
    beBytes 2 e.id ++ beBytes 2 e.value.length ++ e.value ++ zeros (roundUp e.value.length 4 - e.value.length)) 32

/-- A stream of an ask, with its number, queue pair, regions and bound. -/
def Ask.stream (a : Ask) (img : List Byte) (owner : List Byte) (n qpn : Nat) (regions : List (Nat × Nat)) (bound : Nat) : Stream :=
  { number := n, owner := owner, slot := a.slot, digest := a.digest, cls := a.kind.cls, dir := dirOf a.kind.dir
    latent := a.kind.latent, media := a.kind.media, params := a.params, entries := a.entries, regions := regions
    boundUs := bound, resLp := a.granules img false, resDs := a.granules img true, qpn := qpn }

/-- A stream opened: an archive stream tells its twin its CONFIG and takes what the twin has already told. -/
def State.addStream (s : State) (a : Ask) (x : Stream) : State :=
  if x.params.archive = 0 then { s with streams := s.streams ++ [x] }
  else
    let own := configDigest a.digest a.list
    let mine := s.twin.early.filter (·.1 == x.params.archive)
    let arch : TwinArchive := {
      ownConfig := some own
      peerConfig := (mine.find? (·.2.1.isNone)).map (·.2.2)
      peer := mine.filterMap fun m => m.2.1.map fun p => (p, m.2.2) }
    let s1 : State := { s with
      streams := s.streams ++ [{ x with twin := arch }]
      twin := { s.twin with early := s.twin.early.filter (·.1 != x.params.archive) } }
    s1.sendTwin 5 ([byte x.params.archive, 0, 0, 0] ++ own)

/-- Ingest streams whose queue pair is bound to a die's port (10 R244; log 25). -/
def State.ingestOn (s : State) (die : Nat) : Nat :=
  (s.streams.filter fun (x : Stream) => x.dir == .ingest && (match s.qp x.qpn with
    | some q => q.port == die
    | none => false)).length

/-- STREAM_OPEN's reply parameters. -/
def State.opened (s : State) (n qpn : Nat) : Answer := .good (beBytes 4 n ++ zeros 4 ++ s.bulk qpn)

/-- A stream of class 0 opened with its ticket. -/
def State.openTicket (s : State) (d : Datagram) (x : Session) (a : Ask) : State × Answer :=
  match s.tickets.find? (·.number == a.ticket) with
  | none => (s, .fail .badParam 36)
  | some t =>
    let die := (match s.qp t.qpn with | some q => q.port | none => 0)
    if t.owner ≠ x.hostKey ∧ x.privileged = false then (s, .fail .notPrivileged)
    else if t.openParams ≠ openForm d.params 0 then (s, .fail .badParam)
    else if a.kind.dir = 2 ∧ 2 ≤ s.ingestOn die then (s, .fail .noResource)
    else
      let s1 : State := { s with tickets := s.tickets.filter (·.number != t.number) }
      let s2 := s1.addStream a (a.stream (s.askImage a) t.owner t.number t.qpn t.regions t.boundUs)
      (s2, s2.opened t.number t.qpn)

/-- A stream of class 1 to 3 opened: its reservation is held on every die (06 R140, R142; log 24). -/
def State.openFree (s : State) (x : Session) (a : Ask) : State × Answer :=
  let dies := List.range s.dieCount
  let img := s.askImage a
  if !s.poolsHave dies (a.granules img false) (a.granules img true) then (s, .fail .admissionRefused)
  else if a.kind.dir = 2 ∧ 2 ≤ s.ingestOn ((s.portsUp a.params.network).headD a.params.network) then (s, .fail .noResource)
  else
    let (n, s1) := s.newNumber
    let (qpn, s2) := s1.newQp true n a.kind.cls a.params.network
    let s3 := (s2.reservePools dies n (a.granules img false) (a.granules img true)).addStream a (a.stream img x.hostKey n qpn [] 0)
    (s3, s3.opened n qpn)

/-- STREAM_OPEN (09 R205; 13 R301). -/
def execStreamOpen (d : Datagram) (s : State) : Host.Outcome State Fault Refusal :=
  .next (s.serve d 0x0021 false none none fun x t =>
    match t.readAsk d.params 0 with
    | .error (st, f) => (t, .fail st f)
    | .ok a => if a.kind.cls = 0 then t.openTicket d x a else t.openFree x a)

/-! ### Commands on a stream -/

/-- The host key that owns the stream a request names (13 R294). -/
def State.streamOwner (s : State) (d : Datagram) : Option (List Byte) := (s.stream (beAt d.params 0 4)).map (·.owner)

/-- A command on a stream of at least `len` bytes: unknown streams are BAD_PARAM, damaged ones STREAM_DAMAGED (10 R243). -/
def State.onStream (s : State) (d : Datagram) (op len : Nat) (k : Stream → State → State × Answer) :
    Host.Outcome State Fault Refusal :=
  .next (s.serve d op false (s.streamOwner d) none fun _ t =>
    if d.params.length < len then (t, .fail .badParam)
    else
      match t.stream (beAt d.params 0 4) with
      | none => (t, .fail .badParam 0)
      | some x => if x.state = .stopped ∧ x.status = .streamDamaged then (t, .fail .streamDamaged) else k x t)

/-- The counter of the next picture to start. -/
def Stream.next (x : Stream) : Nat :=
  match x.lastStarted with
  | some t => t + 1
  | none => x.firstPicture.getD 0

/-- Whether an APPLY_AT names a picture that has started (10 R235). -/
def Stream.past (x : Stream) (at_ : Nat) : Bool :=
  at_ != 0 && match x.lastStarted with
    | some t => at_ ≤ t
    | none => false

/-- The kind of an open stream. -/
def State.kindOf (s : State) (x : Stream) : Kind :=
  { media := x.media, dir := match x.dir with | .encode => 0 | .decode => 1 | .ingest => 2
    cls := x.cls, latent := x.latent, geo := imageGeometry (((s.profiles.getD x.slot none).map Profile.image).getD []) }

/-- STREAM_CONFIG (13 R303, R304). -/
def State.configure (s : State) (ps : List Byte) (x : Stream) : State × Answer :=
  match parseEntries ps 4 with
  | .error f => (s, .fail .badParam f)
  | .ok es =>
    let k := s.kindOf x
    let at_ := match es.find? (·.id == 0x2E) with
      | some e => beNat e.value
      | none => 0
    match k.entriesFault (some (x.lastStarted.isSome, at_)) [] es with
    | some f => (s, .fail .badParam f)
    | none =>
      if x.past at_ then (s, .fail .badParam (match es.find? (·.id == 0x2E) with | some e => e.off + 4 | none => 0))
      else if k.disagrees (x.params.apply es) then (s, .fail .badParam)
      else if at_ = 0 then (s.setStream { x with params := x.params.apply es }, .good [])
      else if 16 ≤ x.pendingCfg.length then (s, .fail .noResource)
      else (s.setStream { x with pendingCfg := x.pendingCfg ++ [(at_, ps.drop 4)] }, .good [])

/-- STREAM_CONFIG. -/
def execStreamConfig (d : Datagram) (s : State) : Host.Outcome State Fault Refusal :=
  s.onStream d 0x0022 4 fun x t => t.configure d.params x

/-- The fields of RATE_SET. -/
def rateOf (ps : List Byte) : RateCfg :=
  { mode := beAt ps 8 1, qiFixed := beAt ps 9 1, qiInit := beAt ps 10 1, qiMin := beAt ps 11 1, qiMax := beAt ps 12 1
    bitrate := beAt ps 16 8, buf := beAt ps 24 8, lmv0 := beAt ps 32 2 }

/-- The first field of RATE_SET out of range (10 R236); BITRATE may be 0 while MODE is FIXED. -/
def rateFault (ps : List Byte) : Option Nat :=
  let r := rateOf ps
  let rate := 10 ^ 5 ≤ r.bitrate && r.bitrate ≤ 10 ^ 11
  (([(8, r.mode ≤ 1), (9, r.qiFixed ≤ 63), (10, r.qiMin ≤ r.qiInit && r.qiInit ≤ r.qiMax), (11, r.qiMin ≤ r.qiMax),
     (12, r.qiMax ≤ 63), (13, beAt ps 13 3 == 0), (16, rate || (r.mode == 0 && r.bitrate == 0)),
     (24, r.bitrate ≤ 100 * r.buf && r.buf ≤ 10 * r.bitrate), (32, r.lmv0 != 0), (34, beAt ps 34 6 == 0)] : List (Nat × Bool)).find?
    (! ·.2)).map (·.1)

/-- RATE_SET (10 R236). -/
def execRateSet (d : Datagram) (s : State) : Host.Outcome State Fault Refusal :=
  s.onStream d 0x0025 40 fun x t =>
    let at_ := beAt d.params 4 4
    if d.params.length ≠ 40 then (t, .fail .badParam)
    else if 2 ^ 24 ≤ at_ || x.past at_ then (t, .fail .badParam 4)
    else
      match rateFault d.params with
      | some f => (t, .fail .badParam f)
      | none =>
        let from_ := if at_ = 0 then x.next else at_
        (t.setStream { x with pendingRate := x.pendingRate ++ [(from_, rateOf d.params)] }, .good [])

/-- The rectangles of ROI_SET. -/
def roiOf (ps : List Byte) (o n : Nat) : List RoiRect :=
  (List.range n).map fun i =>
    let p := o + 10 * i
    ⟨beAt ps p 2, beAt ps (p + 2) 2, beAt ps (p + 4) 2, beAt ps (p + 6) 2, signed 8 (beAt ps (p + 8) 1)⟩

/-- ROI_SET (10 R235; 11 R247). -/
def execRoiSet (d : Datagram) (s : State) : Host.Outcome State Fault Refusal :=
  s.onStream d 0x0026 12 fun x t =>
    let ps := d.params
    let at_ := beAt ps 4 4
    let n := beAt ps 8 1
    let rects := roiOf ps 12 n
    if x.media ≠ 0 then (t, .fail .badParam 0)
    else if 2 ^ 24 ≤ at_ || x.past at_ then (t, .fail .badParam 4)
    else if 16 < n then (t, .fail .badParam 8)
    else if beAt ps 9 3 ≠ 0 then (t, .fail .badParam 9)
    else if ps.length ≠ 12 + 10 * n then (t, .fail .badParam)
    else
      match (List.range n).find? fun i => (rects.getD i ⟨0, 0, 0, 0, 0⟩).dq < -64 || 63 < (rects.getD i ⟨0, 0, 0, 0, 0⟩).dq with
      | some i => (t, .fail .badParam (20 + 10 * i))
      | none =>
        match (List.range n).find? fun i => beAt ps (21 + 10 * i) 1 != 0 with
        | some i => (t, .fail .badParam (21 + 10 * i))
        | none =>
          let from_ := if at_ = 0 then x.next else at_
          (t.setStream { x with pendingRoi := x.pendingRoi ++ [(from_, rects)] }, .good [])

/-- REF_MARK (10 R227; 11 R247). -/
def execRefMark (d : Datagram) (s : State) : Host.Outcome State Fault Refusal :=
  s.onStream d 0x0027 12 fun x t =>
    let p := beAt d.params 4 4
    let slot := beAt d.params 8 1
    let started := match x.lastStarted with
      | some l => p ≤ l
      | none => false
    if d.params.length ≠ 12 then (t, .fail .badParam)
    else if x.media ≠ 0 then (t, .fail .badParam 0)
    else if started || 2 ^ 24 ≤ p then (t, .fail .badParam 4)
    else if slot < 4 || 7 < slot then (t, .fail .badParam 8)
    else if beAt d.params 9 3 ≠ 0 then (t, .fail .badParam 9)
    else if x.marks.contains (p, slot) then (t, .good [])
    else if 64 ≤ x.marks.length then (t, .fail .noResource)
    else (t.setStream { x with marks := x.marks ++ [(p, slot)] }, .good [])

/-! ### Status (13 R306) -/

/-- STATE of a stream. -/
def streamStateCode : StreamState → Nat
  | .open_ => 0 | .ended => 1 | .stopped => 2 | .closing => 3

/-- The fields of STREAM_STATUS. -/
def Stream.report (x : Stream) : List Byte :=
  let none32 := 0xFFFFFFFF
  let (dp, dt, dc, dd) := match x.damage with
    | some g => (g.picture, g.tile.getD none32, g.cause, g.detail)
    | none => (none32, none32, 0, 0)
  let (gp, gi, gd) := match x.digestRep with
    | some (p, i, b) => (p, b01 i, b)
    | none => (none32, 0, zeros 16)
  [byte (streamStateCode x.state), byte x.cls] ++ beBytes 2 (statusCode x.status) ++ beBytes 4 (x.lastPicture.getD none32) ++
    beBytes 4 dp ++ beBytes 4 dt ++ [byte dc, byte dd, byte x.lastQi, 0] ++ beBytes 8 (unsigned 64 x.rateF) ++ beBytes 4 gp ++
    beBytes 4 gi ++ gd ++ beBytes 4 (sat32 x.highBits) ++ beBytes 4 (sat32 x.discarded) ++ beBytes 4 (sat32 x.adaptSat) ++
    beBytes 4 (sat32 x.late)

/-- STREAM_STATUS. -/
def execStreamStatus (d : Datagram) (s : State) : Host.Outcome State Fault Refusal :=
  .next (s.serve d 0x0024 false none none fun _ t =>
    if d.params.length ≠ 4 then (t, .fail .badParam)
    else
      match t.stream (beAt d.params 0 4) with
      | some x => (t, .good x.report)
      | none => (t, .fail .badParam 0))

end Sys2Proof.Machine
end

