-- ==== Sys2Proof/Machine/Media.lean ====
section
/-! DEFINITION. Pictures as numbers and bytes: the refresh schedule, raw samples, residuals, units, records and rate control (10 R223,
R224, R232 to R237; 11 R249 to R258, R262; 12 R264 to R283; 14 R320). -/

namespace Sys2Proof.Machine

/-! ### The refresh schedule (10 R232, R233) -/

/-- REFRESH_POS of a picture. -/
def refreshPos (t n : Nat) : Nat := if t = 0 then 0 else (t - 1) % max 1 n

/-- Whether a picture begins a refresh period, or is picture 0: a stream header stands before it. -/
def headerBefore (t n : Nat) : Bool := t == 0 || refreshPos t n == 0

/-- Whether a picture is refresh-complete. -/
def refreshComplete (t n : Nat) : Bool := t == 0 || refreshPos t n + 1 == max 1 n

/-- Columns refreshed up to and with a picture: end(t). -/
def endColumn (t n nc : Nat) : Nat := if t = 0 then nc else (refreshPos t n + 1) * nc / max 1 n

/-- The first intra column of a picture. -/
def intraFrom (t n nc : Nat) : Nat := if t = 0 then 0 else refreshPos t n * nc / max 1 n

/-- Whether a tile column is intra in a picture. -/
def intraColumn (t n nc col : Nat) : Bool := intraFrom t n nc ≤ col && col < endColumn t n nc

/-- Whether a whole picture is intra: every column is (10 R232; 11 R247). -/
def whollyIntra (t n nc : Nat) : Bool := t == 0 || (intraFrom t n nc == 0 && endColumn t n nc == nc)

/-- P of the period of a picture, and of the period before it; 0 before the first. -/
def periodStart (t n : Nat) : Nat := if t = 0 then 0 else t - refreshPos t n
def periodBefore (t n : Nat) : Nat := if periodStart t n ≤ n then 0 else periodStart t n - n

/-- Whether a decoder that began at a picture has not yet reached the refresh-complete one (10 R234). -/
def incompleteFor (first : Option Nat) (t n : Nat) : Bool :=
  match first with
  | some f => f != 0 && t + 1 < f + max 1 n
  | none => false

/-- Whether a block of a picture, refreshed by it or not, may name a reference (10 R233). A grey slot of a decoder that began
later stands for an earlier picture, which only an unrefreshed block may name. -/
def refAllowed (t n : Nat) (refreshed late : Bool) (ref : Option Nat) : Bool :=
  match ref with
  | some r => (if refreshed then periodStart t n else periodBefore t n) ≤ r && r < t
  | none => !refreshed && late

/-! ### Raw samples -/

/-- Planes of a picture. -/
def StreamParams.planes (p : StreamParams) (media : Nat) : Nat :=
  match media with
  | 0 => if p.sampling = 2 then 1 else 3
  | 1 => p.channels
  | _ => 2 + p.returnPlane

/-- Height and width of plane `i` where the luma plane is `h` by `w`. -/
def StreamParams.planeDims (p : StreamParams) (media i h w : Nat) : Nat × Nat :=
  if media = 0 ∧ i ≠ 0 then (p.chroma h, p.chroma w) else (h, w)

/-- Original height and width. -/
def StreamParams.size (p : StreamParams) (media : Nat) : Nat × Nat :=
  match media with
  | 0 => (p.height, p.width)
  | 1 => (1, p.frame)
  | _ => (p.beams, p.azimuth)

/-- Where a raw sample lies, and its bytes. -/
def StreamParams.rawAt (p : StreamParams) (media i y x : Nat) : Nat × Nat :=
  let b := p.sampleBytes media
  match media with
  | 0 =>
    let c := p.chroma p.width * p.chroma p.height
    let w := (p.planeDims 0 i p.height p.width).2
    ((if i = 0 then 0 else p.width * p.height + (i - 1) * c) * b + (y * w + x) * b, b)
  | 1 => ((x * p.channels + i) * b, b)
  | _ =>
    let n := p.azimuth * p.beams
    if i = 2 then (4 * n + y * p.azimuth + x, 1) else ((i * n + y * p.azimuth + x) * 2, 2)

/-- A raw sample's value, ignored bits left out. -/
def StreamParams.rawValue (p : StreamParams) (media : Nat) (raw : List Byte) (i y x : Nat) : Int :=
  let a := p.rawAt media i y x
  let n := leAt raw a.1 a.2
  match media with
  | 0 => (n % 2 ^ p.bitDepth : Nat)
  | 1 => signed p.bitDepth n
  | _ => n

/-- Whether some sample has a bit above the depth (10 R223). -/
def StreamParams.highBits (p : StreamParams) (media : Nat) (raw : List Byte) : Bool :=
  media == 0 && p.bitDepth != 8 && (List.range (raw.length / 2)).any fun i => 2 ^ p.bitDepth ≤ leAt raw (2 * i) 2

/-- A centred input value in the extended picture: video replicates its edges, audio and range are extended with zeros (10 R223,
R224; 11 R249, R250, R254). -/
def StreamParams.centred (p : StreamParams) (media : Nat) (raw : List Byte) (i y x : Nat) : Int :=
  let (h0, w0) := p.size media
  let (h, w) := p.planeDims media i h0 w0
  if media = 0 then p.rawValue 0 raw i (min y (h - 1)) (min x (w - 1)) - 2 ^ (p.bitDepth - 1)
  else if y < h ∧ x < w then p.rawValue media raw i y x
  else 0

/-- A reconstructed sample of an element (10 R224; 11 R251, R255). -/
def StreamParams.outValue (p : StreamParams) (media : Nat) (v : EV) : Int :=
  let n := (place 0 v).n
  match media with
  | 0 => clampInt (n + 2 ^ (p.bitDepth - 1)) 0 (2 ^ p.bitDepth - 1)
  | 1 => clampInt n (-(2 ^ (p.bitDepth - 1))) (2 ^ (p.bitDepth - 1) - 1)
  | _ => clampInt n 0 65535

/-- The bytes of a reconstructed picture in its raw output form, from its samples (12 R281). -/
def StreamParams.rawBytes (p : StreamParams) (media : Nat) (at_ : Nat → Nat → Nat → Int) : List Byte :=
  let (h0, w0) := p.size media
  let grid := fun (i : Nat) (k : Nat) =>
    let (h, w) := p.planeDims media i h0 w0
    (List.range h).flatMap fun y => (List.range w).flatMap fun x => leBytes k (unsigned (8 * k) (at_ i y x))
  match media with
  | 0 => (List.range (p.planes 0)).flatMap fun i => grid i (p.sampleBytes 0)
  | 1 => (List.range w0).flatMap fun x => (List.range p.channels).flatMap fun i =>
      leBytes (p.sampleBytes 1) (unsigned (8 * p.sampleBytes 1) (at_ i 0 x))
  | _ => grid 0 2 ++ grid 1 2 ++ (if p.returnPlane = 1 then grid 2 1 else [])

/-! ### Range residuals (11 R256 to R258) -/

/-- `res_encode` and `res_decode` of 11 R257; `lo` is the lower clamp bound. -/
def resEncode (v p : Int) (e : Nat) : Int := (v - p + e) / (2 * e + 1)
def resDecode (q p : Int) (e : Nat) (lo : Int) : Int := clampInt (p + q * (2 * e + 1)) lo 65535

/-- The mapping of a residual to a natural number, and back. -/
def zigzag (q : Int) : Nat := if 0 ≤ q then (2 * q).toNat else (-2 * q - 1).toNat
def unzigzag (n : Nat) : Int := if n % 2 = 0 then n / 2 else -((n : Int) / 2) - 1

/-- Three byte planes of residuals. -/
def bytePlanes (l : List Nat) : List Byte := l.map (byte ·) ++ l.map (fun n => byte (n / 256)) ++ l.map fun n => byte (n / 65536)

/-- A residual from the byte planes of `n` residuals at an offset. -/
def planeResidual (bs : List Byte) (off n i : Nat) : Int :=
  unzigzag (leAt bs (off + i) 1 + 256 * leAt bs (off + n + i) 1 + 65536 * leAt bs (off + 2 * n + i) 1)

/-- The elements of a tile inside the scan, in map order: beam and azimuth. -/
def StreamParams.tileCells (p : StreamParams) (stride k : Nat) : List (Nat × Nat) :=
  let (x0, _, w, _) := p.tileBox 2 stride k
  (List.range p.beams).flatMap fun y => (List.range (min (x0 + w) p.azimuth - x0)).map fun x => (y, x0 + x)

/-- A tile's residual bytes: `v` the true values by plane, `l` the lossy ones. -/
def StreamParams.residual (p : StreamParams) (stride k : Nat) (v l : Nat → Nat → Nat → Int) : List Byte :=
  let cells := p.tileCells stride k
  let here := cells.filter fun c => v 0 c.1 c.2 != 0
  packBits (cells.map fun c => v 0 c.1 c.2 != 0) ++
    bytePlanes (here.map fun c => zigzag (resEncode (v 0 c.1 c.2) (l 0 c.1 c.2) p.rangeE)) ++
    (if p.imode = 1 then bytePlanes (cells.map fun c => zigzag (resEncode (v 1 c.1 c.2) (l 1 c.1 c.2) p.ei)) else []) ++
    (if p.returnPlane = 1 then cells.map fun c => byte (v 2 c.1 c.2).toNat else [])

/-- How long a tile's residual bytes must be, given the presence map they begin with. -/
def StreamParams.residualLen (p : StreamParams) (stride k : Nat) (bs : List Byte) : Nat :=
  let n := (p.tileCells stride k).length
  let m := ((toBits (bs.take (ceilDiv n 8))).take n).countP id
  ceilDiv n 8 + 3 * m + (if p.imode = 1 then 3 * n else 0) + n * p.returnPlane

/-- The reconstructed value of plane `i` at place `j` of the map: from the residual bytes and the lossy values. -/
def StreamParams.fromResidual (p : StreamParams) (stride k : Nat) (bs : List Byte) (l : Nat → Nat → Nat → Int) (i j : Nat) : Int :=
  let cells := p.tileCells stride k
  let n := cells.length
  let c := cells.getD j (0, 0)
  let map := (toBits (bs.take (ceilDiv n 8))).take n
  let m := map.countP id
  let on := map.getD j false
  match i with
  | 0 => if on then resDecode (planeResidual bs (ceilDiv n 8) m ((map.take j).countP id)) (l 0 c.1 c.2) p.rangeE 1 else 0
  | 1 =>
    if p.imode = 1 then resDecode (planeResidual bs (ceilDiv n 8 + 3 * m) n j) (l 1 c.1 c.2) p.ei 0
    else if on then l 1 c.1 c.2 else 0
  | _ => leAt bs (ceilDiv n 8 + 3 * m + (if p.imode = 1 then 3 * n else 0) + j) 1

/-! ### Units (12 R264 to R281) -/

/-- A unit: header, body and CRC. -/
def mkUnit (type : Nat) (body : List Byte) : List Byte :=
  let u := [byte type, 0, 0, 0] ++ beBytes 4 (body.length + 4) ++ body
  u ++ beBytes 4 (crc32c u)

/-- The media part of a stream header (12 R271). -/
def StreamParams.mediaPart (p : StreamParams) (media stride : Nat) : List Byte :=
  match media with
  | 0 => beBytes 2 p.width ++ beBytes 2 p.height ++ [byte p.bitDepth, byte p.sampling] ++ beBytes 2 p.tileSize ++
      [byte (p.cols 0 stride), byte (p.rows 0)] ++ zeros 6
  | 1 => beBytes 4 p.sampleRate ++ [byte p.channels, byte p.bitDepth] ++ beBytes 2 p.frame ++ beBytes 2 (p.extW 1 stride) ++ zeros 6
  | _ => beBytes 2 p.azimuth ++ beBytes 2 p.beams ++ [byte p.returnPlane, 0] ++ beBytes 2 p.tileSize ++
      [byte (p.cols 2 stride)] ++ zeros 7

/-- A stream header's body without its CRC (12 R270). -/
def streamHeaderBody (p : StreamParams) (media stride : Nat) (digest : List Byte) (t : Nat) : List Byte :=
  beBytes 2 0x5A42 ++ [1, byte media] ++ digest ++ beBytes 2 (p.reconDigest + 4 * p.adapt) ++ beBytes 2 p.refreshN ++
    beBytes 4 t ++ p.mediaPart media stride

/-- A picture header's body without its CRC (12 R273). -/
def pictureHeaderBody (p : StreamParams) (media stride t qi refs marks flags ndelta : Nat) : List Byte :=
  beBytes 4 t ++ [byte qi, byte refs, byte marks, byte flags] ++ beBytes 2 (refreshPos t p.refreshN) ++ beBytes 2 ndelta ++
    beBytes 2 (p.tiles media stride) ++ zeros 2 ++
    (if media = 2 then [byte p.rangeE, byte p.imode, byte (if p.imode = 1 then p.ei else 0), 0] ++ beBytes 2 p.resDepth ++ zeros 2
     else zeros 8)

/-- Whether a picture carries a digest under a policy (12 R282). -/
def digestDue (policy t n : Nat) : Bool := policy == 1 || (policy == 2 && refreshComplete t n)

/-- A ROI rectangle clipped to a picture; none when it covers nothing (10 R235). -/
def RoiRect.clip (r : RoiRect) (p : StreamParams) : Option RoiRect :=
  let x1 := min r.x1 p.width
  let y1 := min r.y1 p.height
  if r.x0 < x1 ∧ r.y0 < y1 then some { r with x1 := x1, y1 := y1 } else none

/-- The DQ of a 16 × 16 block: the highest-numbered rectangle that meets it (10 R235). -/
def gainAt (l : List RoiRect) (by_ bx : Nat) : Int :=
  match l.reverse.find? fun r => r.x0 < 16 * bx + 16 && 16 * bx < r.x1 && r.y0 < 16 * by_ + 16 && 16 * by_ < r.y1 with
  | some r => r.dq
  | none => 0

/-- Whether the gain map of clipped rectangles is 0 everywhere. -/
def gainZero (p : StreamParams) (l : List RoiRect) : Bool :=
  (List.range (p.extH 0 16 / 16)).all fun y => (List.range (p.extW 0 16 / 16)).all fun x => gainAt l y x == 0

/-- The body of an ROI unit (12 R276). -/
def roiBody (l : List RoiRect) : List Byte :=
  [byte l.length, 0, 0, 0] ++ l.flatMap fun r =>
    beBytes 2 r.x0 ++ beBytes 2 r.y0 ++ beBytes 2 r.x1 ++ beBytes 2 r.y1 ++ [byte (unsigned 8 r.dq), 0]

/-- A whole ZLZ stream of some bytes. -/
def zlzOf (bs : List Byte) (depth : Nat) : List Byte := (lzPack bs depth (2 ^ 40) 0 0).out

/-- A sub-unit of a tile (12 R279). -/
def subUnit (kind : Nat) (zlz : List Byte) : List Byte := [byte kind, 0, 0, 0] ++ beBytes 4 zlz.length ++ zlz

/-- The body of a TILE unit (12 R278). -/
def tileBody (w : TileWork) (motion residual : Option (List Byte)) : List Byte :=
  let segs := w.segments.map (·.2)
  beBytes 2 w.tile ++ [byte segs.length, byte (b01 motion.isSome + 2 * b01 residual.isSome)] ++ beBytes 4 w.bypassBits ++
    segs.flatMap (fun g => beBytes 4 g.length) ++ segs.flatMap id ++ w.bypass.take (ceilDiv w.bypassBits 8) ++
    (match motion with | some z => subUnit 1 z | none => []) ++ (match residual with | some z => subUnit 2 z | none => [])

/-- The rANS segments of a TILE unit's body (12 R278). -/
def tileSegments (b : List Byte) : List (List Byte) :=
  let n := leAt b 2 1
  let lens := (List.range n).map fun i => beAt b (8 + 4 * i) 4
  (List.range n).map fun i => slice b (8 + 4 * n + (lens.take i).sum) (lens.getD i 0)

/-- The bypass field of a TILE unit's body. -/
def tileBypass (b : List Byte) : List Byte :=
  let n := leAt b 2 1
  slice b (8 + 4 * n + ((tileSegments b).map List.length).sum) (ceilDiv (beAt b 4 4) 8)

/-- The body of PICTURE_END (12 R281). -/
def pictureEndBody (t : Nat) (digest : Option (List Byte)) : List Byte :=
  beBytes 4 t ++ [byte (b01 digest.isSome), 0, 0, 0] ++ digest.getD []

/-- Where a unit stands in canonical order: TILE units by index, everything else where it is (12 R269). -/
def canonicalUnits (us : List (List Byte)) : List (List Byte) :=
  let tiles := us.filter fun u => leAt u 0 1 == 6
  let before := us.takeWhile fun u => leAt u 0 1 != 6
  before ++ sortBy (fun a b => decide (beAt a 8 2 ≤ beAt b 8 2)) tiles ++
    (us.drop before.length).filter fun u => leAt u 0 1 != 6

/-! ### Output records (14 R320; 11 R262) -/

/-- An output record. In ZBS records PICTURE is zero, as in input. -/
def outRecord (kind picture flags : Nat) (digest data : List Byte) : List Byte :=
  leBytes 2 0x5A4F ++ [1, byte kind] ++ leBytes 4 picture ++ leBytes 4 data.length ++ leBytes 4 flags ++
    (digest ++ zeros (16 - digest.length)) ++ data

/-- A unit as an output record. -/
def zbsRecord (u : List Byte) : List Byte := outRecord 2 0 0 [] u

/-- The row of a packed planar tensor. -/
def packedRow (f : Fmt) (codes : List Nat) : List Byte :=
  if f = .int4 then
    (List.range (ceilDiv codes.length 2)).map fun i => byte (codes.getD (2 * i) 0 % 16 + 16 * (codes.getD (2 * i + 1) 0 % 16))
  else codes.flatMap (leBytes (f.width / 8))

/-- The code of 05 R96 of a format. -/
def fmtCode (f : Fmt) : Nat := ((List.range 256).find? fun i => Fmt.ofCode i == some f).getD 0

/-- A feature record of a head's output (11 R262). -/
def State.featureRecord (s : State) (t : Tensor) (head picture tile : Nat) (incomplete : Bool) : List Byte :=
  let data := (List.range t.c).flatMap fun c => (List.range t.h).flatMap fun y =>
    packedRow t.fmt ((List.range t.w).map fun x => s.code t c y x)
  let scales := if t.scaled then s.bytesAt t.scale (8 * t.blocks) else []
  leBytes 2 0x5A46 ++ [1, byte head] ++ leBytes 4 picture ++ leBytes 4 tile ++
    [byte (fmtCode t.fmt), byte (b01 incomplete + 2 * b01 t.scaled)] ++ leBytes 2 t.c ++ leBytes 2 t.h ++ leBytes 2 t.w ++
    leBytes 4 data.length ++ leBytes 4 scales.length ++ zeros 4 ++ data ++ scales

/-- Feature records of a picture as they leave: the last one carries FLAGS bit 2. -/
def markLast : List (List Byte) → List (List Byte)
  | [] => []
  | [r] => [modifyAt r 13 (· ||| 4)]
  | r :: rs => r :: markLast rs

/-! ### Rate control (10 R236, R237) -/

/-- TWO8 of 10 R237. -/
def two8 : List Nat := [65536, 71468, 77936, 84990, 92682, 101070, 110218, 120194]

/-- `est` of 10 R237. -/
def rateEst (size : Nat) (q0 q : Int) : Nat :=
  let d := q - q0
  size * two8.getD (d % 8).toNat 0 / 2 ^ (16 - d / 8).toNat

/-- The motion weight of a picture (10 R237). -/
def motionWeight (lmv0 qi : Nat) : Nat := lmv0 * two8.getD ((63 - qi) % 8) 0 / 2 ^ (16 - (63 - qi) / 8)

/-- `rate_qi` of 10 R237 where it does not take QI_INIT: F updated, and QI. `size`, `q2`: of picture t − 2; `q1`: QI of t − 1;
`b` the bits of a picture interval. -/
def rateQi (r : RateCfg) (f0 : Int) (b size : Nat) (q1 q2 : Int) : Int × Int :=
  let f := clampInt (f0 + size - b) 0 r.buf
  let goal : Int := max ((b / 8 : Nat) : Int) (b + ((r.buf / 2 : Nat) - f).tdiv 4)
  let cands := (List.range (r.qiMax + 1 - r.qiMin)).map fun (i : Nat) => (r.qiMax : Int) - i
  let q := (cands.find? fun c => decide ((rateEst size q2 c : Int) ≤ goal)).getD r.qiMin
  (f, clampInt (clampInt q (q1 - 8) (q1 + 8)) r.qiMin r.qiMax)

end Sys2Proof.Machine
end

