-- ==== Sys2Proof/Machine/Motion.lean ====
section
/-! DEFINITION. Motion search and warping (10 R228 to R231). The operand forms the spec gives no table for are the model's (log 18). -/

namespace Sys2Proof.Machine

/-- A pyramid level of one picture as integers: its size and its samples; `limit` the horizontal limit of that level. -/
structure Plane where
  h : Nat
  w : Nat
  at_ : Nat → Nat → Int

/-- A position clamped to `0 … n - 1`. -/
def clampPos (i : Int) (n : Nat) : Nat := (clampInt i 0 ((n : Int) - 1)).toNat

/-- A sample with coordinates clamped to the plane (10 R229). -/
def Plane.sample (p : Plane) (y x : Int) : Int := p.at_ (clampPos y p.h) (clampPos x p.w)

/-- A sample at a quarter-sample position, interpolated bilinearly (10 R228 step 5). -/
def Plane.quarter (p : Plane) (y4 x4 : Int) : Int :=
  let iy := y4 / 4
  let ix := x4 / 4
  let fy := y4 % 4
  let fx := x4 % 4
  rneDiv ((4 - fx) * (4 - fy) * p.sample iy ix + fx * (4 - fy) * p.sample iy (ix + 1) +
    (4 - fx) * fy * p.sample (iy + 1) ix + fx * fy * p.sample (iy + 1) (ix + 1)) 16

/-- Level `l` of a picture whose levels are the channels `c0 …` of a planar tensor, its width limited (10 R228, R229). -/
def State.level (s : State) (t : Tensor) (c0 l limit : Nat) : Plane :=
  { h := max 1 (t.h / 2 ^ l), w := max 1 (min (t.w / 2 ^ l) (limit / 2 ^ l))
    at_ := fun y x => (place 0 (decodeCode t.fmt 0 (s.code t (c0 + l) y x))).n }

/-- A candidate: its cost and its vector in quarter samples. -/
structure Cand where
  cost : Int
  vx : Int
  vy : Int
  deriving DecidableEq, Repr

/-- Length of a vector. -/
def Cand.len (c : Cand) : Nat := c.vx.natAbs + c.vy.natAbs

/-- The order of 10 R229. -/
def Cand.before (a b : Cand) : Bool :=
  decide (a.cost < b.cost) || (a.cost == b.cost && (decide (a.len < b.len) || (a.len == b.len &&
    (decide (a.vy < b.vy) || (a.vy == b.vy && decide (a.vx < b.vx))))))

/-- The best of candidates that 10 R229 does not exclude. -/
def bestCand (l : List Cand) : Cand :=
  let ok := l.filter fun c => c.vx.natAbs ≤ 2048 && c.vy.natAbs ≤ 1024
  ok.foldl (fun b c => if c.before b then c else b) (ok.headD ⟨2 ^ 60, 0, 0⟩)

/-- Positions of an `n` × `n` block. -/
def square (n : Nat) : List (Nat × Nat) := (List.range n).flatMap fun y => (List.range n).map fun x => (y, x)

/-- Offsets from `-n` to `n` on both axes. -/
def offsets (n m : Nat) : List (Int × Int) :=
  (List.range (2 * m + 1)).flatMap fun (j : Nat) => (List.range (2 * n + 1)).map fun (i : Nat) => (((i : Int) - n, (j : Int) - m) : Int × Int)

/-- The sum of absolute differences of an integer displacement of a block at a level. -/
def sad (cur ref : Plane) (cy cx : Nat) (ry rx : Int) (n : Nat) (dx dy : Int) : Int :=
  ((square n).map fun p => ((cur.at_ (cy + p.1) (cx + p.2) - ref.sample (ry + p.1 + dy) (rx + p.2 + dx)).natAbs : Int)).sum

/-- The sum of absolute differences of a vector in quarter samples at level 0. -/
def sadQuarter (cur ref : Plane) (cy cx : Nat) (ry rx : Int) (n : Nat) (vx vy : Int) : Int :=
  ((square n).map fun p =>
    ((cur.at_ (cy + p.1) (cx + p.2) - ref.quarter (4 * (ry + p.1) + vy) (4 * (rx + p.2) + vx)).natAbs : Int)).sum

/-- A candidate's cost (10 R229). -/
def candOf (lmv : Nat) (d vx vy : Int) : Cand := ⟨d + lmv * (vx.natAbs + vy.natAbs : Nat), vx, vy⟩

/-- What one reference gives a block: its cost, and the four vectors with the split flag. -/
structure Found where
  cost : Int
  vectors : List (Int × Int)
  split : Bool
  deriving DecidableEq, Repr

/-- The search of one 16 × 16 block at (`y`, `x`) of the tile, at (`py`, `px`) of the picture (10 R228). -/
def searchBlock (cur ref : Nat → Plane) (lmv y x : Nat) (py px : Int) : Found :=
  let full := fun (l n : Nat) (c : List (Int × Int)) =>
    let u : Int := 4 * 2 ^ l
    bestCand (c.map fun d => candOf lmv (sad (cur l) (ref l) (y / 2 ^ l) (x / 2 ^ l) (py / 2 ^ l) (px / 2 ^ l) n d.1 d.2) (u * d.1) (u * d.2))
  let around := fun (u : Int) (b : Cand) (n : Nat) => (offsets n n).map fun o => (b.vx / u + o.1, b.vy / u + o.2)
  let l2 := full 2 4 (offsets 128 64)
  let l1 := full 1 8 (around 8 l2 2)
  let v16 := full 0 16 (around 4 l1 2)
  let quarter := fun (dy dx n : Nat) (b : Cand) =>
    bestCand ((offsets 3 3).map fun o =>
      candOf lmv (sadQuarter (cur 0) (ref 0) (y + dy) (x + dx) (py + dy) (px + dx) n (b.vx + o.1) (b.vy + o.2)) (b.vx + o.1) (b.vy + o.2))
  let whole := quarter 0 0 16 v16
  let parts := [(0, 0), (0, 8), (8, 0), (8, 8)].map fun (q : Nat × Nat) =>
    let b := bestCand ((around 4 v16 1).map fun d =>
      candOf lmv (sad (cur 0) (ref 0) (y + q.1) (x + q.2) (py + q.1) (px + q.2) 8 d.1 d.2) (4 * d.1) (4 * d.2))
    quarter q.1 q.2 8 b
  let splitCost := (parts.map (·.cost)).sum + 4 * lmv
  if splitCost < whole.cost then ⟨splitCost, parts.map fun c => (c.vx, c.vy), true⟩
  else ⟨whole.cost, List.replicate 4 (whole.vx, whole.vy), false⟩

/-- An entry of the motion field (10 R230). -/
def motionEntry (v : Int × Int) (ref : Nat) (split : Bool) : List Byte :=
  leBytes 2 (unsigned 16 v.1) ++ leBytes 2 (unsigned 16 v.2) ++ [byte ref, byte (b01 split), 0, 0]

/-- The entries of a tile's 16 × 16 blocks laid out by 8 × 8 block in raster order. -/
def motionField (h w : Nat) (f : Nat → Nat → Option (Nat × Found)) : List Byte :=
  (List.range (h / 8)).flatMap fun y => (List.range (w / 8)).flatMap fun x =>
    match f (y / 2) (x / 2) with
    | some (slot, r) => motionEntry (r.vectors.getD (y % 2 * 2 + x % 2) (0, 0)) slot r.split
    | none => motionEntry (0, 0) 0xFF false

/-- The slots of a mask. -/
def maskSlots (m : Nat) : List Nat := (List.range 8).filter (bit m)

/-- MSEARCH (10 R228 to R230). -/
def msearchWork : OpFn := fun x =>
  let n := x.op.own
  let cur := x.op.t 0
  let ref := x.op.t 1
  let out := x.op.r 0
  let slots := maskSlots (bits n 64 8)
  let planar := fun (t : Tensor) => t.fmt == .fp16 && t.layout == 0
  if bits n 72 24 ≠ 0 || !planar cur || !planar ref then .error .badParam
  else if cur.c ≠ 3 || ref.c ≠ 3 * max 1 slots.length || cur.h % 16 ≠ 0 || cur.w % 16 ≠ 0 then .error .badShape
  else if out.len < cur.h / 8 * (cur.w / 8) * 8 then .error .badParam
  else .ok {
    reads := cur.spans ++ ref.spans, writes := [⟨out.base, cur.h / 8 * (cur.w / 8) * 8⟩]
    run := guardExact x [cur, ref] fun s =>
      let field := motionField cur.h cur.w fun by_ bx =>
        (slots.zipIdx.map fun k =>
          (k.1, searchBlock (fun l => s.level cur 0 l cur.w) (fun l => s.level ref (3 * k.2) l (bits n (96 + 16 * k.1) 16))
            (bits n 32 32) (16 * by_) (16 * bx) (bits n 16 16 + 16 * by_ : Nat) (bits n 0 16 + 16 * bx : Nat))).foldl
          (fun (b : Option (Nat × Found)) e => match b with
            | some c => if e.2.cost < c.2.cost then some e else b
            | none => some e) none
      { runs := [(out.base, field)], tile := fun w => { w with motion := field } } }

/-- The exact sum of weighted values placed on a grid, irrational terms by enclosures (10 R231 step 4). -/
def placeSum (f : Nat) (l : List EV) : Placed :=
  if l.any EV.nonfinite || l.all fun v => v.rational then place f (l.foldl EV.addExact .zero)
  else
    let n := roundEncInt false (fun p => l.foldl (fun (a : Iv) v => a.add (encEV p v)) ⟨0, 0⟩) f
    let c := clampInt n (-(gridLimit : Int)) gridLimit
    ⟨c, c != n, false⟩

/-- The vector and REF of the 8 × 8 block of a field of a tile `w` samples wide that holds a luma sample. -/
def State.motionAt (s : State) (field : Span) (w y x : Nat) : Int × Int × Nat :=
  let a := field.base + 8 * (y / 8 * ceilDiv w 8 + x / 8)
  (signed 16 (s.numAt a 2), signed 16 (s.numAt (a + 2) 2), s.numAt (a + 4) 1)

/-- The feature strides of WARP. -/
def warpStrides : List Nat := [1, 2, 4, 8, 16]

/-- WARP (10 R231). -/
def warpWork : OpFn := fun x =>
  let o := x.op
  let n := o.own
  let a := o.t 0
  let d := o.t 1
  let field := o.r 0
  let st := bits n 0 8
  let cw := bits n 16 16
  let ox := bits n 32 16
  let oy := bits n 48 16
  let zeros := d.fmt.isInt && d.scaled
  if !warpStrides.contains st || bits n 8 8 ≠ 0 || a.layout = 0 || !stageAllowed o d then .error .badParam
  else if d.c ≠ a.c then .error .badShape
  else if field.len < 8 * (ceilDiv (d.h * st) 8 * ceilDiv (d.w * st) 8) then .error .badParam
  else .ok {
    reads := a.spans ++ a.scaleSpans ++ [field] ++ (if zeros then d.scaleSpans else stageReads x d [] false), writes := stageWrites x d
    run :=
      let lim := max 1 (min a.w (cw / st))
      let taps := fun (s : State) (y z : Nat) =>
        let v := s.motionAt field (d.w * st) (y * st) (z * st)
        let px : Int := 64 * (z + ox : Nat) + v.1 * 16 / st
        let py : Int := 64 * (y + oy : Nat) + v.2.1 * 16 / st
        let fx := px % 64
        let fy := py % 64
        let ix := fun (i : Int) => clampPos (px / 64 + i) lim
        let iy := fun (i : Int) => clampPos (py / 64 + i) a.h
        if v.2.2 = 0xFF then none
        else some [((64 - fx) * (64 - fy), iy 0, ix 0), (fx * (64 - fy), iy 0, ix 1), ((64 - fx) * fy, iy 1, ix 0), (fx * fy, iy 1, ix 1)]
      let at_ := fun (s : State) => (List.range d.h).flatMap fun y => (List.range d.w).flatMap fun z =>
        ((taps s y z).getD []).map fun t => t.2
      guardAt x a at_ fun s =>
      let sa := s.src a
      let sd := s.src d
      let intra := zeros && (List.range d.h).any fun y => (List.range d.w).any fun z => (taps s y z).isNone
      let feed : Feed := ⟨sa, fun c y z => (taps s y z).all fun l => l.all fun t => sa.goodAt c t.2.1 t.2.2⟩
      let own : Feed := ⟨sd, fun c y z => (taps s y z).isSome || sd.goodAt c y z⟩
      stageEff x s d (if intra then [feed, own] else [feed]) [] false (fun _ _ _ => EV.one) fun c y z =>
        match taps s y z with
        | none => .zero
        | some l =>
          let p := placeSum o.f (l.map fun t => (EV.ofInt t.1).mul (s.real a o.f c t.2.1 t.2.2))
          .exact (o.f + 12) p.n (b01 p.sat) (b01 p.nonfin) }

end Sys2Proof.Machine
end

