-- ==== Sys2Proof/Machine/Threads.lean ====
section
/-! DEFINITION. The operations of a thread as commands, what its engines complete, and its waits (05 R98; 06 R116 to R119, R130 to
R137, R143; 14 R327, R330; 17 R392, R396). -/

namespace Sys2Proof.Machine

/-! ### Control operations: their own rules -/

/-- FENCE (06 R130): SCOPE codes 6 and 7 are refused. -/
def fenceWork : OpFn := fun x =>
  if 6 ≤ x.op.own then .error .badParam else .ok { reads := [], writes := [], run := fun _ => {} }

/-- BARRIER's COUNTER and PARTICIPANTS. -/
def barrierCounter (o : Op) : Nat := bits o.own 0 16
def barrierCount (o : Op) : Nat := bits o.own 16 8

/-- The counter of a die, when one is open. -/
def State.barrierAt (s : State) (die counter : Nat) : Option Barrier :=
  s.barriers.find? fun b => b.die == die && b.counter == counter

/-- BARRIER (06 R132, 01 R13): the thread's own cluster, a counter allocated to its stream or job, and the generation's count. -/
def barrierWork : OpFn := fun x =>
  let n := barrierCount x.op
  let c := barrierCounter x.op
  let own := match x.s.barrierAt x.th.id.die c with
    | some b => b.owner == x.th.binding && (match b.participants with | some p => p == n | none => true)
    | none => false
  if c / 16 ≠ unitCluster x.th.id.unit || n = 0 || 128 < n || !own then .error .badParam
  else .ok { reads := [], writes := [], run := fun _ => {} }

/-- The word a WAIT or SIGNAL names. -/
def wordAddr (x : Ctx) : Nat := canonAddr x.th.id (bits x.op.own 0 64)

/-- Whether the word is aligned and lies where a word of this kind may (06 R133). -/
def wordOk (x : Ctx) : Bool := wordAddr x % 8 == 0 && addable x.s ⟨wordAddr x, 8⟩

/-- WAIT (06 R134). -/
def waitWork : OpFn := fun x =>
  if !wordOk x then .error .badParam else .ok { reads := [⟨wordAddr x, 8⟩], writes := [], run := fun _ => {} }

/-- SIGNAL (06 R133): VALUE added to the word modulo 2^64. -/
def signalWork : OpFn := fun x =>
  if !wordOk x || 6 ≤ bits x.op.own 128 3 then .error .badParam
  else .ok {
    reads := [], writes := [⟨wordAddr x, 8⟩]
    run := fun s => { runs := [(wordAddr x, leBytes 8 (s.numAt (wordAddr x) 8 + bits x.op.own 64 64))] } }

/-- CHECKPOINT (17 R392): the declared ranges; unused entries and reserved bits are zero. -/
def checkpointRanges (t : ThreadId) (o : Op) : Except Status (List Span) :=
  let n := bits o.own 0 8
  if 8 < n || bits o.own 8 56 ≠ 0 || o.own / 2 ^ (64 + 128 * n) ≠ 0 then .error .badParam
  else (List.range n).mapM fun i => ownRange t o.own (64 + 128 * i)

/-- The tensors in which a coding operation leaves latents: DEC's, and ENC's RECON. -/
def latentsLeft (t : ThreadId) (p : OpRow × Op) : Option Tensor :=
  if p.1.code = 0x29 then some (p.2.t 2)
  else if p.1.code = 0x28 ∧ bits p.2.own 288 64 ≠ 0 then (parseTensor t false (leBytes 48 (bits p.2.own 288 384))).toOption
  else none

/-- The tensors of a tile that are zeroed where its loop list begins (08 R182, R191; DEDUCED, log 17). -/
def Ctx.loopTensors (x : Ctx) : List Tensor :=
  if x.listRef.isNone then [] else dedup ((x.s.listParsed x.th.id x.cur.addr).filterMap (latentsLeft x.th.id))

/-- CHECKPOINT's own rules: SIZE 11, so 176 bytes; in a tile's loop list the latents are zeroed after it (08 R182, R191). -/
def checkpointWork : OpFn := fun x =>
  if x.op.size ≠ 11 then .error .badParam
  else (checkpointRanges x.th.id x.op).map fun _ => {
    reads := [], writes := x.loopTensors.flatMap Tensor.spans, run := fun s => { runs := x.loopTensors.flatMap (zeroRuns s) } }

/-- The rules of an opcode (05 R98). -/
def opWork (code : Nat) : Option OpFn :=
  match code with
  | 0x01 => some matmulWork | 0x02 => some convFn | 0x03 => some dwconvFn | 0x04 => some gconvFn | 0x05 => some splitkWork
  | 0x08 => some eltwiseWork | 0x09 => some reduceWork | 0x0A => some poolMaxWork | 0x0B => some poolAvgWork
  | 0x0C => some s2dWork | 0x0D => some d2sWork | 0x0E => some upsampleWork | 0x0F => some copyWork
  | 0x10 => some transposeWork | 0x11 => some concatWork | 0x18 => some sfuWork | 0x19 => some gateWork
  | 0x1A => some normWork | 0x1B => some softmaxWork | 0x20 => some qscanWork | 0x21 => some qconvWork
  | 0x22 => some requantWork | 0x23 => some rngWork | 0x28 => some encWork | 0x29 => some decWork
  | 0x2C => some lzPackWork | 0x2D => some lzUnpackWork | 0x30 => some msearchWork | 0x31 => some warpWork
  | 0x38 => some loadWork | 0x39 => some storeWork | 0x3A => some prefetchWork | 0x3B => some atomicAddWork
  | 0x40 => some fenceWork | 0x41 => some barrierWork | 0x42 => some waitWork | 0x43 => some signalWork
  | 0x44 => some checkpointWork
  | _ => none

/-! ### Answers of partners (14 R327, R330) -/

/-- The outstanding request with a tag on a port. -/
def Plk.openTag (l : Plk) (tag : Nat) : Option LinkTag := l.tags.find? fun g => g.sent && g.got.isNone && g.tag == tag

/-- An answer recorded with its request. -/
def State.answerTag (s : State) (port tag : Nat) (data : List Byte) : State :=
  s.onPlk port fun l => { l with
    tags := modifyAt l.tags (l.tags.findIdx fun g => g.sent && g.got.isNone && g.tag == tag) fun g => { g with got := some data } }

/-- Every request of an operation taken away, and those that waited sent. -/
def State.dropTags (s : State) (t : ThreadId) (descr : Nat) : State :=
  let s1 := s.onDies fun d => { d with plk := { d.plk with
    tags := d.plk.tags.filter fun g => !(g.thread == t && g.descr == descr) } }
  (List.range s.dieCount).foldl (fun u p => u.pumpTags p ((u.die p).plk.tags.length)) s1

/-- What partners answered for an operation: where, and the bytes. -/
def State.answers (s : State) (t : ThreadId) (descr : Nat) : List (Nat × List Byte) :=
  s.dies.flatMap fun d => d.plk.tags.filterMap fun g =>
    if g.thread = t ∧ g.descr = descr ∧ g.isWrite = false then g.got.map fun b => (g.dest, b) else none

/-- The list of an early PREFETCH, which may have been discarded since: the PREFETCH stands (06 R120). -/
def State.queuedList (s : State) (th : Thread) (o : Outst) : Option CurList :=
  match s.frameList th o.list with
  | .ok c => some { c with opIndex := o.opIndex, offset := o.descr - o.list }
  | .error _ => none

/-- The list an outstanding operation belongs to: the running one, or a queued one for an early PREFETCH. -/
def State.listOf (s : State) (th : Thread) (o : Outst) : Option CurList :=
  match th.cur, o.early with
  | some c, false => some { c with opIndex := o.opIndex, offset := o.descr - c.addr }
  | _, _ => s.queuedList th o

/-- The effect of an operation that waited, computed now: with the data partners answered at the window addresses, which this part does
not keep, and with the bank it is bound to. -/
def State.lateEffect (s : State) (th : Thread) (c : CurList) (o : Outst) : Option (Except Stop Eff) :=
  let u := s.putRuns (s.answers th.id o.descr)
  match rowOf o.opcode, opWork o.opcode with
  | some r, some f =>
    match parseOp th.id r (s.opBytesAt th.id o.list o.descr) with
    | .ok p =>
      match f { s := u, th := th, cur := c, op := p, bank := o.bank.getD 0 } with
      | .ok w => some (.ok (w.run u))
      | .error e => some (.error { status := e })
    | .error e => some (.error { status := e })
  | _, _ => none

/-- A fault of an operation whose effect waited: an early PREFETCH's is held for its own position, any other stops the thread. -/
def State.lateFault (s : State) (th : Thread) (o : Outst) (x : Stop) : State :=
  let th1 := { th with out := th.out.filter fun (q : Outst) => q.descr != o.descr }
  if o.early then
    s.setThread { th1 with early := th1.early.map fun (e : Nat × Nat × Option Stop) =>
      if e.1 = o.list ∧ e.2.1 = o.opIndex ∧ e.2.2 = none then (e.1, e.2.1, some x) else e }
  else s.stopWith th1 x

/-- An operation that takes effect after its issue. -/
def State.lateLand (s : State) (th : Thread) (c : CurList) (o : Outst) (e : Eff) : State :=
  match e.stop with
  | some x => (s.applyEff th c e).lateFault th o x
  | none =>
    let th1 := ({ th with out := th.out.map fun (q : Outst) =>
      if q.descr = o.descr then { q with ran := true, saves := e.saves } else q } : Thread).keep e
    (s.setThread th1).applyEff th1 c e

/-- An operation whose effect waited takes effect once every read is answered and, on a lane, its first chunk has bound a bank. -/
def State.finishLate (s : State) (t : ThreadId) (descr : Nat) : State :=
  if s.tagsOpen t descr then s
  else
    match s.thread t with
    | none => s.dropTags t descr
    | some th =>
      match th.out.find? fun o => o.descr == descr && !o.ran with
      | none => s.dropTags t descr
      | some o =>
        if o.engine = .lane ∧ o.bank = none then s
        else
          match s.listOf th o with
          | none => s.dropTags t descr
          | some c =>
            let s1 := s.dropTags t descr
            match s.lateEffect th c o with
            | none => s1
            | some (.error x) => s1.lateFault th o x
            | some (.ok e) => s1.lateLand th c o e

/-! ### Lanes and chunks (06 R119; 07 R148, R164, R467) -/

/-- A thread's operation whose first chunk a lane has taken binds the active bank and takes effect (07 R164). -/
def State.startLane (s : State) (t : ThreadId) : State :=
  match s.thread t with
  | none => s
  | some th =>
    match th.out.find? fun o => o.engine == .lane && !o.done && o.taken.isSome && o.bank.isNone with
    | none => s
    | some o => (s.setThread { th with out := th.out.map fun (q : Outst) =>
        if q.descr = o.descr then { q with bank := some s.activeBank } else q }).finishLate t o.descr

/-- The lanes of a region take chunks until none can be taken: an operation that faults at its start leaves its lane. -/
def State.runLanes (s : State) (die region : Nat) : Nat → State
  | 0 => s
  | k + 1 =>
    let v := s.takeChunks die .lane region none 4
    let u := (v.threads.filter (·.at die .lane region)).foldl (fun w t => w.startLane t.id) v
    if u.hasRoom die .lane region && (u.nextThread die .lane region none).isSome then u.runLanes die region k else u

/-- An engine goes on: a region's lanes also start what they took. -/
def State.engineServes (s : State) (t : ThreadId) (e : Engine) (last : Option ThreadId) : State :=
  let u := s.serveEngine t e last
  if e = .lane then u.runLanes t.die (unitRegion t.unit) u.threads.length else u

/-- Every engine of a die that has queued operations takes what it can (20 R450: a class ungated). -/
def State.serveDie (s : State) (die : Nat) : State :=
  (s.threads.filter fun t => t.id.die == die).foldl (fun u t =>
    t.out.foldl (fun v o => if o.taken.isNone && !o.done then v.engineServes t.id o.engine none else v) u) s

/-! ### Operations that compute or move data -/

/-- An operation of the entropy lanes offered for issue: a lane with room starts it at once. -/
def issueLane (s : State) (t : ThreadId) (r : OpRow) (f : OpFn) : Host.Outcome State Fault Refusal :=
  if threadPresent s t then
    let u := s.carryOut r .lane (s.decideOp t r f)
    .next (u.runLanes t.die (unitRegion t.unit) u.threads.length)
  else .fault .absentElement

def execMatmul (t : ThreadId) (s : State) : Host.Outcome State Fault Refusal := issueOp s t rowMatmul .tensor matmulWork
def execConv (t : ThreadId) (s : State) : Host.Outcome State Fault Refusal := issueOp s t rowConv .tensor convFn
def execDwconv (t : ThreadId) (s : State) : Host.Outcome State Fault Refusal := issueOp s t rowDwconv .vector dwconvFn
def execGconv (t : ThreadId) (s : State) : Host.Outcome State Fault Refusal := issueOp s t rowGconv .vector gconvFn
def execSplitkReduce (t : ThreadId) (s : State) : Host.Outcome State Fault Refusal := issueOp s t rowSplitk .vector splitkWork
def execEltwise (t : ThreadId) (s : State) : Host.Outcome State Fault Refusal := issueOp s t rowEltwise .vector eltwiseWork
def execReduce (t : ThreadId) (s : State) : Host.Outcome State Fault Refusal := issueOp s t rowReduce .vector reduceWork
def execPoolMax (t : ThreadId) (s : State) : Host.Outcome State Fault Refusal := issueOp s t rowPoolMax .vector poolMaxWork
def execPoolAvg (t : ThreadId) (s : State) : Host.Outcome State Fault Refusal := issueOp s t rowPoolAvg .vector poolAvgWork
def execS2d (t : ThreadId) (s : State) : Host.Outcome State Fault Refusal := issueOp s t rowS2d .agen s2dWork
def execD2s (t : ThreadId) (s : State) : Host.Outcome State Fault Refusal := issueOp s t rowD2s .agen d2sWork
def execUpsample (t : ThreadId) (s : State) : Host.Outcome State Fault Refusal := issueOp s t rowUpsample .agen upsampleWork
def execCopy (t : ThreadId) (s : State) : Host.Outcome State Fault Refusal := issueOp s t rowCopy .vector copyWork
def execTranspose (t : ThreadId) (s : State) : Host.Outcome State Fault Refusal := issueOp s t rowTranspose .agen transposeWork
def execConcat (t : ThreadId) (s : State) : Host.Outcome State Fault Refusal := issueOp s t rowConcat .agen concatWork
def execSfu (t : ThreadId) (s : State) : Host.Outcome State Fault Refusal := issueOp s t rowSfu .sfu sfuWork
def execGate (t : ThreadId) (s : State) : Host.Outcome State Fault Refusal := issueOp s t rowGate .sfu gateWork
def execNorm (t : ThreadId) (s : State) : Host.Outcome State Fault Refusal := issueOp s t rowNorm .sfu normWork
def execSoftmax (t : ThreadId) (s : State) : Host.Outcome State Fault Refusal := issueOp s t rowSoftmax .sfu softmaxWork
def execQscan (t : ThreadId) (s : State) : Host.Outcome State Fault Refusal := issueOp s t rowQscan .vector qscanWork
def execQconv (t : ThreadId) (s : State) : Host.Outcome State Fault Refusal := issueOp s t rowQconv .vector qconvWork
def execRequant (t : ThreadId) (s : State) : Host.Outcome State Fault Refusal := issueOp s t rowRequant .vector requantWork
def execRng (t : ThreadId) (s : State) : Host.Outcome State Fault Refusal := issueOp s t rowRng .vector rngWork
def execEnc (t : ThreadId) (s : State) : Host.Outcome State Fault Refusal := issueLane s t rowEnc encWork
def execDec (t : ThreadId) (s : State) : Host.Outcome State Fault Refusal := issueLane s t rowDec decWork
def execLzPack (t : ThreadId) (s : State) : Host.Outcome State Fault Refusal := issueOp s t rowLzPack .match_ lzPackWork
def execLzUnpack (t : ThreadId) (s : State) : Host.Outcome State Fault Refusal := issueOp s t rowLzUnpack .match_ lzUnpackWork
def execMsearch (t : ThreadId) (s : State) : Host.Outcome State Fault Refusal := issueOp s t rowMsearch .motion msearchWork
def execWarp (t : ThreadId) (s : State) : Host.Outcome State Fault Refusal := issueOp s t rowWarp .vector warpWork
def execLoad (t : ThreadId) (s : State) : Host.Outcome State Fault Refusal := issueOp s t rowLoad .agen loadWork
def execStore (t : ThreadId) (s : State) : Host.Outcome State Fault Refusal := issueOp s t rowStore .agen storeWork

/-- A decision carried out by `k` where the operation may run. -/
def controlOp (s : State) (t : ThreadId) (r : OpRow) (f : OpFn) (k : Thread → CurList → Op → Work → State) :
    Host.Outcome State Fault Refusal :=
  if threadPresent s t then
    .next (match s.decideOp t r f with
      | .go th c o w => k th c o w
      | i => s.carryOut r .fabric i)
  else .fault .absentElement

/-- An add that an earlier attempt completed is taken as completed without issuing it (17 R396). -/
def State.skipAdd (s : State) (t : ThreadId) (r : OpRow) : Option State :=
  match s.dueOp t r with
  | some (th, _, .ok o) => if 0 < th.skip then some (s.pass { th with skip := th.skip - 1 } o.size) else none
  | _ => none

/-- ATOMIC_ADD (06 R135): counted for replay as it issues (17 R396, log 13). -/
def execAtomicAdd (t : ThreadId) (s : State) : Host.Outcome State Fault Refusal :=
  match s.skipAdd t rowAtomicAdd with
  | some u => .next u
  | none => controlOp s t rowAtomicAdd atomicAddWork fun th c o w =>
      (s.launch { th with adds := th.adds + 1 } c rowAtomicAdd .fabric o w).moveOn t

/-- PREFETCH at its own position (06 R136, R137): what was issued early is done, a fault held for it stops the thread here, and
otherwise it runs in place. -/
def execPrefetch (t : ThreadId) (s : State) : Host.Outcome State Fault Refusal :=
  if !threadPresent s t then .fault .absentElement
  else
    match s.dueOp t rowPrefetch with
    | some (th, c, .ok o) =>
      match th.early.find? fun e => e.1 == c.addr && e.2.1 == c.opIndex with
      | some (_, _, none) =>
        .next (s.pass { th with early := th.early.filter fun e => !(e.1 == c.addr && e.2.1 == c.opIndex) } o.size)
      | some (_, _, some x) => .next (s.stopWith th x)
      | none => issueOp s t rowPrefetch .agen prefetchWork
    | _ => issueOp s t rowPrefetch .agen prefetchWork

/-! ### Fences, barriers, signals, waits, checkpoints -/

/-- `k` once every write of the thread has been made (06 R130). -/
def State.fenced (s : State) (th : Thread) (k : State) : State := if th.out.isEmpty then k else s.block th .fence

/-- FENCE (06 R130). -/
def execFence (t : ThreadId) (s : State) : Host.Outcome State Fault Refusal :=
  controlOp s t rowFence fenceWork fun th _ o _ => s.fenced th (s.pass th o.size)

/-- Bytes of the operation a thread stands at, in units of 16. -/
def State.hereSize (s : State) (th : Thread) : Nat :=
  match th.cur with
  | some c => (s.codeByte th.id c.addr (c.here + 1)).toNat
  | none => 0

/-- A thread released from a barrier goes on; one that has stopped meanwhile does not. -/
def State.releaseArrived (s : State) (counter : Nat) (t : ThreadId) : State :=
  match s.thread t with
  | some th =>
    match th.waiting with
    | some (.barrier k, _) =>
      if th.state = .blocked ∧ k = counter then s.pass { th with state := .ready, readyAt := s.gts } (s.hereSize th) else s
    | _ => s
  | none => s

/-- A barrier counter of a die replaced by `f` of it. -/
def State.onBarrier (s : State) (die counter : Nat) (f : Barrier → Barrier) : State :=
  { s with barriers := s.barriers.map fun (b : Barrier) => if b.die = die ∧ b.counter = counter then f b else b }

/-- A thread's arrival at a barrier: the last one releases all, and the counter returns to 0 (06 R132). -/
def State.arrive (s : State) (th : Thread) (o : Op) : State :=
  let c := barrierCounter o
  let n := barrierCount o
  let before := match s.barrierAt th.id.die c with
    | some b => b.arrived
    | none => []
  let s1 := s.block th (.barrier c)
  if before.length + 1 = n then
    (before ++ [th.id]).foldl (fun u x => u.releaseArrived c x) (s1.onBarrier th.id.die c fun b => { b with participants := none, arrived := [] })
  else s1.onBarrier th.id.die c fun b => { b with participants := some n, arrived := before ++ [th.id] }

/-- BARRIER (06 R132): a cluster-scope fence, then the arrival. -/
def execBarrier (t : ThreadId) (s : State) : Host.Outcome State Fault Refusal :=
  controlOp s t rowBarrier barrierWork fun th _ o _ => s.fenced th (s.arrive th o)

/-- SIGNAL (06 R133): a fence of SCOPE, then the add. -/
def execSignal (t : ThreadId) (s : State) : Host.Outcome State Fault Refusal :=
  match s.skipAdd t rowSignal with
  | some u => .next u
  | none => controlOp s t rowSignal signalWork fun th c o w =>
      s.fenced th ((s.applyEff th c (w.run s)).pass { th with adds := th.adds + 1 } o.size)

/-- Whether a word has reached a target, a wrapped counter included (06 R134). -/
def reached (w target : Nat) : Bool := 0 ≤ signed 64 (unsigned 64 ((w : Int) - target))

/-- WAIT (06 R134). -/
def execWait (t : ThreadId) (s : State) : Host.Outcome State Fault Refusal :=
  controlOp s t rowWait waitWork fun th c o _ =>
    let a := wordAddr { s := s, th := th, cur := c, op := o }
    let target := bits o.own 64 64
    if reached (s.numAt a 8) target then s.pass th o.size
    else s.block th (.word a (BitVec.ofNat 64 target) (bits o.own 128 32))

/-- A thread that waits on a word, what it waits for and since when. -/
def State.waiter (s : State) (t : ThreadId) : Option (Thread × Nat × Nat × Nat × Nat) :=
  match s.thread t with
  | some th =>
    match th.state, th.waiting with
    | .blocked, some (.word a target us, since) => some (th, a, target.toNat, us, since)
    | _, _ => none
  | none => none

/-- A WAIT that is satisfied completes. -/
def State.waitDone (s : State) (th : Thread) : State := s.pass { th with state := .ready, readyAt := s.gts } (s.hereSize th)

/-- WAIT_SATISFIED (06 R134). -/
def execWaitSatisfied (t : ThreadId) (s : State) : Host.Outcome State Fault Refusal :=
  if !threadPresent s t then .fault .absentElement
  else
    match s.waiter t with
    | some (th, a, target, _, _) => .next (if reached (s.numAt a 8) target then s.waitDone th else s)
    | none => .next s

/-- WAIT_TIMEOUT (06 R134): at expiry the thread stops with TIMEOUT, unless the word has reached its target. -/
def execWaitTimeout (t : ThreadId) (s : State) : Host.Outcome State Fault Refusal :=
  if !threadPresent s t then .fault .absentElement
  else
    match s.waiter t with
    | some (th, a, target, us, since) =>
      .next (if reached (s.numAt a 8) target then s.waitDone th
        else if 0 < us ∧ since + us * 1000 ≤ s.gts then s.stopThread th .timeout
        else s)
    | none => .next s

/-- CHECKPOINT (17 R392, R396): the replay point is this operation; the adds completed since are counted from here. -/
def execCheckpoint (t : ThreadId) (s : State) : Host.Outcome State Fault Refusal :=
  controlOp s t rowCheckpoint checkpointWork fun th c o w =>
    let ranges := match checkpointRanges t o with
      | .ok l => l
      | .error _ => []
    let same := match th.ckpt with
      | some (a, i, _, _) => a == c.addr && i == c.opIndex
      | none => false
    let th1 := if same then th else { th with adds := 0, skip := 0 }
    (s.applyEff th c (w.run s)).pass { th1 with ckpt := some (c.addr, c.opIndex, c.offset, ranges) } o.size

/-! ### Lists and engines -/

/-- Lists of a thread: the one it runs and those queued. -/
def Thread.lists (t : Thread) : List Nat :=
  (match t.cur with | some c => [c.addr] | none => []) ++ t.queue

/-- The barrier counters of a thread's cluster that a list names. -/
def State.listCounters (s : State) (t : ThreadId) (a : Nat) : List Nat :=
  (s.listParsed t a).filterMap fun p =>
    if p.1.code = 0x41 ∧ barrierCounter p.2 / 16 = unitCluster t.unit then some (barrierCounter p.2) else none

/-- Firmware allocates the counters a list names to its stream or job, where no other holds them (06 R132; DESIGN CHOICE, log 86). -/
def State.allotCounters (s : State) (th : Thread) (a : Nat) : State :=
  (s.listCounters th.id a).foldl (fun u c =>
    if (u.barrierAt th.id.die c).isSome then u
    else { u with barriers := u.barriers ++ [{ die := th.id.die, counter := c, owner := th.binding }] }) s

/-- A list queued on a thread: it is fetched, its barrier counters are allocated, it prefetches when at most two stand before it, and
begins when none does (06 R117, R118, R136). -/
def State.queueList (s : State) (th : Thread) (a : Nat) : State :=
  let ahead := th.lists
  if 4 ≤ ahead.length ∨ th.state = .stopped then s
  else
    let s1 := ((s.pruneStores.fetch th.id a).allotCounters th a).setThread { th with queue := th.queue ++ [a] }
    (if ahead.length ≤ 2 then s1.prefetchList th.id ahead a else s1).moveOn th.id

/-- A list of a stream's tile marked as queued. -/
def State.markQueued (s : State) (n t tile addr : Nat) : State :=
  match s.stream n with
  | some x => s.setStream (x.onTile t tile fun w => { w with
      lists := w.lists.map fun (r : ListRef) => if r.addr = addr then { r with queued := true } else r })
  | none => s

/-- The first list of a stream's tiles on a thread that has not been queued: picture, tile and address. -/
def Stream.nextList (x : Stream) (t : ThreadId) : Option (Nat × Nat × Nat) :=
  (x.pics.flatMap fun p => p.tiles.flatMap fun w =>
    if w.home = some t then (w.lists.filter (! ·.queued)).map fun r => (p.picture, w.tile, r.addr) else []).head?

/-- A list that firmware queues on a context. On a stream's it is the next of its tiles' lists, which no others' run among (09 R192); on
a job's, any list. -/
def State.queueOn (s : State) (th : Thread) (addr : Nat) : State :=
  if th.isJob then s.queueList th addr
  else
    match (s.stream th.binding).bind (·.nextList th.id) with
    | some (t, tile, a) => if a = addr ∧ th.lists.length < 4 ∧ th.state ≠ .stopped then (s.markQueued th.binding t tile a).queueList th addr else s
    | none => s

/-- LIST_QUEUED (06 R116, R118). -/
def execListQueued (t : ThreadId) (addr : Nat) (s : State) : Host.Outcome State Fault Refusal :=
  if !threadPresent s t then .fault .absentElement
  else
    match s.thread t with
    | some th => .next (if s.phase = .running ∧ s.unitTakes t.die t.unit then s.queueOn th addr else s)
    | none => .next s

/-- Whether a die has an engine at a place: a unit or a region. -/
def placePresent (e : Engine) (place : Nat) : Bool := if engineRegional e then place < 8 else place < 256

/-- The chunk an engine took longest ago: its thread, and the GTS at which it was taken. -/
def State.oldestChunk (s : State) (die : Nat) (e : Engine) (place : Nat) : Option (ThreadId × Nat) :=
  (sortBy (fun (a b : ThreadId × Nat) => decide (a.2 < b.2) || (a.2 == b.2 && decide (ctxOrder a.1 ≤ ctxOrder b.1)))
    (s.runningOn die e place)).head?

/-- The region of an engine. -/
def placeRegion (e : Engine) (place : Nat) : Nat := if engineRegional e then place else unitRegion place

/-- Whether a running chunk is its operation's last: on a lane R467 says so, elsewhere the engine's timing (log 22). -/
def Outst.lastChunk (o : Outst) (last : Bool) : Bool := if o.engine = .lane then o.saves.isEmpty else last

/-- A thread whose running chunk on an engine completes: a lane saves its states and positions there (07 R148); an evicted job gives up
its resident context (07 R168). -/
def Thread.chunkDone (t : Thread) (e : Engine) (last evicted : Bool) (now : Nat) : Thread :=
  let o := (t.nextOn e).getD { engine := e, opIndex := 0, opcode := 0, reads := [], writes := [] }
  { (t.onFirst e fun o => { o with
      chunks := o.chunks + 1, taken := none, done := o.lastChunk last, saves := o.saves.drop 1
      resident := if evicted then none else o.resident }) with
    lastDone := now, saved := if e = .lane then o.saves.headD {} else t.saved }

/-- CHUNK_COMPLETE (06 R119): the engine finishes a chunk and takes the next by class and rotation. -/
def execChunkComplete (die : Nat) (e : Engine) (place : Nat) (last : Bool) (s : State) : Host.Outcome State Fault Refusal :=
  if s.dieCount ≤ die || !placePresent e place then .fault .absentElement
  else
    match s.oldestChunk die e place with
    | none => .next s
    | some (t, _) =>
      match s.thread t with
      | none => .next s
      | some th =>
        let waits := match th.nextOn e with
          | some o => !o.ran || s.tagsOpen t o.descr
          | none => true
        if s.phase ≠ .running || waits then .next s
        else
          let s1 := s.setThread (th.chunkDone e last (e == .match_ && s.evicted die place == some t) s.gts)
          let s2 := s1.onDie die fun d => { d with
            regions := modifyAt d.regions (placeRegion e place) fun (r : Region) => { r with lastChunk := s.gts } }
          .next (s2.engineServes t e (some t))

/-- Whether what a BLOCKED thread waits for among its own operations has come (06 R116, R118). -/
def State.unblocked (s : State) (th : Thread) : Bool :=
  match th.waiting, th.cur with
  | some (.fence, _), _ => th.out.isEmpty
  | some (.engineFull, _), some c =>
    match rowOf (s.opCode th.id c) with
    | some r => !engineFull th r
    | none => true
  | some (.hazard, _), some c =>
    match rowOf (s.opCode th.id c), opWork (s.opCode th.id c) with
    | some r, some f =>
      match parseOp th.id r (s.opBytes th.id c) with
      | .ok o =>
        match s.judge th c r.code o f with
        | .ok w => !hazard th w.reads w.writes
        | .error _ => true
      | .error _ => true
    | _, _ => true
  | _, _ => false

/-- OPERATION_COMPLETE (06 R118): the oldest operation on an engine completes; what waited for it goes on. -/
def execOperationComplete (t : ThreadId) (e : Engine) (s : State) : Host.Outcome State Fault Refusal :=
  if !threadPresent s t then .fault .absentElement
  else
    match s.thread t with
    | none => .next s
    | some th =>
      match th.out.find? (·.engine == e) with
      | none => .next s
      | some o =>
        if s.phase ≠ .running || !o.done || s.tagsOpen t o.descr then .next s
        else
          let th1 := { th with out := th.out.eraseIdx (th.out.findIdx (·.engine == e)) }
          let th2 := if th1.state = .blocked ∧ s.unblocked th1 then { th1 with state := .ready, readyAt := s.gts, waiting := none } else th1
          .next (((s.setThread th2).offerLate t th.late.length).moveOn t)

/-- Regions of a die in service. -/
def Die.regionsInService (d : Die) : Nat := (d.regions.filter fun (r : Region) => r.hul == 0 && !r.quiesced).length

/-- A pool whose stall is recorded; none while no stall is due (06 R143). -/
def Pool.stall (p : Pool) (now : Nat) : Option Pool :=
  if p.waiting.isEmpty ∨ p.stalled ∨ now < p.releasedAt + 10000000 then none
  else some { p with stalled := true, releasedAt := now }

/-- POOL_STALL (06 R143; 16 R372, R377): one diagnostic record. -/
def execPoolStall (die pool : Nat) (s : State) : Host.Outcome State Fault Refusal :=
  if s.dieCount ≤ die ∨ 2 ≤ pool then .fault .absentElement
  else if s.phase ≠ .running then .next s
  else
    let d := s.die die
    let p := if pool = 0 then d.poolLp else d.poolDs
    match p.stall s.gts with
    | none => .next s
    | some q =>
      let s1 := s.onDie die fun x => (if pool = 0 then { x with poolLp := q } else { x with poolDs := q }).stick .poolStall
      .next (s1.event die (0x0240 + pool) 0x0401
        (pool * 2 ^ 24 + d.regionsInService * 2 ^ 16 + min p.waiting.length 0xFFFF))

/-! ### Partner packets (14 R327, R330) -/

/-- RD_RESP (14 R327): read data return to the requesting thread. -/
def execRdResp (p : PartnerPacket) (s : State) : Host.Outcome State Fault Refusal :=
  onPacket s p fun t =>
    match (t.die p.port).plk.openTag p.tag with
    | some g =>
      if g.isWrite || p.data.length ≠ g.length then t
      else (t.answerTag p.port p.tag p.data).finishLate g.thread g.descr
    | none => t

/-- WR_ACK (14 R327): a write is applied. -/
def execWrAck (p : PartnerPacket) (s : State) : Host.Outcome State Fault Refusal :=
  onPacket s p fun t =>
    match (t.die p.port).plk.openTag p.tag with
    | some g =>
      if !g.isWrite then t
      else
        let u := t.answerTag p.port p.tag []
        if u.tagsOpen g.thread g.descr then u else u.dropTags g.thread g.descr
    | none => t

/-- The access behind a tag faults its thread with a status. -/
def State.tagFault (s : State) (g : LinkTag) (st : Status) : State :=
  let s1 := s.dropTags g.thread g.descr
  match s1.thread g.thread with
  | none => s1
  | some th =>
    match th.out.find? (·.descr == g.descr) with
    | some o => s1.lateFault th o { status := st }
    | none => s1

/-- ERR (14 R327; 06 R125): the requesting thread faults with the STATUS. -/
def execErr (p : PartnerPacket) (s : State) : Host.Outcome State Fault Refusal :=
  onPacket s p fun t =>
    match (t.die p.port).plk.openTag p.tag with
    | some g => t.tagFault g p.status
    | none => t

/-- PARTNER_ACCESS_TIMEOUT (14 R330): an access to a partner whose port is down gets TIMEOUT after 10 ms. -/
def execPartnerAccessTimeout (port tag : Nat) (s : State) : Host.Outcome State Fault Refusal :=
  if s.dieCount ≤ port then .fault .absentElement
  else
    let l := (s.die port).plk
    match l.openTag tag with
    | some g => .next (if s.phase = .running ∧ l.up = false ∧ g.issuedAt + 10000000 ≤ s.gts then s.tagFault g .timeout else s)
    | none => .next s

end Sys2Proof.Machine
end

