-- ==== Sys2Proof/Machine/Placing.lean ====
section
/-! DEFINITION. What firmware does with the lists of a tile: it instantiates the profile's templates, fills what only it knows (the QI
tensor, the gain map, the constant planes of the hyper step, the reference features, the search pyramids, the payload and bypass ranges)
and queues them (08 R180 to R191; 09 R195; 10 R223, R226, R228, R231, R233, R235 to R237; 11 R249, R253, R261; 12 R276, R278). Where the
spec names no field for a value, the choice is log 24. -/

namespace Sys2Proof.Machine

/-! ### Instantiating a template (09 R195) -/

/-- The address bound to a kind-0 buffer identifier, for its planes of a size (log 24). -/
def boundAt (buffers : List (Nat × Nat)) (id plane : Nat) : Nat := (((buffers.filter (·.1 == id))[plane]?).map (·.2)).getD 0

/-- What firmware writes into a field relocated to a buffer identifier, for picture `t` on a die. -/
def Stream.fieldValue (x : Stream) (img : List Byte) (t die : Nat) (buffers : List (Nat × Nat)) (id plane : Nat) : Nat :=
  let i := id % 65536
  let base := fun (w : Nat) => x.slot * 2 ^ 56 + w
  match id / 65536 with
  | 0 => boundAt buffers i plane
  | 1 => base i
  | _ =>
    let w := (((imageAdapt img)[i]?).map (·.1)).getD 0
    if x.params.adapt = 1 then
      match x.copies.find? fun c => c.weight == w && c.parity == t % 2 && c.die == die with
      | some c => c.addr
      | none => base w
    else base w

/-- A template of an image. -/
def templateAt (img : List Byte) (net list : Nat) : Option Template :=
  ((imageNetworks img).find? (·.net == net)).bind fun n => n.lists[list]?

/-- The role of a network. -/
def roleOf (img : List Byte) (net : Nat) : Nat := (((imageNetworks img).find? (·.net == net)).map (·.role)).getD 255

/-- A template's bytes for a tile of picture `t`: every address filled, STREAM, TILE and PICTURE set (06 R117). -/
def Stream.instance_ (x : Stream) (img : List Byte) (t die tile : Nat) (buffers : List (Nat × Nat)) (m : Template) : List Byte :=
  let b := m.filled img (x.fieldValue img t die buffers)
  b.take 8 ++ leBytes 4 x.number ++ leBytes 4 tile ++ leBytes 3 t ++ b.drop 19

/-- A list of a tile as firmware has bound it: its template, its operations and its network's role. -/
structure Bound where
  ref : ListRef
  tmpl : Template
  role : Nat
  bytes : List Byte
  ops : List TOp

/-- The lists of a tile, bound. -/
def Stream.bound (x : Stream) (img : List Byte) (t tile : Nat) (th : ThreadId) (refs : List ListRef) : List Bound :=
  refs.filterMap fun r => (templateAt img r.net r.list).map fun m =>
    let b := x.instance_ img t th.die tile r.buffers m
    { ref := r, tmpl := m, role := roleOf img r.net, bytes := b, ops := opsOf th b }

/-- The tensors of a list that stand for a buffer identifier. -/
def Bound.named (l : Bound) (id : Nat) : List Tensor :=
  l.ops.flatMap fun o => o.tensorsAt.filterMap fun e => if l.tmpl.idAt e.2.1 = some id then some e.2.2 else none

/-- The reconstructed planes that a tile's SYNTHESIS lists write: the tensors written at buffer 0x0003 (09 R195). -/
def synthesised (ls : List Bound) : List Tensor :=
  (ls.filter (·.role == 4)).flatMap fun l => l.ops.flatMap fun o => o.tensorsAt.filterMap fun e =>
    if e.1 = .written ∧ l.tmpl.idAt e.2.1 = some 3 then some e.2.2 else none

/-- The output of a network on a tile: what its last list writes last. -/
def outputOf (ls : List Bound) (net : Nat) : Option Tensor :=
  ((ls.filter (·.ref.net == net)).getLast?).bind fun l => (lastWritten l.ops).map (·.2)

/-! ### What a picture may refer to (10 R233) -/

/-- The clean width of a picture. -/
def StreamParams.cleanWidth (p : StreamParams) (stride r : Nat) : Nat :=
  if r = 0 ∨ refreshComplete r p.refreshN then p.extW 0 stride else endColumn r p.refreshN (p.cols 0 stride) * p.tileSize

/-- The horizontal limit for a block of picture `t`, in a refreshed column or not, that refers to picture `r`; the grey picture is whole. -/
def StreamParams.limit (p : StreamParams) (stride t : Nat) (refreshed : Bool) (r : Option Nat) : Nat :=
  match r with
  | none => p.extW 0 stride
  | some k =>
    if refreshed || (periodBefore t p.refreshN ≤ k && k < periodStart t p.refreshN) then p.cleanWidth stride k else p.extW 0 stride

/-- Whether a tile's column is refreshed in a picture. -/
def StreamParams.refreshedTile (p : StreamParams) (stride t tile : Nat) : Bool :=
  decide (tile % max 1 (p.cols 0 stride) < endColumn t p.refreshN (p.cols 0 stride))

/-- The slots the encoder searches for a tile: those of REF_SEARCH that 10 R233 allows. -/
def Stream.searchMask (x : Stream) (stride t tile : Nat) : Nat :=
  let p := x.params
  if intraColumn t p.refreshN (p.cols 0 stride) (tile % max 1 (p.cols 0 stride)) then 0
  else ((List.range 8).map fun i =>
    if bit p.refSearch i && refAllowed t p.refreshN (p.refreshedTile stride t tile) false ((x.refs.getD i {}).picture) then 2 ^ i
    else 0).sum

/-! ### Fields of the operations -/

/-- The picture a tile belongs to, as far as its lists depend on it. -/
structure Setting where
  t : Nat
  tile : Nat
  stride : Nat
  qi : Nat
  roi : List RoiRect
  /-- reference features by buffer: identifier, slot, network -/
  refs : List (Nat × Nat × Nat)
  /-- decoder: the tile's unit and motion field -/
  work : TileWork
  encode : Bool

/-- Bytes that firmware writes into an ENC or DEC, of step `k`: its slot, its payload's length and its bypass field's (07 R156, R159; 12 R278). -/
def codingEdits (x : Stream) (z : Setting) (k : Nat) (total : Nat) (o : TOp) : List (Nat × List Byte) :=
  let n := (stepElems o.latents (bits o.op.own 32 16) (bits o.op.own 48 16) (bits o.op.own 16 8)).length
  let pay := if o.row.code = 0x28 then 64 + 2 * n else ((tileSegments z.work.unit).getD k []).length
  let byp := if o.row.code = 0x28 then 6 * total else (tileBypass z.work.unit).length
  (o.rangesAt.map fun e => (e.1 + 8, leBytes 4 pay)) ++
    [(o.ownAt, [byte x.slot]), (o.ownAt + 16, leBytes 4 byp), (o.ownAt + 24, leBytes 4 0)]

/-- Bytes that firmware writes into an MSEARCH (10 R228, R229, R233, R237). -/
def searchEdits (x : Stream) (z : Setting) (o : TOp) : List (Nat × List Byte) :=
  let (x0, y0, _, _) := x.params.tileBox 0 z.stride z.tile
  let fresh := x.params.refreshedTile z.stride z.t z.tile
  [(o.ownAt, leBytes 2 x0 ++ leBytes 2 y0 ++ leBytes 4 (motionWeight x.rate.lmv0 z.qi) ++
    [byte (x.searchMask z.stride z.t z.tile), 0, 0, 0] ++
    (List.range 8).flatMap fun i => leBytes 2 (x.params.limit z.stride z.t fresh (x.refs.getD i {}).picture))]

/-- Bytes that firmware writes into a WARP: the tile's place and the limit of the picture whose features it reads (10 R231, R233). -/
def warpEdits (x : Stream) (z : Setting) (m : Template) (o : TOp) : List (Nat × List Byte) :=
  let (x0, y0, _, _) := x.params.tileBox 0 z.stride z.tile
  let st := max 1 (bits o.op.own 0 8)
  let slot := (((m.idAt (o.off + 32)).bind fun id => z.refs.find? (·.1 == id)).map (·.2.1)).getD 0
  let cw := x.params.limit z.stride z.t (x.params.refreshedTile z.stride z.t z.tile) (x.refs.getD slot {}).picture
  [(o.ownAt + 2, leBytes 2 cw ++ leBytes 2 (x0 / st) ++ leBytes 2 (y0 / st))]

/-- Symbols of a list's coding operations. -/
def listSymbols (ops : List TOp) : Nat := ((ops.filter codes).map fun o => o.symbols 1 1).sum

/-- Every byte that firmware sets in a list beside its addresses, by offset. -/
def listEdits (x : Stream) (z : Setting) (l : Bound) : List (Nat × List Byte) :=
  (((l.ops.filter codes).zipIdx).flatMap fun e => codingEdits x z e.2 (listSymbols l.ops) e.1) ++
    l.ops.flatMap fun o =>
      if o.row.code = 0x30 then searchEdits x z o else if o.row.code = 0x31 then warpEdits x z l.tmpl o else []

/-- A list laid at its address. -/
def State.layList (s : State) (x : Stream) (z : Setting) (l : Bound) : State :=
  s.putRuns ((l.ref.addr, l.bytes) :: (listEdits x z l).map fun e => (l.ref.addr + e.1, e.2))

/-! ### What firmware writes for the lists to read -/

/-- Runs of bytes written where this part has memory. -/
def State.putNear (s : State) (l : List (Nat × List Byte)) : State :=
  s.putRuns (l.filter fun r => s.accessOk ⟨r.1, r.2.length⟩ && (s.partnerOf ⟨r.1, 1⟩).isNone)


/-- Integer values written into a tensor; a scaled one gets scale 1 and zero point 0 (10 R223). -/
def State.writeTensor (s : State) (d : Tensor) (f : Nat → Nat → Nat → Int) : State :=
  let code := fun (c y x : Nat) => some (convertEV d.fmt 0 true false 0 (EV.ofInt (f c y x))).code
  let s1 := s.putNear (tensorRuns s d code fun _ _ => some (d.fmt.zeroCode 0))
  if d.scaled then
    s1.putNear [(d.scale, ((List.range d.blocks).flatMap fun b => packetBytes 0x3F800000 0 0 (b % 65536)) ++ endMarker)]
  else s1

/-- Codes written into a tensor. -/
def State.writeCodes (s : State) (d : Tensor) (f : Nat → Nat → Nat → Nat) : State :=
  s.putNear (tensorRuns s d (fun c y x => some (f c y x)) fun _ _ => some (d.fmt.zeroCode 0))

/-- A tile's input planes, in the buffers named for them (10 R223, R224; 11 R249, R253). -/
def State.layInputs (s : State) (x : Stream) (z : Setting) (raw : List Byte) (l : Bound) (inputs : List Nat) : State :=
  let (x0, y0, _, _) := x.params.tileBox x.media z.stride z.tile
  let f := fun (i y v : Nat) =>
    let (oy, ox) := x.params.planeDims x.media i y0 x0
    x.params.centred x.media raw i (oy + y) (ox + v)
  (inputs.foldl (fun (b : State × Nat) id =>
    match (l.named id).head? with
    | some d => (b.1.writeTensor d fun c => f (b.2 + c), b.2 + d.c)
    | none => b) (s, 0)).1

/-- The gain map's element of a latent position of a tile: log field 32 × DQ (10 R235; 12 R276). -/
def gainCode (l : List RoiRect) (by_ bx : Nat) : Nat := unsigned 15 (32 * gainAt l by_ bx)

/-- The QI tensor and the gain map, wherever a list names them (10 R235, R236). -/
def State.layShared (s : State) (x : Stream) (z : Setting) (l : Bound) : State :=
  let (x0, y0, _, _) := x.params.tileBox x.media z.stride z.tile
  let s1 := (l.named 1).foldl (fun u d => u.writeTensor d fun _ _ _ => z.qi) s
  (l.named 2).foldl (fun u d => u.writeCodes d fun _ y v => gainCode z.roi (y0 / 16 + y) (x0 / 16 + v)) s1

/-- The mean and the scale plane of an ENC or DEC. -/
def TOp.meanScale (o : TOp) : Tensor × Tensor := if o.row.code = 0x28 then (o.op.t 1, o.op.t 2) else (o.op.t 0, o.op.t 1)

/-- The constant planes of the hyper step: mean 0, and HYPER_SCALE over each channel (08 R181). -/
def State.layHyper (s : State) (img : List Byte) (l : Bound) : State :=
  let geo := imageLoop img
  match (l.ops.filter codes).head? with
  | some o =>
    if geo.hyper = 0 then s
    else (s.writeTensor o.meanScale.1 fun _ _ _ => 0).writeCodes o.meanScale.2 fun c _ _ => geo.hyperScale.getD c 0
  | none => s

/-- Real zero over the latents of a tile's ENC operations before its lists run (08 R182; DEDUCED, log 17). -/
def State.layLatents (s : State) (l : Bound) : State :=
  ((l.ops.filter fun o => o.row.code == 0x28).map (·.op.t 0)).foldl (fun u d => u.putNear (zeroRuns u d)) s

/-- A centred sample of a reference's luma plane; the grey picture's are 0 (10 R226). -/
def RefSlot.luma (r : RefSlot) (p : StreamParams) (w y x : Nat) : Int :=
  match r.planes with
  | [] => 0
  | l :: _ => l.getD (y * w + x) 0 - 2 ^ (p.bitDepth - 1)

/-- Level `l` of a pyramid over samples (10 R228): each level averages 2 × 2 of the one below. -/
def pyramid (at_ : Nat → Nat → Int) : Nat → Nat → Nat → Int
  | 0, y, x => at_ y x
  | l + 1, y, x =>
    rneDiv (pyramid at_ l (2 * y) (2 * x) + pyramid at_ l (2 * y) (2 * x + 1) + pyramid at_ l (2 * y + 1) (2 * x) +
      pyramid at_ l (2 * y + 1) (2 * x + 1)) 4

/-- The three levels of pyramids in a tensor's channels, three for each. -/
def State.layPyramids (s : State) (d : Tensor) (at_ : Nat → Nat → Nat → Int) : State :=
  s.writeTensor d fun c y x =>
    let l := c % 3
    if y < d.h / 2 ^ l ∧ x < d.w / 2 ^ l then pyramid (at_ (c / 3)) l y x else 0

/-- The pyramids of an MSEARCH: the tile's own samples, and those of the slots searched (10 R228; log 18). -/
def State.laySearch (s : State) (x : Stream) (z : Setting) (raw : List Byte) (l : Bound) : State :=
  let (x0, y0, _, _) := x.params.tileBox 0 z.stride z.tile
  let slots := maskSlots (x.searchMask z.stride z.t z.tile)
  (l.ops.filter fun o => o.row.code == 0x30).foldl (fun u o =>
    (u.layPyramids (o.op.t 0) fun _ y v => x.params.centred 0 raw 0 (y0 + y) (x0 + v)).layPyramids (o.op.t 1) fun i y v =>
      (x.refs.getD (slots.getD i 0) {}).luma x.params (x.params.extW 0 z.stride) y v) s

/-- A code of a picture's features: of the tile that holds the position; the grey picture's are not fixed by any rule (log 24). -/
def RefSlot.feature (r : RefSlot) (x : Stream) (stride net : Nat) (d : Tensor) (c y v : Nat) : Nat :=
  let p := x.params
  let st := max 1 (p.extW x.media stride / max 1 d.w)
  let ty := y * st / max 1 p.tileSize
  let tx := v * st / max 1 p.tileSize
  match r.features.find? fun f => f.net == net && f.tile == ty * p.cols x.media stride + tx with
  | some f => f.codes.getD ((c * f.h + (y - ty * p.tileSize / st)) * f.w + (v - tx * p.tileSize / st)) 0
  | none => (Config.greyFeature x.digest net c y v).toNat % 2 ^ d.fmt.width

/-- The scale packets of a slot's features: its lowest tile's. -/
def RefSlot.packets (r : RefSlot) (net blocks : Nat) : List Byte :=
  match r.features.find? (·.net == net) with
  | some f => f.packets
  | none => ((List.range blocks).flatMap fun b => packetBytes 0x3F800000 0 0 (b % 65536)) ++ endMarker

/-- Reference features in the buffers that name them (10 R226). -/
def State.layFeatures (s : State) (x : Stream) (z : Setting) (l : Bound) : State :=
  z.refs.foldl (fun u r => (l.named r.1).foldl (fun v d =>
    let slot := x.refs.getD r.2.1 {}
    let w := v.writeCodes d (slot.feature x z.stride r.2.2 d)
    if d.scaled then w.putNear [(d.scale, slot.packets r.2.2 d.blocks)] else w) u) s

/-- The bitstream of a decoded tile where its list reads it: each DEC's segment, the bypass field, and each WARP's motion field
(12 R278, R279). -/
def State.layUnits (s : State) (z : Setting) (l : Bound) : State :=
  let segs := ((l.ops.filter codes).zipIdx).flatMap fun e =>
    (e.1.op.ranges.map fun r => (r.base, (tileSegments z.work.unit).getD e.2 [])) ++
      (match ownRange ⟨0, 0, 0⟩ e.1.op.own 64 with
       | .ok r => [(r.base, tileBypass z.work.unit)]
       | .error _ => [])
  let warps := (l.ops.filter fun o => o.row.code == 0x31).map fun o => ((o.op.r 0).base, z.work.motion)
  s.putNear (segs ++ warps)

/-- One list laid with all that it reads. -/
def State.layBound (s : State) (x : Stream) (img : List Byte) (z : Setting) (raw : List Byte) (inputs : List Nat) (l : Bound) : State :=
  let s1 := (((s.layList x z l).layShared x z l).layHyper img l).layFeatures x z l
  if z.encode then ((s1.layLatents l).laySearch x z raw l).layInputs x z raw l inputs else s1.layUnits z l

/-! ### Contexts and output planes -/

/-- LATENT_STRIDE of a stream's profile. -/
def State.strideOf (s : State) (x : Stream) : Nat := (s.kindOf x).geo.stride

/-- Whether the owner of a context is gone, so that firmware may bind the context anew. -/
def State.ownerGone (s : State) (th : Thread) : Bool :=
  th.out.all (·.done) &&
    if th.isJob then (match s.job th.binding with | some j => 2 ≤ j.state | none => true)
    else (match s.stream th.binding with | some x => x.state == .stopped | none => true)

/-- Whether a context may be bound to an owner: FREE, already its own, or left by an owner that is gone (06 R116). -/
def State.mayBind (s : State) (t : ThreadId) (owner : Nat) : Bool :=
  threadPresent s t && s.unitTakes t.die t.unit &&
    match s.thread t with
    | none => true
    | some th => (th.binding == owner && th.state != .stopped) || s.ownerGone th

/-- A context bound to a stream or job. -/
def State.bind (s : State) (t : ThreadId) (owner : Nat) (isJob : Bool) (cls : Nat) : State :=
  match s.thread t with
  | some th => if th.binding = owner then s else
      { s with threads := s.threads.filter (·.id != t) ++ [{
          id := t, binding := owner, isJob := isJob, cls := cls, lastDone := s.gts }] }
  | none => { s with threads := s.threads ++ [{ id := t, binding := owner, isJob := isJob, cls := cls, lastDone := s.gts }] }

/-- The channels of tensors, in order. -/
def channelsOf (ts : List Tensor) : List (Tensor × Nat) := ts.flatMap fun t => (List.range t.c).map fun c => (t, c)

/-- Planes that the networks write for a picture: the return index plane bypasses them (11 R255). -/
def StreamParams.learned (p : StreamParams) (media : Nat) : Nat := if media = 2 then 2 else p.planes media

/-- Whether channels have the shape of a tile's planes. -/
def StreamParams.shapesOk (p : StreamParams) (media stride k : Nat) (cs : List (Tensor × Nat)) : Bool :=
  let (_, _, w, h) := p.tileBox media stride k
  cs.length == p.learned media && cs.zipIdx.all fun (c : (Tensor × Nat) × Nat) =>
    (c.1.1.h, c.1.1.w) == p.planeDims media c.2 h w

/-! ### Whether placements can stand (06 R116, R118; 08 R181, R186; 10 R225; 11 R249, R253, R261) -/

/-- The lists a stream runs. -/
def Stream.running (x : Stream) (img : List Byte) : List (Nat × Nat × Template) :=
  runningLists img (if x.dir = .encode then 0 else 1) x.latent (if x.latent then x.params.heads else 0)

/-- The stages of a stream, each a working buffer with its granules (06 R140; log 24). -/
def Stream.stages (x : Stream) (img : List Byte) : List (Nat × Nat) :=
  (stageBuffers img ((x.running img).map (·.2.2))).map fun b => (b.1, granules b.2)

/-- What firmware instantiates of a placement. -/
def placedRef (q : Placement) : ListRef := { addr := q.addr, net := q.net, list := q.list, buffers := q.buffers }

/-- Channel, channel count, PARITY and table set of a coding operation. -/
def TOp.step (o : TOp) : Nat × Nat × Nat × Nat := (bits o.op.own 32 16, bits o.op.own 48 16, bits o.op.own 16 8, bits o.op.own 8 8)

/-- Whether firmware can lay a list: the stream runs its template, every buffer it names is bound, its descriptors parse, and its bytes
lie where the part may write. -/
def Stream.listOk (x : Stream) (s : State) (img : List Byte) (t : Nat) (q : Placement) : Bool :=
  (x.running img).any (fun l => l.1 == q.net && l.2.1 == q.list) &&
    match (x.bound img t q.tile q.thread [placedRef q]).head? with
    | none => false
    | some l =>
      let at_ := fun (n : Nat) => (⟨q.addr, n⟩ : Span)
      l.tmpl.relocs.all (fun r => 65536 ≤ r.2 || boundAt q.buffers r.2 (l.tmpl.planeAt (slice img l.tmpl.off l.tmpl.len) r) != 0) && l.ops.length == leAt l.bytes 2 2 && q.addr % 64 == 0 &&
        s.accessOk (at_ l.bytes.length) && (s.partnerOf (at_ 1)).isNone && !s.fencedAt (some q.thread) (locate s.dieCount q.addr) &&
        !s.shutAt q.thread (locate s.dieCount q.addr)

/-- Whether a tensor can hold a tile's input planes from plane `i` on: INT8 at depth 8 and FP16 above, FP32 for audio and range, planar,
of the planes' shape (10 R223; 11 R249, R250, R253). -/
def StreamParams.inputOk (p : StreamParams) (media stride tile i : Nat) (d : Tensor) : Bool :=
  let (_, _, w, h) := p.tileBox media stride tile
  let fmt : Fmt := if media ≠ 0 then .fp32 else if p.bitDepth = 8 then .int8 else .fp16
  d.fmt == fmt && d.layout == 0 && d.scaled == (fmt == .int8) && (List.range d.c).all fun k => (d.h, d.w) == p.planeDims media (i + k) h w

/-- Whether the buffers that a placement gives for a tile's planes hold all of them in order, where the part may write. -/
def State.inputsOk (s : State) (p : StreamParams) (media stride : Nat) (q : Placement) (l : Bound) : Bool :=
  let ds := q.inputs.filterMap fun id => (l.named id).head?
  let starts := (List.range ds.length).map fun i => ((ds.take i).map Tensor.c).sum
  ds.length == q.inputs.length && (ds.map Tensor.c).sum == p.planes media &&
    (ds.zip starts).all (fun e => p.inputOk media stride q.tile e.2 e.1) &&
    (ds.flatMap fun d => d.spans ++ d.scaleSpans).all fun sp => s.accessOk sp && (s.firstFenced (some q.thread) [sp]).isNone

/-- Whether the lists of a tile come in an order that can stand: one that codes begins with the tile's CHECKPOINT, and no other holds one;
the coding operations are the steps of the tile; analysis stands before them, synthesis and task heads after them, heads and the lists
of a network ascending (08 R181, R183, R184, R191; 11 R261). -/
def orderOk (geo : LoopGeo) (grid : Nat) (ls : List Bound) : Bool :=
  let coding := fun (l : Bound) => l.ops.any codes
  let marks := fun (l : Bound) => (l.ops.filter fun o => o.row.code == 0x44).map (·.index)
  let steps := (ls.flatMap fun l => l.ops.filter codes)
  let before := ls.takeWhile (! coding ·)
  let rest := (ls.drop before.length).dropWhile coding
  let rising := fun (k : List (Nat × Nat)) => (k.zip (k.drop 1)).all fun p => p.1.1 < p.2.1 || (p.1.1 == p.2.1 && p.1.2 < p.2.2)
  steps.map TOp.step == geo.steps && (ls.countP coding == 1) && !(rest.any coding) &&
    ls.all (fun l => marks l == if coding l then [0] else []) &&
    ((if geo.hyper = 0 then steps else steps.drop 1).all fun o => o.latents.h * o.latents.w == grid) &&
    !(before.any fun l => l.role == 4 || l.role == 6) && !(rest.any fun l => l.role ≤ 1) &&
    rising ((ls.filter (·.role == 6)).map fun l => (l.ref.net, l.ref.list)) &&
    (dedup (ls.map (·.ref.net))).all fun n => rising ((ls.filter (·.ref.net == n)).map fun l => (n, l.ref.list))

/-- Latent positions of a tile. -/
def StreamParams.grid (p : StreamParams) (media stride tile : Nat) : Nat :=
  let (_, _, w, h) := p.tileBox media stride tile
  ceilDiv w (max 1 stride) * (if media = 1 then 1 else ceilDiv h (max 1 stride))

/-- Whether a stream has every list that a tile's output comes from: the reconstructed planes, or the heads it names. -/
def Stream.outputsOk (x : Stream) (p : StreamParams) (stride tile : Nat) (ls : List Bound) : Bool :=
  if x.latent then (headNets p.heads).all fun h => (outputOf ls h).isSome
  else p.shapesOk x.media stride tile (channelsOf (synthesised ls))

/-- Whether one tile's placements can stand: all on one thread, its lists at places of their own. -/
def State.tileOk (s : State) (x : Stream) (img : List Byte) (p : StreamParams) (t tile : Nat) (qs : List Placement) : Bool :=
  let stride := s.strideOf x
  match qs with
  | [] => false
  | q :: _ =>
    let ls := x.bound img t tile q.thread (qs.map placedRef)
    qs.all (fun r => r.thread == q.thread) && qs.all (x.listOk s img t) && orderOk (imageLoop img) (p.grid x.media stride tile) ls &&
      x.outputsOk p stride tile ls &&
      (x.dir != .encode || qs.any fun r => (ls.find? (·.ref.addr == r.addr)).any (s.inputsOk p x.media stride r))

/-- The bytes of placed lists. -/
def placedSpans (img : List Byte) (qs : List Placement) : List Span :=
  qs.map fun q => ⟨q.addr, ((templateAt img q.net q.list).map Template.len).getD 0⟩

/-- Spans none of which meets another. -/
def apart : List Span → Bool
  | [] => true
  | a :: l => !(l.any a.overlaps) && apart l

/-- Whether placements of a picture's tiles can stand: tiles of the picture that have none yet, contexts the stream may have, in its
regions when its class is 0, and places where no thread runs a list. -/
def State.placesOk (s : State) (x : Stream) (p : StreamParams) (t : Nat) (free : Nat → Bool) (places : List Placement) : Bool :=
  let img := (s.slotImage x.slot).getD []
  let busy := s.threads.flatMap Thread.lists
  places != [] && apart (placedSpans img places) && places.all (fun q => !busy.contains q.addr && free q.tile && s.mayBind q.thread x.number &&
      (x.cls != 0 || x.regions.contains (q.thread.die, unitRegion q.thread.unit))) &&
    (dedup (places.map (·.tile))).all fun k => s.tileOk x img p t k (places.filter (·.tile == k))

/-! ### Placing them -/

/-- The requests of a tile for the buffers of its stages (06 R140, R141): one for each, in its die's deep SRAM. -/
def State.askBuffers (s : State) (x : Stream) (stages : List (Nat × Nat)) (t tile : Nat) (th : ThreadId) : State :=
  s.onDie th.die fun d => { d with poolDs := { d.poolDs with
    releasedAt := if d.poolDs.waiting.isEmpty then s.gts else d.poolDs.releasedAt
    waiting := d.poolDs.waiting ++ stages.map fun g =>
      { owner := x.number, cls := x.cls, picture := t, tile := tile, stage := g.1, granules := g.2 } } }

/-- The lists of a thread's tiles queued, in order, while it holds fewer than four (06 R118). -/
def State.queueTiles (s : State) (n : Nat) (t : ThreadId) : Nat → State
  | 0 => s
  | k + 1 =>
    match s.thread t, (s.stream n).bind (·.nextList t) with
    | some th, some (p, tile, addr) =>
      if 4 ≤ th.lists.length ∨ th.state = .stopped then s
      else ((s.markQueued n p tile addr).queueList th addr).queueTiles n t k
    | _, _ => s

/-- The lists of a picture's tiles laid, its threads bound, its buffers asked for, and the lists queued. -/
def State.placeTiles (s : State) (x : Stream) (raw : List Byte) (pic : Pic) (places : List Placement) : State :=
  let img := (s.slotImage x.slot).getD []
  let stages := x.stages img
  let tiles := dedup (places.map (·.tile))
  let s1 := tiles.foldl (fun u k =>
    let qs := places.filter (·.tile == k)
    match qs, pic.tiles.find? (·.tile == k) with
    | q :: _, some w =>
      let z : Setting := {
        t := pic.picture, tile := k, stride := s.strideOf x, qi := pic.qi, roi := pic.roi, refs := qs.flatMap (·.refs), work := w
        encode := x.dir == .encode }
      let v := (x.bound img pic.picture k q.thread (qs.map placedRef)).foldl (fun v l =>
        v.layBound x img z raw (((qs.find? (·.addr == l.ref.addr)).map (·.inputs)).getD []) l) u
      ((v.bind q.thread x.number false x.cls).askBuffers x stages pic.picture k q.thread)
    | _, _ => u) s
  (dedup (places.map (·.thread))).foldl (fun u t => u.queueTiles x.number t 4) s1.servePools

end Sys2Proof.Machine
end

