-- ==== Sys2Proof/Machine/Ports.lean ====
section
/-! DEFINITION. What arrives on an Ethernet port (14 R311 to R322, 16 R371): RDMA writes and connections, congestion, pauses, address
resolution, PTP, and the port's own changes. -/

namespace Sys2Proof.Machine

/-- Whether traffic passes an Ethernet port: its clocks run, it is up and not quiesced (14 R314, 18 R411). -/
def State.portAlive (s : State) (p : Nat) : Bool :=
  (s.phase == .running || (s.phase == .netRecovery && p < 2)) && (s.die p).eth.up && !s.portQuiesced p

/-- An arrival on a port: an absent port is no port at all; on a port without traffic nothing happens. -/
def onPort (s : State) (p : Nat) (k : State) : Host.Outcome State Fault Refusal :=
  if s.dieCount ≤ p then .fault .absentElement else if s.portAlive p then .next k else .next s

/-- The Ethernet port of a die replaced by `f` of it. -/
def State.onEth (s : State) (p : Nat) (f : Eth → Eth) : State := s.onDie p fun d => { d with eth := f d.eth }

/-- A counter of a die, one higher (15 R365). -/
def State.count (s : State) (d i : Nat) : State := s.onDie d fun x => { x with cnt := modifyAt x.cnt i (· + 1) }

/-- The 802.1Q priority of RoCEv2 traffic of a class (14 R312). -/
def pcpOf (cls : Nat) : Nat :=
  match cls with
  | 0 => 6 | 1 => 4 | 2 => 3 | _ => 2

/-- A priority's receive buffer after an arrival: how full it stands is a free value of at most 256 KiB; at 192 KiB the part sends
XOFF, at 64 KiB or below XON (14 R312). -/
def State.rxFill (s : State) (port prio : Nat) : State :=
  let (v, s1) := s.draw
  let level := v % 262145
  let off := (s.die port).eth.xoff.getD prio false
  if 196608 ≤ level ∧ !off then
    ((s1.onEth port fun e => { e with xoff := modifyAt e.xoff prio fun _ => true }).count port 5).emit
      (.frame port "PFC XOFF" prio [])
  else if level ≤ 65536 ∧ off then
    (s1.onEth port fun e => { e with xoff := modifyAt e.xoff prio fun _ => false }).emit (.frame port "PFC XON" prio [])
  else s1

/-! ### Queue pairs -/

/-- RDMA_WRITE (14 R318): into the staging area of the queue pair, under its RKEY; any other access is answered by a remote
access error NAK. While the fabric of the port's die or of D0, whose memory holds the area, is fenced, nothing is written and the
answer is RNR NAK, as 17 R387 has it for SENDs (DEDUCED, log 87). -/
def execRdmaWrite (qpn addr rkey : Nat) (bytes : List Byte) (s : State) : Host.Outcome State Fault Refusal :=
  match s.qp qpn with
  | none => .next s
  | some q =>
    if !q.connected || !s.portAlive q.port then .next s
    else if s.dieRecovering 0 || s.dieRecovering q.port then .next (s.emit (.frame q.port "RNR NAK" q.peer []))
    else
      match s.staging.find? fun g => g.qpn == qpn with
      | some g =>
        if g.rkey = rkey ∧ g.base ≤ addr ∧ addr + bytes.length ≤ g.base + g.length then
          .next ((s.rxFill q.port (pcpOf q.cls)).put addr bytes)
        else .next (s.emit (.frame q.port "NAK REMOTE ACCESS" q.peer []))
      | none => .next (s.emit (.frame q.port "NAK REMOTE ACCESS" q.peer []))

/-- Whether a CM REQ keeps the rules of 14 R318. -/
def State.reqOk (s : State) (q : QueuePair) (serviceId mtu : Nat) (altGid : Option Nat) : Bool :=
  serviceId == (Config.serviceId q.qpn).toNat && mtu == 4096 && !q.connected &&
    match q.alt with
    | some a => altGid == some (s.gidOf a)
    | none => true

/-- CM_REQ: answered REP or REJ (14 R318). -/
def execCmReq (qpn serviceId mtu : Nat) (altGid : Option Nat) (peer : Nat) (s : State) : Host.Outcome State Fault Refusal :=
  match s.qp qpn with
  | none => .next (s.emit (.frame 0 "CM REJ" peer []))
  | some q =>
    if !s.portAlive q.port then .next s
    else if s.reqOk q serviceId mtu altGid then
      .next ((s.setQp { q with connected := true, peer := peer }).emit (.frame q.port "CM REP" peer []))
    else .next (s.emit (.frame q.port "CM REJ" peer []))

/-- RNR_NAK: the part's output waits, and a class-0 stream counts as having its port down, so that the pictures at hand lose their
bound (14 R321). -/
def execRnrNak (qpn : Nat) (s : State) : Host.Outcome State Fault Refusal :=
  match s.qp qpn with
  | some q =>
    if q.connected && s.portAlive q.port then
      .next { s.setQp { q with rnrSince := some s.gts } with
        streams := s.streams.map fun (x : Stream) => if x.cls = 0 ∧ x.qpn = qpn then x.unbound else x }
    else .next s
  | none => .next s

/-- Whether a queue pair's output still waits on RNR NAKs: when the host posts receives again is not shown to the part's commands, so
whether a wait has ended by now is free (14 R321). -/
def State.rnrSettle (s : State) (qpn : Nat) : State :=
  match s.qp qpn with
  | some q =>
    if q.rnrSince.isSome then
      let (v, s1) := s.draw
      if v % 2 = 0 then s1.setQp { q with rnrSince := none } else s1
    else s
  | none => s

/-- Whether at least `ns` have passed since a time, or it never was. -/
def elapsed (since : Option Nat) (ns now : Nat) : Bool :=
  match since with
  | some t => t + ns ≤ now
  | none => true

/-- CE_MARKED_PACKET: a CNP to the source, at most one per queue pair per 50 µs (14 R319). -/
def execCeMarkedPacket (qpn : Nat) (s : State) : Host.Outcome State Fault Refusal :=
  match s.qp qpn with
  | some q =>
    if q.connected && s.portAlive q.port && elapsed q.cnpSentAt 50000 s.gts then
      .next (((s.setQp { q with cnpSentAt := some s.gts }).count q.port 6).emit (.frame q.port "CNP" q.peer []))
    else .next s
  | none => .next s

/-- The lowest rate of a queue pair: 1 Gbit/s, and for class 0 its admitted output rate (14 R319). -/
def State.rateFloor (s : State) (q : QueuePair) : Nat := max 1000000000 (s.qpRate q)

/-- CNP: the send rate halves, at most once per 50 µs (14 R319). -/
def execCnp (qpn : Nat) (s : State) : Host.Outcome State Fault Refusal :=
  match s.qp qpn with
  | some q =>
    if !q.connected || !s.portAlive q.port then .next s
    else if elapsed q.cnpAt 50000 s.gts then
      .next (s.setQp { q with rate := max (min q.rate (s.rateFloor q)) (q.rate / 2), cnpAt := some s.gts, rateAt := s.gts })
    else .next (s.setQp { q with rateAt := s.gts })
  | none => .next s

/-- CNP_RATE_INCREASE: 5 Gbit/s more after each 55 µs without a CNP, up to the line rate (14 R319). -/
def execCnpRateIncrease (qpn : Nat) (s : State) : Host.Outcome State Fault Refusal :=
  match s.qp qpn with
  | some q =>
    if q.connected && q.rateAt + 55000 ≤ s.gts then
      .next (s.setQp { q with rate := min 100000000000 (q.rate + 5000000000), rateAt := s.gts })
    else .next s
  | none => .next s

/-! ### Pauses and address resolution -/

/-- PFC_FRAME: pauses are honoured on the lossless priorities 2, 3, 4 and 6 (14 R312). -/
def execPfcFrame (port : Nat) (pause : List (Option Bool)) (s : State) : Host.Outcome State Fault Refusal :=
  onPort s port (s.onEth port fun e => { e with
    paused := e.paused.zipIdx.map fun (p : Bool × Nat) =>
      if [2, 3, 4, 6].contains p.2 then (pause.getD p.2 none).getD p.1 else p.1 })

/-- The MAC address of a peer's latest frame (15 R362). -/
def Eth.learn (e : Eth) (ip mac : Nat) : Eth := { e with neighbours := (ip, mac) :: e.neighbours.filter (·.1 != ip) }

/-- ARP: a request for the port's IPv4 address is answered (14 R311, R313). -/
def execArp (port senderMac senderIp targetIp : Nat) (s : State) : Host.Outcome State Fault Refusal :=
  onPort s port
    (if s.ipv4Of port = some targetIp then
      (s.onEth port (·.learn senderIp senderMac)).emit (.frame port "ARP REPLY" senderMac (beBytes 6 (macOf port) ++ beBytes 4 targetIp))
    else s)

/-- NEIGHBOUR_DISCOVERY: a solicitation of one of the port's IPv6 addresses is answered. -/
def execNeighbourDiscovery (port senderMac senderIp targetIp : Nat) (s : State) : Host.Outcome State Fault Refusal :=
  onPort s port
    (if (s.ipv6Of port).contains targetIp then
      (s.onEth port (·.learn senderIp senderMac)).emit
        (.frame port "NEIGHBOUR ADVERTISEMENT" senderMac (beBytes 6 (macOf port) ++ beBytes 16 targetIp))
    else s)

/-- ICMP_ECHO: an echo request to one of the port's addresses is answered with its payload. -/
def execIcmpEcho (port : Nat) (v6 : Bool) (senderMac senderIp targetIp : Nat) (payload : List Byte) (s : State) :
    Host.Outcome State Fault Refusal :=
  onPort s port
    (if (if v6 then (s.ipv6Of port).contains targetIp else s.ipv4Of port == some targetIp) then
      (s.onEth port (·.learn senderIp senderMac)).emit (.frame port "ICMP ECHO REPLY" senderMac payload)
    else s)

/-- UNSUPPORTED_FRAME: dropped, and counted where the CNT block has a counter for it (14 R311, R313; 15 R365; 13 R286). -/
def execUnsupportedFrame (port : Nat) (why : FrameFault) (s : State) : Host.Outcome State Fault Refusal :=
  onPort s port
    (match why with
     | .oversize => s.count port 2
     | .otherVid => s.count port 3
     | .udpPort => s.count port 4
     | .ipFragment => s.count port 0
     | .otherMac => s)

/-! ### PTP (14 R315, 16 R371) -/

/-- The configured domain, and the interval of Delay_Req messages in ns. -/
def Eth.ptpDomain (e : Eth) : Nat := bits e.current.ptp.toNat 0 7
def Eth.delayInterval (e : Eth) : Nat :=
  let k := signed 4 (bits e.current.ptp.toNat 8 4)
  if 0 ≤ k then 10 ^ 9 * 2 ^ k.toNat else 10 ^ 9 / 2 ^ (-k).toNat

/-- SYNC: a Sync of the configured domain is stamped on arrival. -/
def execSync (port domain seqId : Nat) (s : State) : Host.Outcome State Fault Refusal :=
  onPort s port
    (if (s.die port).eth.ptpDomain = domain then
      s.onEth port fun e => { e with lastSync := some { domain := domain, seqId := seqId, arrival := s.gts } }
    else s)

/-- A Sync record that a Follow_Up names takes its origin. -/
def SyncRec.follow (r : SyncRec) (domain seqId : Nat) (origin : PtpTime) : SyncRec :=
  if r.domain = domain ∧ r.seqId = seqId then { r with origin := some origin } else r

/-- FOLLOW_UP: the origin time stamp of the Sync of that sequenceId. -/
def execFollowUp (port domain seqId : Nat) (origin : PtpTime) (s : State) : Host.Outcome State Fault Refusal :=
  onPort s port (s.onEth port fun e => { e with
    lastSync := e.lastSync.map (·.follow domain seqId origin)
    delayReq := e.delayReq.map fun (r : DelayRec) => { r with sync := r.sync.map (·.follow domain seqId origin) } })

/-- DELAY_REQ: one every 2^LOG_DELAY s, stamped on departure and paired with the latest Sync. -/
def execDelayReq (port : Nat) (s : State) : Host.Outcome State Fault Refusal :=
  onPort s port
    (let e := (s.die port).eth
     if e.delayAt + e.delayInterval ≤ s.gts then
       (s.onEth port fun x => { x with
         delayReq := some { seqId := e.delaySeq.toNat, departure := s.gts, sync := e.lastSync }
         delaySeq := e.delaySeq + 1, delayAt := s.gts }).emit (.frame port "DELAY_REQ" 0 (beBytes 2 e.delaySeq.toNat))
     else s)

/-- A sample written into the ring (16 R371): the first at index 0. -/
def Eth.sample (e : Eth) (p : PtpSample) : Eth :=
  let i := e.count.toNat % 16
  { e with ring := modifyAt e.ring i fun _ => p, head := i, count := e.count + 1 }

/-- DELAY_RESP: the matching response within 1 s, for a Sync whose Follow_Up came, writes one sample. -/
def execDelayResp (port domain seqId : Nat) (receive : PtpTime) (s : State) : Host.Outcome State Fault Refusal :=
  onPort s port
    (let e := (s.die port).eth
     match e.delayReq with
     | some r =>
       if r.seqId = seqId ∧ domain = e.ptpDomain ∧ s.gts ≤ r.departure + 10 ^ 9 then
         match r.sync with
         | some y =>
           match y.origin with
           | some t1 =>
             s.onEth port fun x => ({ x with delayReq := none } : Eth).sample
               { seqId := BitVec.ofNat 16 y.seqId, valid := true, t1 := t1, t2 := BitVec.ofNat 64 y.arrival
                 t3 := BitVec.ofNat 64 r.departure, t4 := receive, domain := BitVec.ofNat 7 y.domain
                 delaySeq := BitVec.ofNat 16 r.seqId }
           | none => s.onEth port fun x => { x with delayReq := none }
         | none => s.onEth port fun x => { x with delayReq := none }
       else s
     | none => s)

/-! ### A port's changes -/

/-- Whether the part keeps its Ethernet ports (14 R314; 19 R425 for network recovery). -/
def State.ethRuns (s : State) (p : Nat) : Bool := s.phase == .running || s.phase == .failed || (s.phase == .netRecovery && p < 2)

/-- ETH_PORT_DOWN: 1 ms without alignment (14 R314, R322). -/
def execEthPortDown (port : Nat) (s : State) : Host.Outcome State Fault Refusal :=
  if s.dieCount ≤ port then .fault .absentElement
  else if s.ethRuns port && (s.die port).eth.up then .next (s.portDown port)
  else .next s

/-- ETH_PORT_UP: 10 ms of unbroken alignment (14 R314); the PCS of a quiesced port sends no blocks (18 R411). -/
def execEthPortUp (port : Nat) (s : State) : Host.Outcome State Fault Refusal :=
  if s.dieCount ≤ port then .fault .absentElement
  else if s.ethRuns port && !(s.die port).eth.up && !s.portQuiesced port then .next (s.portUp port)
  else .next s

/-- Whether no port of a network has been up for 2 s (14 R322). -/
def State.networkDead (s : State) (net : Nat) : Bool :=
  (List.range s.dieCount).all fun p => networkOf p != net ||
    (!(s.die p).eth.up && (s.die p).eth.downAt.getD 0 + 2 * 10 ^ 9 ≤ s.gts)

/-- NETWORK_DOWN_TIMEOUT: every stream bound in the network stops with TIMEOUT (14 R322). -/
def execNetworkDownTimeout (network : Nat) (s : State) : Host.Outcome State Fault Refusal :=
  if 2 ≤ network then .fault .absentElement
  else if s.firmwareRuns && s.networkDead network then
    .next (((s.streams.filter fun (x : Stream) => x.params.network == network).map Stream.number).foldl (fun t n => t.stopStream n .timeout) s)
  else .next s

end Sys2Proof.Machine
end

