-- ==== Sys2Proof/Machine/Pictures.lean ====
section
/-! DEFINITION. The life of a picture: its input, its start, its tiles and its completion; adaptation merges; the close of a stream
(09 R207, R211 to R214; 10 R223 to R245; 11 R247 to R262; 12 R268, R269, R281 to R283; 13 R305; 14 R320; 20 R457). -/

namespace Sys2Proof.Machine

/-! ### Small steps on a stream -/

/-- A stream's picture with a counter. -/
def Stream.pic (x : Stream) (t : Nat) : Option Pic := x.pics.find? (·.picture == t)

/-- A stream's picture replaced by `f` of it. -/
def Stream.onPic (x : Stream) (t : Nat) (f : Pic → Pic) : Stream :=
  { x with pics := x.pics.map fun (p : Pic) => if p.picture = t then f p else p }

/-- The oldest picture that has started. -/
def Stream.oldest (x : Stream) : Option Nat :=
  (x.pics.filter (·.started)).foldl (fun m p => some (match m with | some a => min a p.picture | none => p.picture)) none

/-- The threads of a stream are given up: those whose operations still run stop, the others go back to FREE. -/
def State.discardThreads (s : State) (n : Nat) : State :=
  { s with
    threads := s.threads.filterMap fun (t : Thread) =>
      if t.binding ≠ n then some t
      else if t.out.any (! ·.done) then some { t with state := .stopped, queue := [], cur := none, waiting := none }
      else none
    barriers := s.barriers.filter (·.owner != n) }

/-- What is left of a stream's pictures goes with it. -/
def Stream.cleared (x : Stream) : Stream := { x with pics := [], inputs := [], inBytes := [] }

/-- A stream stops with a status, its threads and pictures with it (06 R120; 10 R242). -/
def State.haltStream (s : State) (n : Nat) (st : Status) : State :=
  match (s.stopStream n st).stream n with
  | some x => (((s.stopStream n st).setStream x.cleared).discardThreads n).wakePools
  | none => s

/-- A stream stops on damage, once: the report, sticky STREAM_DAMAGED and event 0x0602 (10 R243; 16 R377). -/
def State.damageStream (s : State) (n : Nat) (g : Damage) : State :=
  match s.stream n with
  | some x =>
    if x.state = .stopped then s
    else
      (((s.setStream { x with damage := some g }).haltStream n .streamDamaged).stick 0 .streamDamaged).event 0 srcStream 0x0602
        (g.cause * 2 ^ 24 + g.picture % 2 ^ 24)
  | none => s

/-- A stream is gone: its number, queue pair, regions, reservations and threads (13 R305). -/
def State.removeStream (s : State) (n : Nat) : State :=
  match s.stream n with
  | some x =>
    let s1 := (((s.discardThreads n).releasePools n).releaseRegions n).closeQp x.qpn
    ({ s1 with streams := s1.streams.filter (·.number != n) } : State).wakePools
  | none => s

/-- Whether a decoding stream's next unit has wholly arrived, or cannot (12 R265, R283). -/
def Stream.unitReady (x : Stream) : Bool :=
  x.dir == .decode && !(x.pics.any (·.doom.isSome)) &&
    if x.endSeen then x.inBytes != []
    else
      let n := beAt x.inBytes 4 4
      8 ≤ x.inBytes.length && (n < 4 || 0x7FFFFFFF < n || 8 + n ≤ x.inBytes.length)

/-- Whether a closing stream still has pictures to finish (13 R305; 14 R334), or units of them that have arrived (12 R283). -/
def Stream.busy (x : Stream) : Bool :=
  x.pics.any (fun p => p.started || p.ended) || !x.twin.held.isEmpty || x.unitReady ||
    (x.dir == .encode && x.inputs.any (·.complete))

/-- LAST_PICTURE. -/
def Stream.lastField (x : Stream) : List Byte := beBytes 4 (x.lastPicture.getD 0xFFFFFFFF)

/-- STREAM_END as an encoding stream writes it, once; in twin mode only the primary emits (12 R283; 14 R334). -/
def State.writeEnd (s : State) (x : Stream) : State :=
  if x.dir = .encode ∧ x.endSeen = false ∧ x.state ≠ .stopped then
    let s1 := s.setStream { x with endSeen := true }
    if x.params.archive ≠ 0 ∧ s.twin.role ≠ 0 then s1 else s1.emit (.record x.number (zbsRecord (mkUnit 15 x.lastField)))
  else s

/-- The close of a stream ends when nothing is left to do: STREAM_END, the release and the final replies (13 R305). -/
def State.settleClose (s : State) (n : Nat) : State :=
  match s.stream n with
  | some x =>
    if x.closing.isEmpty || (x.state != .stopped && x.busy) then s
    else ((s.writeEnd x).removeStream n).finishAll x.closing .ok x.lastField
  | none => s

/-- STREAM_CLOSE (13 R305). -/
def execStreamClose (d : Datagram) (s : State) : Host.Outcome State Fault Refusal :=
  let n := beAt d.params 0 4
  let known := d.params.length == 4 && (s.stream n).isSome
  match s.serve d 0x0023 false (s.streamOwner d) none fun _ t =>
      match t.stream n with
      | some x =>
        if d.params.length ≠ 4 then (t, .fail .badParam)
        else
          (t.setStream { x with
            state := if x.state = .stopped then .stopped else .closing
            endSeen := x.endSeen || x.state == .ended
            closing := x.closing ++ [dgReq d]
            inputs := x.inputs.filter (·.complete) }, .wait)
      | none => (t, .fail .badParam 0) with
  | t => .next (if known then t.settleClose n else t)

/-! ### Input (14 R320; 10 R223, R225, R240) -/

/-- Whether every condition of 10 R240 that the part can see holds for an input that arrives now. -/
def State.inputBounded (s : State) (x : Stream) (bytes : Nat) : Bool :=
  let spaced := match x.lastArrival with
    | some a => a + x.params.interval ≤ s.gts
    | none => true
  let port := match s.qp x.qpn with
    | some q => (s.die q.port).eth.up && q.rnrSince.isNone
    | none => false
  x.cls == 0 && decide (bytes ≤ x.params.maxInput) && spaced && port && !(x.regions.any fun r => s.regionRecovering r.1 r.2) &&
    !(x.inputs.any fun i => i.complete && !i.bounded) &&
    !(x.pics.any fun p => match p.input with | some i => !i.bounded | none => false)

/-- The input picture a record belongs to, as far as it has come. -/
def Stream.incoming (x : Stream) : InputPic :=
  (x.inputs.find? fun i => !i.complete).getD { picture := x.nextInput, metadata := [], samples := [], complete := false, arrivedAt := 0 }

/-- An encoding stream's input picture replaced or added. -/
def Stream.putInput (x : Stream) (i : InputPic) : Stream :=
  { x with inputs := (x.inputs.filter fun (j : InputPic) => j.complete) ++ [i] }

/-- A complete input picture (14 R320; 10 R223, R241); one that an ingest stream decoded out of order does not conform (10 R246). -/
def State.inputDone (s : State) (x : Stream) (i : InputPic) (reordered : Bool := false) : State :=
  if i.samples.length ≠ x.params.rawSize x.media then s.haltStream x.number .badShape
  else
    let done := { i with complete := true, arrivedAt := s.gts, bounded := s.inputBounded x i.samples.length && !reordered }
    s.setStream { x.putInput done with
      nextInput := x.nextInput + 1, lastArrival := some s.gts
      highBits := x.highBits + b01 (x.params.highBits x.media i.samples) }

/-- A record of an encoding stream. -/
def State.encodeInput (s : State) (x : Stream) (kind fin : Nat) (data : List Byte) : State :=
  let i := x.incoming
  if kind = 1 then
    if data = [] ∨ 65536 < data.length ∨ i.samples ≠ [] ∨ i.metadata ≠ [] then s.haltStream x.number .badParam
    else if fin = 1 then s.inputDone x { i with metadata := data }
    else s.setStream (x.putInput { i with metadata := data })
  else
    let j := { i with samples := i.samples ++ data }
    if fin = 1 then s.inputDone x j
    else if x.params.rawSize x.media < j.samples.length then s.haltStream x.number .badShape
    else s.setStream (x.putInput j)

/-- INPUT_RECORD (14 R320). -/
def State.inputRecord (s : State) (x : Stream) (b : List Byte) : State :=
  let kind := leAt b 2 1
  let flags := leAt b 3 1
  let pic := leAt b 4 4
  let bad := s.haltStream x.number .badParam
  if x.state = .stopped ∨ x.state = .closing then s
  else if b.length < 16 || leAt b 0 2 ≠ 0x5A49 || 1 < flags || leAt b 12 4 ≠ 0 || b.length ≠ 16 + leAt b 8 4 then bad
  else if x.dir = .encode then
    if 1 < kind || pic ≠ x.nextInput then bad
    else if 2 ^ 24 ≤ x.nextInput then
      s.setStream { x with discarded := x.discarded + flags, nextInput := x.nextInput + flags }
    else s.encodeInput x kind flags (b.drop 16)
  else if kind ≠ 2 || pic ≠ 0 then bad
  else s.setStream { x with inBytes := x.inBytes ++ b.drop 16, bytesRead := x.bytesRead + BitVec.ofNat 64 (b.length - 16) }

/-- INPUT_RECORD; a die whose fabric is fenced answers RNR NAK (17 R387). -/
def execInputRecord (stream : Nat) (bytes : List Byte) (s : State) : Host.Outcome State Fault Refusal :=
  match s.stream stream with
  | none => .next s
  | some x =>
    match s.qp x.qpn with
    | some q =>
      if q.connected && s.portAlive q.port && s.dieRecovering q.port then .next (s.emit (.frame q.port "RNR NAK" q.peer []))
      else .next (if s.firmwareRuns ∧ q.connected ∧ s.portAlive q.port then ((s.rxFill q.port (pcpOf x.cls)).rnrSettle x.qpn).inputRecord x bytes else s)
    | none => .next s

/-- A picture that an ingest stream puts out: it feeds the encoding stream that names it, or leaves (10 R244). -/
def State.ingestOut (s : State) (n : Nat) (raw : List Byte) (reordered : Bool) : State :=
  match s.stream n with
  | none => s
  | some x =>
    let s1 := s.setStream { x with nextInput := x.nextInput + 1, lastPicture := some x.nextInput }
    match s1.streams.find? fun y => y.dir == .encode && y.params.source == n && y.state != .stopped && y.state != .closing with
    | some y =>
      if 2 ^ 24 ≤ y.nextInput then s1.setStream { y with discarded := y.discarded + 1, nextInput := y.nextInput + 1 }
      else (s1.rnrSettle y.qpn).inputDone y { picture := y.nextInput, metadata := [], samples := raw, complete := false, arrivedAt := 0 } reordered
    | none => s1.emit (.record n (outRecord 0 x.nextInput 4 [] raw))

/-- INGEST_DECODE (10 R244, R245): an error stops the ingest stream, and a transcode fed by it, on damage. -/
def execIngestDecode (stream : Nat) (s : State) : Host.Outcome State Fault Refusal :=
  match s.stream stream with
  | none => .next s
  | some x =>
    if x.dir ≠ .ingest ∨ x.state = .stopped ∨ x.inBytes = [] ∨ s.firmwareRuns = false then .next s
    else
      match Config.ingestDecode x.params.ingestFormat s.freeCtr x.inBytes with
      | some (raws, grains) =>
        .next (raws.foldl (fun u r => u.ingestOut stream r.1 r.2)
          (({ s with freeCtr := s.freeCtr + 1 } : State).setStream { x with inBytes := [], grains := x.grains + grains }))
      | none =>
        let s1 := ({ s with freeCtr := s.freeCtr + 1 } : State).damageStream stream ⟨x.nextInput, none, 0x20, 0⟩
        .next ((s1.streams.filter fun (y : Stream) => y.dir == .encode && y.params.source == stream).foldl
          (fun u y => u.haltStream y.number .streamDamaged) s1)

/-! ### Merging adaptations (09 R211 to R214) -/

/-- `merge` of 09 R212: the merged code, and whether it was clamped. -/
def mergeCode (q n : Int) (su sv sw : EV) : Int × Bool :=
  let v := q + (place 0 ((((EV.ofInt n).mul su).mul sv).divPos sw)).n
  (clampInt v (-128) 127, v < -128 || 127 < v)

/-- A delta's scale and zero point at an offset of its body. -/
def deltaScale (b : List Byte) (o : Nat) : EV × Int := (decodeFloat .fp32 (leAt b o 4), signed 8 (leAt b (o + 4) 1))

/-- The sum of 09 R212 for an output channel and a column of a layer of `cout` by `k`. -/
def deltaSum (b : List Byte) (cout k o c : Nat) : Int :=
  let r := leAt b 1 1
  let u := deltaScale b 12
  let v := deltaScale b 20
  ((List.range r).map fun j =>
    (signed 8 (leAt b (28 + o * r + j) 1) - u.2) * (signed 8 (leAt b (28 + cout * r + j * k + c) 1) - v.2)).sum

/-- The codes of a layer merged with a delta, or its base codes, and how many were clamped. -/
def mergedLayer (img : List Byte) (w : Weight) (d : Option (List Byte)) : List Byte × Nat :=
  match d with
  | none => (slice img w.codesOff (w.cout * w.k), 0)
  | some b =>
    let cells := (List.range w.cout).flatMap fun o => (List.range w.k).map fun c =>
      mergeCode (signed 8 (packedCode w.fmt img w.codesOff (o * w.k + c))) (deltaSum b w.cout w.k o c) (deltaScale b 12).1
        (deltaScale b 20).1 (w.scale img (if w.gran = 1 then o else 0)).1
    (cells.map fun c => byte (unsigned 8 c.1), cells.countP (·.2))

/-- Deltas in force after those of picture `t`: each replaces an earlier one of its layer (09 R213). -/
def newDeltas (old : List DeltaRec) (t : Nat) (bodies : List (List Byte)) : List DeltaRec :=
  bodies.foldl (fun l b => l.filter (fun (d : DeltaRec) => d.layer != leAt b 0 1) ++ [⟨leAt b 0 1, t, b⟩]) old

/-- Whether picture `t` may start or be merged for: the one after the latest started, its predecessor but one complete. -/
def Stream.turn (x : Stream) (t : Nat) : Bool :=
  x.next == t && !(x.pics.any fun p => p.started && p.picture + 2 ≤ t)

/-- Whether a delta's scale packet at an offset of its body keeps 03 R59 and the form of 12 R275. -/
def deltaPacketOk (b : List Byte) (o : Nat) : Bool :=
  positiveNormal (leAt b o 4) && leAt b (o + 5) 1 < 4 && leAt b (o + 6) 2 == 0

/-- Whether a delta's length is that of its fields (12 R275). -/
def deltaLengthOk (b : List Byte) : Bool := 28 ≤ b.length && b.length == 28 + leAt b 4 2 * leAt b 1 1 + leAt b 1 1 * leAt b 8 4

/-- Whether a delta's fields stand: its layer, rank, dimensions and packets (09 R211; 12 R275). -/
def deltaFieldsOk (img : List Byte) (b : List Byte) : Bool :=
  match (imageAdapt img)[leAt b 0 1]? with
  | none => false
  | some (id, most) =>
    match imageWeight img id with
    | none => false
    | some w => leAt b 1 1 ≤ most && leAt b 2 2 == 0 && leAt b 4 2 == w.cout && leAt b 6 2 == 0 && leAt b 8 4 == w.k &&
        deltaPacketOk b 12 && deltaPacketOk b 20

/-- Whether delta records can go with a picture that an encoding stream codes: each stands, at most one for a layer, in ascending order
(12 R268, R275). -/
def recordsOk (img : List Byte) (records : List (List Byte)) : Bool :=
  let layers := records.map fun b => leAt b 0 1
  records.all (fun b => deltaLengthOk b && deltaFieldsOk img b) && (layers.zip (layers.drop 1)).all fun p => p.1 < p.2

/-- The dies on which a stream holds a reservation: those its tiles run on (06 R140). -/
def State.streamDies (s : State) (n : Nat) : List Nat :=
  (List.range s.dieCount).filter fun d => (s.die d).poolLp.holds n || (s.die d).poolDs.holds n

/-- Whether the copies that a merge writes can stand where firmware puts them: in memory the part reaches, apart from one another and from
the copies of the other parity (09 R214). -/
def State.copiesOk (s : State) (x : Stream) (img : List Byte) (t : Nat) (out : List (MergedCopy × List Byte)) : Bool :=
  let len := fun (c : MergedCopy) => match imageWeight img c.weight with | some w => w.cout * w.k | none => 0
  let others := (x.copies.filter fun c => c.parity != t % 2).map fun c => (⟨c.addr, len c⟩ : Span)
  let mine := out.map fun o => (⟨o.1.addr, o.2.length⟩ : Span)
  apart (mine ++ others) && mine.all fun sp => s.accessOk sp && (s.partnerOf sp).isNone && (s.firstFenced none [sp]).isNone

/-- ADAPT_MERGE (09 R213, R214): the copies of parity t mod 2, on every die the stream runs on, at the places firmware gives them. -/
def execAdaptMerge (stream : Nat) (run : MergeRun) (s : State) : Host.Outcome State Fault Refusal :=
  match s.stream stream with
  | none => .next s
  | some x =>
    match s.slotImage x.slot with
    | none => .next s
    | some img =>
      let t := x.next
      let layers := imageAdapt img
      let bodies := if x.dir = .encode then run.records else ((x.pic t).map (·.deltas)).getD []
      let ready := if x.dir = .encode then recordsOk img run.records else (match x.pic t with | some p => p.ended && p.doom.isNone | none => false)
      let deltas := newDeltas x.deltas t bodies
      let merged := layers.zipIdx.map fun (e : (Nat × Nat) × Nat) =>
        match imageWeight img e.1.1 with
        | some w => (e.1.1, mergedLayer img w ((deltas.find? fun (d : DeltaRec) => d.layer == e.2).map (·.body)))
        | none => (e.1.1, ([], 0))
      let out := run.bases.flatMap fun b => (merged.zip b.2).map fun (e : (Nat × (List Byte × Nat)) × Nat) =>
        ((⟨e.1.1, t % 2, b.1, e.2⟩ : MergedCopy), e.1.2.1)
      if x.params.adapt ≠ 1 ∨ x.state = .stopped ∨ x.turn t = false ∨ ready = false ∨ run.bases.map (·.1) ≠ s.streamDies stream ∨
          (run.bases.any fun b => b.2.length != layers.length) ∨ s.copiesOk x img t out = false ∨ s.firmwareRuns = false ∨
          x.mergedFor = some t then .next s
      else
        let sat := if bodies.isEmpty then 0 else (merged.map fun m => m.2.2).sum
        .next ((s.putRuns (out.map fun o => (o.1.addr, o.2))).setStream { x with
          deltas := deltas, mergedFor := some t, adaptSat := x.adaptSat + sat
          copies := (x.copies.filter fun c => c.parity != t % 2) ++ out.map (·.1) })

/-! ### The start of a picture (10 R232 to R237; 12 R268; 20 R457) -/

/-- The requests whose picture has come, in order, and the others. -/
def dueAt {α : Type} (t : Nat) (l : List (Nat × α)) : List α × List (Nat × α) :=
  ((sortBy (fun a b => decide (a.1 ≤ b.1)) (l.filter fun a => decide (a.1 ≤ t))).map (·.2), l.filter fun a => decide (t < a.1))

/-- Whether a RATE_SET is a reset point (10 R237). -/
def RateCfg.resets (a b : RateCfg) : Bool := a.mode != b.mode || a.bitrate != b.bitrate || a.buf != b.buf

/-- What STREAM_CONFIG, RATE_SET and ROI_SET have set for picture `t` (10 R235 to R237; 13 R304). -/
def Stream.settings (x : Stream) (t : Nat) : Stream :=
  let (cfgs, cfgLater) := dueAt t x.pendingCfg
  let (rates, rateLater) := dueAt t x.pendingRate
  let (rois, roiLater) := dueAt t x.pendingRoi
  let params := cfgs.foldl (fun (p : StreamParams) c => match parseEntries c 0 with | .ok es => p.apply es | .error _ => p) x.params
  let rate := rates.getLastD x.rate
  let reset := t == 0 || (rates.zip (x.rate :: rates)).any fun r => r.1.resets r.2
  { x with
    params := params, pendingCfg := cfgLater, rate := rate, pendingRate := rateLater, roi := rois.getLastD x.roi
    pendingRoi := roiLater, resetAt := if reset then t else x.resetAt
    rateF := if reset then (rate.buf / 2 : Nat) else x.rateF }

/-- The bits of a picture interval at the target rate; a stream that declares no interval uses firmware's own (10 R237). -/
def Stream.intervalBits (x : Stream) : Nat :=
  x.rate.bitrate * (if x.params.interval = 0 then Config.pictureInterval x.number else x.params.interval) / 10 ^ 9

/-- QI and F for picture `t` (10 R236, R237). -/
def Stream.chooseQi (x : Stream) (t : Nat) : Nat × Int :=
  if x.rate.mode = 0 then (x.rate.qiFixed, x.rateF)
  else if t < x.resetAt + 2 then (x.rate.qiInit, x.rateF)
  else
    let at_ := fun (l : List (Nat × Nat)) (k : Nat) => ((l.find? (·.1 == k)).map (·.2)).getD 0
    let r := rateQi x.rate x.rateF x.intervalBits (at_ x.sizes (t - 2)) (at_ x.qis (t - 1)) (at_ x.qis (t - 2))
    (r.2.toNat, r.1)

/-- The slots LT0 to LT3 that picture `t` is marked into (10 R227). -/
def Stream.markMask (x : Stream) (t : Nat) : Nat :=
  let auto := if x.params.ltAuto ≠ 0 ∧ t % x.params.ltAuto = 0 then [t / x.params.ltAuto % 4] else []
  let all := auto ++ (x.marks.filter (·.1 == t)).map fun m => m.2 - 4
  ((List.range 4).map fun i => if all.contains i then 2 ^ i else 0).sum

/-- Every unit given over so far leaves, where none is held back. -/
def State.emitUnits (s : State) (x : Stream) (us : List (List Byte)) : State := s.emits (us.map fun u => .record x.number (zbsRecord u))

/-- A unit of an encoding stream's picture: it leaves at once, unless an earlier picture is not complete (12 R268) or the twin's
digest is awaited (14 R334). -/
def State.giveUnit (s : State) (n t : Nat) (u : List Byte) : State :=
  match s.stream n with
  | none => s
  | some x =>
    let s1 := s.setStream (x.onPic t fun p => { p with unitsOut := p.unitsOut ++ [u], bytes := p.bytes + u.length })
    if x.params.archive ≠ 0 ∨ x.oldest ≠ some t then s1 else s1.emitUnits x [u]

/-- The deltas that an encoding stream sends with picture `t`, by layer: its own, and where a refresh period begins every one in force
(09 R213). -/
def Stream.sends (x : Stream) (t : Nat) : List (List Byte) :=
  (sortBy (fun (a b : DeltaRec) => decide (a.layer ≤ b.layer))
    (x.deltas.filter fun (d : DeltaRec) => headerBefore t x.params.refreshN || d.since == t)).map (·.body)

/-- The units that begin a picture of an encoding stream (12 R268, R275). -/
def Stream.openingUnits (x : Stream) (stride t qi marks : Nat) (inp : InputPic) : List (List Byte) :=
  let p := x.params
  let rects := x.roi.filterMap (·.clip p)
  let roi := x.media == 0 && !gainZero p rects
  let deltas := x.sends t
  let flags := b01 (refreshComplete t p.refreshN) + 2 * b01 roi + 4 * b01 (deltas != []) + 8 * b01 (inp.metadata != []) +
    16 * b01 (digestDue p.reconDigest t p.refreshN)
  let refs := if whollyIntra t p.refreshN (p.cols x.media stride) then 0 else p.refSearch
  (if headerBefore t p.refreshN then [mkUnit 1 (streamHeaderBody p x.media stride x.digest t)] else []) ++
    [mkUnit 2 (pictureHeaderBody p x.media stride t qi refs marks flags deltas.length)] ++ deltas.map (mkUnit 3) ++
    (if roi then [mkUnit 4 (roiBody rects)] else []) ++
    (if inp.metadata = [] then [] else [mkUnit 5 (zlzOf inp.metadata 8)])

/-- Whether a class-0 picture may start under a PACER (20 R457). -/
def State.paced (s : State) (x : Stream) (arrived : Nat) : Bool :=
  x.cls != 0 || s.hulT7.toNat % 4 != 2 || arrived ≤ s.t7At

/-- A picture whose tiles are placed: each with its thread and its lists. -/
def Pic.placed (p : Pic) (places : List Placement) : Pic :=
  let fill := fun (w : TileWork) => match places.filter (·.tile == w.tile) with
    | q :: qs => { w with home := some q.thread, lists := (q :: qs).map placedRef }
    | [] => w
  let more := (dedup (places.map (·.tile))).filter fun k => !(p.tiles.any (·.tile == k))
  { p with tiles := (p.tiles ++ more.map fun k => ({ tile := k } : TileWork)).map fill }

/-- Whether a tile of a picture is still to be placed. -/
def Pic.unplaced (p : Pic) (media stride tile : Nat) : Bool :=
  tile < p.params.tiles media stride && !(p.damage.any fun d => d.tile == some tile) &&
    !(p.tiles.any fun w => w.tile == tile && w.home.isSome)

/-- A picture of an encoding stream as it starts. -/
def Stream.begun (x : Stream) (now : Nat) (inp : InputPic) : Pic :=
  { picture := inp.picture, qi := (x.chooseQi inp.picture).1, startedAt := now, input := some inp, metadata := inp.metadata
    hasMeta := inp.metadata != [], roi := x.roi.filterMap (·.clip x.params), started := true, params := x.params
    marks := if x.media = 0 then x.markMask inp.picture else 0 }

/-- A picture of an encoding stream starts: `x` has its settings (10 R237; 12 R268). -/
def State.startEncode (s : State) (x : Stream) (inp : InputPic) (places : List Placement) : State :=
  let t := inp.picture
  let pic := (x.begun s.gts inp).placed places
  let y := { x with
    lastStarted := some t, lastQi := pic.qi, rateF := (x.chooseQi t).2, qis := (t, pic.qi) :: x.qis.take 3
    marks := x.marks.filter (·.1 != t), inputs := x.inputs.filter fun (i : InputPic) => !(i.complete && i.picture == t)
    pics := x.pics ++ [pic] }
  let s1 := (y.openingUnits (s.strideOf x) t pic.qi pic.marks inp).foldl (fun u b => u.giveUnit y.number t b) (s.setStream y)
  s1.placeTiles y inp.samples pic places

/-- A decoded picture as it starts, under the settings of its stream: its header's range fields stand. -/
def Stream.resumed (x : Stream) (now : Nat) (p : Pic) : Pic :=
  { p with
    started := true, startedAt := now
    params := { x.params with rangeE := p.params.rangeE, imode := p.params.imode, ei := p.params.ei, resDepth := p.params.resDepth } }

/-- A picture of a decoding stream starts. -/
def State.startDecode (s : State) (x : Stream) (p : Pic) (places : List Placement) : State :=
  let q := (x.resumed s.gts p).placed places
  let y := { x with
    lastStarted := some p.picture, lastQi := p.qi, pics := x.pics.map fun (r : Pic) => if r.picture = p.picture then q else r }
  (s.setStream y).placeTiles y [] q places

/-- More tiles of a picture that has started. -/
def State.startMore (s : State) (x : Stream) (p : Pic) (places : List Placement) : State :=
  let q := p.placed places
  let y := x.onPic p.picture fun _ => q
  (s.setStream y).placeTiles y ((p.input.map (·.samples)).getD []) q places

/-- The picture that a stream started last, where some of its tiles are still to be placed. -/
def Stream.partPlaced (x : Stream) (stride : Nat) : Option Pic :=
  (x.lastStarted.bind x.pic).bind fun p =>
    if (List.range (p.params.tiles x.media stride)).any (p.unplaced x.media stride) then some p else none

/-- The next picture of a stream, if it is ready to start: its input or its units have wholly arrived (10 R237, R242; 20 R457). -/
def State.readyPicture (s : State) (x : Stream) : Option Pic :=
  match x.dir with
  | .ingest => none
  | .encode => (x.inputs.find? fun i => i.complete && i.picture == x.next && s.paced x i.arrivedAt).map fun i =>
      (x.settings x.next).begun s.gts i
  | .decode => (x.pic x.next).bind fun p =>
      if p.ended && !p.started && p.doom.isNone && s.paced x ((p.input.map (·.arrivedAt)).getD 0) then
        some ((x.settings x.next).resumed s.gts p)
      else none

/-- PICTURE_START (09 R192, R207; 10 R237, R240; 20 R457): firmware places tiles of the next picture, or more tiles of the latest. -/
def execPictureStart (stream : Nat) (places : List Placement) (s : State) : Host.Outcome State Fault Refusal :=
  match s.stream stream with
  | none => .next s
  | some x =>
    let t := x.next
    let stride := s.strideOf x
    let merged := x.params.adapt != 1 || x.mergedFor == some t || s.slotImage x.slot == none
    let ok := fun (y : Stream) (p : Pic) => s.placesOk y p.params p.picture (p.unplaced x.media stride) places
    if s.firmwareRuns = false ∨ x.state = .stopped ∨ x.state = .ended then .next s
    else
      match x.partPlaced stride with
      | some p => .next (if ok x p then s.startMore x p places else s)
      | none =>
        match s.readyPicture x with
        | none => .next s
        | some p =>
          if x.turn t = false ∨ merged = false then .next s
          else if s.slotOf x.digest ≠ some x.slot then .next (s.haltStream stream .profileMissing)
          else if ok (x.settings t) p = false then .next s
          else
            match x.dir, x.inputs.find? fun i => i.complete && i.picture == t, x.pic t with
            | .encode, some i, _ => .next (s.startEncode (x.settings t) i places)
            | .decode, _, some q => .next (s.startDecode (x.settings t) q places)
            | _, _, _ => .next s

/-- PACER_TICK (20 R457): T7 ticks at multiples of its period. -/
def execPacerTick (s : State) : Host.Outcome State Fault Refusal :=
  let period := s.hulT7.toNat / 256 * 1000
  .next (if s.phase = .running ∧ s.hulT7.toNat % 4 = 2 ∧ period ≠ 0 then { s with t7At := s.gts / period * period } else s)

/-! ### Tiles (10 R224, R240, R242; 11 R255 to R262; 12 R278, R279, R284) -/

/-- A tile's lossy planes as sample values, row by row. -/
def State.tilePlanes (s : State) (p : StreamParams) (media : Nat) (cs : List (Tensor × Nat)) : List (List Int) :=
  cs.map fun c => (List.range c.1.h).flatMap fun y => (List.range c.1.w).map fun x => p.outValue media (s.real c.1 0 c.2 y x)

/-- The lossy value of a scan's element by its place in the scan. -/
def lossyAt (p : StreamParams) (stride k : Nat) (planes : List (List Int)) (i y x : Nat) : Int :=
  let (x0, _, w, _) := p.tileBox 2 stride k
  (planes.getD i []).getD (y * w + (x - x0)) 0

/-- A range tile's final planes from its residual bytes, over the tile's whole box. -/
def finalPlanes (p : StreamParams) (stride k : Nat) (bs : List Byte) (lossy : List (List Int)) : List (List Int) :=
  let (x0, _, w, h) := p.tileBox 2 stride k
  let n := min (x0 + w) p.azimuth - x0
  (List.range (2 + p.returnPlane)).map fun i => (List.range h).flatMap fun y => (List.range w).map fun x =>
    if y < p.beams ∧ x < n then p.fromResidual stride k bs (lossyAt p stride k lossy) i (y * n + x) else 0

/-- A reconstructed sample of a picture. -/
def Pic.sample (p : Pic) (media stride i y x : Nat) : Int :=
  let q := p.params
  let f := max 1 (if media = 0 ∧ i ≠ 0 then q.chroma q.tileSize else q.tileSize)
  let (ky, kx) := match media with
    | 0 => (y / f, x / f)
    | 1 => (0, 0)
    | _ => (0, x / f)
  let k := ky * q.cols media stride + kx
  let (_, _, bw, bh) := q.tileBox media stride k
  let (_, w) := q.planeDims media i bh bw
  match p.tiles.find? (·.tile == k) with
  | some t => (t.planes.getD i []).getD ((y - ky * f) * w + (x - kx * f)) 0
  | none => 0

/-- Whether a list at an address is of a tile of a picture. -/
def State.listOfTile (s : State) (a picture tile : Nat) : Bool := s.numAt (a + 12) 4 == tile && s.numAt (a + 16) 3 == picture

/-- Whether a tile's lists have all run: no thread of the stream has one at hand. -/
def State.tileRan (s : State) (n picture tile : Nat) : Bool :=
  let free := fun (t : Thread) => t.binding != n || t.isJob || t.state == .stopped ||
    (!(t.lists.any fun a => s.listOfTile a picture tile))
  s.threads.all free && s.recoveries.all fun r => r.suspects.all fun p => free p.held

/-- Whether a tile carries a MOTION sub-unit (12 R279). -/
def hasMotion (p : StreamParams) (media stride t k : Nat) : Bool :=
  let nc := p.cols media stride
  media == 0 && !whollyIntra t p.refreshN nc && !intraColumn t p.refreshN nc (k % max 1 nc)

/-- A tile of an encoding stream done: its unit is handed over (10 R240). -/
def State.encodeTile (s : State) (x : Stream) (p : Pic) (w : TileWork) (lossy : List (List Int)) : State :=
  let stride := s.strideOf x
  let q := p.params
  let motion := if hasMotion q x.media stride p.picture w.tile then some (zlzOf w.motion (Config.motionDepth % 256 + 1)) else none
  let raw := match p.input with | some i => i.samples | none => []
  let res := q.residual stride w.tile (q.rawValue 2 raw) (lossyAt q stride w.tile lossy)
  let planes := if x.media = 2 then finalPlanes q stride w.tile res lossy else lossy
  let u := mkUnit 6 (tileBody w motion (if x.media = 2 then some (zlzOf res q.resDepth) else none))
  (s.setStream (x.onTile p.picture w.tile fun v => { v with planes := planes, done := true })).giveUnit x.number p.picture u

/-- The sub-units of a TILE unit's body, after its bypass field: KIND and ZLZ stream. -/
def tileSubs (b : List Byte) : Nat → Nat → List (Nat × List Byte)
  | 0, _ => []
  | k + 1, o =>
    if b.length < o + 8 then []
    else (leAt b o 1, slice b (o + 8) (beAt b (o + 4) 4)) :: tileSubs b k (o + 8 + beAt b (o + 4) 4)

/-- Where the sub-units of a TILE body begin. -/
def subsFrom (b : List Byte) : Nat :=
  8 + 4 * leAt b 2 1 + ((tileSegments b).map List.length).sum + ceilDiv (beAt b 4 4) 8

/-- The ZLZ stream of a sub-unit of a kind. -/
def tileSub (b : List Byte) (kind : Nat) : List Byte :=
  match (tileSubs b 2 (subsFrom b)).find? (·.1 == kind) with
  | some z => z.2
  | none => []

/-- What a decoder finds at a tile's end: the bypass end, then the residual (12 R284). -/
def tileEndDamage (p : StreamParams) (media stride : Nat) (w : TileWork) : Option (Nat × Nat) :=
  let bits_ := beAt w.unit 4 4
  let unused := (toBits (tileBypass w.unit)).drop bits_
  if w.bypassBits ≠ bits_ ∨ unused.contains true then some (0x20, 0x0F)
  else if media ≠ 2 then none
  else
    match lzAll (tileSub w.unit 2) with
    | none => some (0x40, 0)
    | some bs => if bs.length ≠ p.residualLen stride w.tile bs then some (0x41, 0) else none

/-- A tensor of a tile kept in the reference store (10 R226). -/
def State.featureOf (s : State) (net tile : Nat) (d : Tensor) : Feature :=
  { net := net, tile := tile, c := d.c, h := d.h, w := d.w, codes := d.coords.map fun p => s.code d p.1 p.2.1 p.2.2
    packets := if d.scaled then s.bytesAt d.scale (8 * d.blocks + 8) else [] }

/-- What a tile gives to the reference store beside its samples: the outputs of the MOTION networks, and of a LATENT stream its latents
(10 R226; 11 R261). -/
def State.tileFeatures (s : State) (x : Stream) (th : ThreadId) (tile : Nat) (ls : List Bound) : List Feature :=
  let nets := dedup ((ls.filter (·.role == 5)).map (·.ref.net))
  let latents := dedup ((ls.flatMap (·.ops)).filterMap fun o => if x.latent then latentsLeft th (o.row, o.op) else none)
  nets.filterMap (fun n => (outputOf ls n).map (s.featureOf n tile)) ++ latents.zipIdx.map fun e => s.featureOf (256 + e.2) tile e.1

/-- A tile of a decoding stream done; a LATENT stream's feature records wait for the picture (11 R262). -/
def State.decodeTile (s : State) (x : Stream) (p : Pic) (w : TileWork) (lossy : List (List Int)) (heads : List Tensor) : State :=
  let stride := s.strideOf x
  let q := p.params
  match tileEndDamage q x.media stride w with
  | some (c, d) =>
    (s.setStream (x.onTile p.picture w.tile fun v => { v with done := true })).tileDamage x.number p.picture w.tile c d
  | none =>
    let planes :=
      if x.latent then []
      else if x.media = 2 then finalPlanes q stride w.tile ((lzAll (tileSub w.unit 2)).getD []) lossy
      else lossy
    let recs := heads.zipIdx.map fun (h : Tensor × Nat) =>
      s.featureRecord h.1 h.2 p.picture w.tile (incompleteFor x.firstPicture p.picture q.refreshN)
    let y := x.onTile p.picture w.tile fun v => { v with planes := planes, done := true }
    s.setStream (y.onPic p.picture fun r => { r with unitsOut := r.unitsOut ++ recs })

/-- TILE_COMPLETE (10 R226, R240; 11 R255, R261): every list of the tile has run on its thread; its planes, heads and features are what
its lists wrote, and its buffers are free. -/
def execTileComplete (stream picture tile : Nat) (t : ThreadId) (s : State) : Host.Outcome State Fault Refusal :=
  if !threadPresent s t then .fault .absentElement
  else
  match s.stream stream with
  | none => .next s
  | some x =>
    match x.pics.find? fun p => p.picture == picture && p.started with
    | none => .next s
    | some p =>
      match p.tiles.find? fun w => w.tile == tile && !w.done && w.home == some t, s.slotImage x.slot with
      | some w, some img =>
        let ls := x.bound img p.picture tile t w.lists
        let cs := channelsOf (synthesised ls)
        let hs := (headNets p.params.heads).filterMap (outputOf ls)
        let hurt := p.damage.any fun d => d.tile == some tile
        if s.firmwareRuns = false ∨ x.state = .stopped ∨ hurt ∨ (w.lists.any (! ·.queued)) ∨ s.tileRan stream p.picture tile = false ∨
            x.outputsOk p.params (s.strideOf x) tile ls = false then .next s
        else
          let s1 := s.setStream (x.onTile p.picture tile fun v => { v with features := s.tileFeatures x t tile ls })
          let y := (s1.stream stream).getD x
          let lossy := if x.latent then [] else s.tilePlanes p.params x.media cs
          let s2 := if x.dir = .encode then s1.encodeTile y p w lossy else s1.decodeTile y p w lossy (if x.latent then hs else [])
          .next ((s2.releaseTile stream p.picture tile).wakePools)
      | _, _ => .next s

/-! ### The completion of a picture (10 R226, R227, R234, R241, R243; 12 R281, R282; 14 R334) -/

/-- The slots after a picture, by what each holds (10 R226, R227; 11 R247). -/
def shiftSlots {α : Type} (media marks : Nat) (new : α) (slots : List α) : List α :=
  if media = 0 then
    new :: slots.take 3 ++ (slots.drop 4).zipIdx.map fun (r : α × Nat) => if bit marks r.2 then new else r.1
  else new :: slots.drop 1

/-- The reference store after a picture: its samples, none on a LATENT stream, and its tiles' features. -/
def Stream.shiftRefs (x : Stream) (p : Pic) (planes : List (List Int)) : List RefSlot :=
  shiftSlots x.media p.marks { picture := some p.picture, planes := planes, features := p.tiles.flatMap (·.features) } x.refs

/-- The picture each slot holds once every picture before `t` is complete. -/
def Stream.slotsAt (x : Stream) (t : Nat) : List (Option Nat) :=
  (sortBy (fun (a b : Pic) => decide (a.picture ≤ b.picture)) (x.pics.filter fun (p : Pic) => p.picture < t)).foldl
    (fun l p => shiftSlots x.media p.marks (some p.picture) l) (x.refs.map (·.picture))

/-- The planes of a picture, extended, as a reference keeps them. -/
def Pic.refPlanes (p : Pic) (media stride : Nat) : List (List Int) :=
  let h := p.params.extH media stride
  let w := p.params.extW media stride
  (List.range (p.params.planes media)).map fun i =>
    let (a, b) := p.params.planeDims media i h w
    (List.range a).flatMap fun y => (List.range b).map fun x => p.sample media stride i y x

/-- The extension in µs of the bound of a picture that arrived and was to be done in a period (18 R412). -/
def Stream.extension (x : Stream) (from_ now : Nat) : Nat :=
  (x.windows.map fun (w : Nat × Option Nat × Nat) =>
    let stop := w.2.1.getD now
    if w.1 ≤ from_ + x.boundUs * 1000 ∧ from_ ≤ stop then
      if w.2.2 = 0 then min 80000 ((stop - w.1) / 1000) else w.2.2
    else 0).sum

/-- A class-0 picture's latency: the histogram, and a late one's record and count (10 R241; 16 R380, R377). -/
def State.notePicture (s : State) (x : Stream) (p : Pic) : State :=
  match x.cls, p.input with
  | 0, some i =>
    let ns := s.gts - i.arrivedAt
    let s1 : State := { s with lifeLog := { s.lifeLog with latency := modifyAt s.lifeLog.latency (latencyBin ns) (· + 1) } }
    let bound := (x.boundUs + x.extension i.arrivedAt s.gts) * 1000
    if i.bounded ∧ bound < ns then
      match s1.stream x.number with
      | some y => ((s1.setStream { y with late := y.late + 1 }).stick 0 .class0Late).event 0 srcStream 0x0601
          (min (ceilDiv (ns - bound) 1000) 0xFFFFFFFF)
      | none => s1
    else s1
  | _, _ => s

/-- What every completed picture does to its stream. -/
def Stream.complete (x : Stream) (p : Pic) (stride : Nat) : Stream :=
  { x with
    lastPicture := some p.picture
    refs := x.shiftRefs p (if x.latent then [] else p.refPlanes x.media stride)
    pics := x.pics.filter fun (r : Pic) => r.picture != p.picture }

/-- Two twin parts differ (14 R334): the stream stops, one record. -/
def State.diverge (s : State) (x : Stream) (t : Nat) : State :=
  ((s.haltStream x.number .twinDiverge).stick 0 .twinDiverge).event 0 srcStream 0x0701 (x.params.archive * 2 ^ 24 + t % 2 ^ 24)

/-- The oldest held picture of an archive stream whose two digests are known: equal ones let it go, others stop the stream
(14 R334). -/
def State.twinStep (s : State) (n : Nat) : Option State :=
  match s.stream n with
  | none => none
  | some x =>
    let a := x.twin
    match a.ownConfig, a.peerConfig with
    | some c, some d =>
      if x.state = .stopped then none
      else if c ≠ d then some (s.diverge x 0)
      else
        match a.own.head? with
        | none => none
        | some o =>
          match a.peer.find? (·.1 == o.1) with
          | none => none
          | some e =>
            if e.2 ≠ o.2.1 then some (s.diverge x o.1)
            else
              let us := ((a.held.find? (·.1 == o.1)).map (·.2)).getD []
              let s1 := s.setStream { x with twin := { a with
                own := a.own.drop 1, peer := a.peer.filter (·.1 != o.1), held := a.held.filter (·.1 != o.1) } }
              some (if s.twin.role = 0 then s1.emitUnits x us else s1)
    | _, _ => none

/-- Every held picture that can go, goes. -/
def State.twinSettle (s : State) (n : Nat) : Nat → State
  | 0 => s
  | k + 1 => match s.twinStep n with
    | some t => t.twinSettle n k
    | none => s

/-- A completed picture of an archive stream: its digest goes to the twin, its units wait (14 R334). -/
def State.holdPicture (s : State) (n t : Nat) (us : List (List Byte)) : State :=
  match s.stream n with
  | none => s
  | some x =>
    let canon := canonicalUnits us
    let dg := shake256 (canon.flatMap id) 32
    let s1 := s.setStream { x with twin := { x.twin with
      own := x.twin.own ++ [(t, dg, s.gts)], held := x.twin.held ++ [(t, canon)] } }
    (s1.sendTwin 4 ([byte x.params.archive] ++ beBytes 3 t ++ dg)).twinSettle n 64

/-- A picture of an encoding stream completes: PICTURE_END, then what waited behind it. -/
def State.completeEncode (s : State) (x : Stream) (p : Pic) : State :=
  let stride := s.strideOf x
  let dg := if digestDue p.params.reconDigest p.picture p.params.refreshN then
      some (shake256 (p.params.rawBytes x.media (p.sample x.media stride)) 16) else none
  let s1 := s.giveUnit x.number p.picture (mkUnit 7 (pictureEndBody p.picture dg))
  match s1.stream x.number with
  | none => s1
  | some y =>
    match y.pic p.picture with
    | none => s1
    | some q =>
      let z := { y.complete q stride with sizes := (q.picture, 8 * q.bytes) :: y.sizes.take 3 }
      let s2 := s1.setStream z
      let s3 := if x.params.archive = 0 then
          (match z.oldest.bind z.pic with | some r => s2.emitUnits z r.unitsOut | none => s2)
        else s2.holdPicture x.number q.picture q.unitsOut
      match s3.stream x.number with
      | some v =>
        if q.picture = 2 ^ 24 - 1 ∧ v.state = .open_ then
          let s4 := s3.writeEnd v
          (match s4.stream x.number with | some u => s4.setStream { u with state := .ended } | none => s4)
        else s3
      | none => s3

/-- The damage a picture reports: of its lowest damaged tile, the first in order (10 R243). -/
def Pic.report (p : Pic) : Option Damage :=
  let key := fun (d : Damage) => d.tile.getD 0
  p.damage.foldl (fun m d => match m with
    | some a => if key d < key a then some d else some a
    | none => some d) none

/-- The record of a decoded picture's metadata, ahead of its output (12 R277; 14 R320). -/
def Stream.metaRecord (x : Stream) (p : Pic) (incomplete : Bool) : List Out :=
  if p.hasMeta then [.record x.number (outRecord 1 p.picture (b01 incomplete) [] p.metadata)] else []

/-- The records of a decoded picture (14 R320). -/
def Stream.outRecords (x : Stream) (p : Pic) (raw : List Byte) (incomplete : Bool) (dg : Option (List Byte)) : List Out :=
  let f := b01 incomplete
  x.metaRecord p incomplete ++
    [.record x.number (outRecord 0 p.picture (f + 2 * b01 dg.isSome + 4) (dg.getD []) raw)]

/-- A picture of a decoding stream completes. -/
def State.completeDecode (s : State) (x : Stream) (p : Pic) : State :=
  let stride := s.strideOf x
  let q := p.params
  let inc := incompleteFor x.firstPicture p.picture q.refreshN
  let show_ := !inc || q.emitIncomplete == 1
  match p.report with
  | some d => s.damageStream x.number d
  | none =>
    if x.latent then
      (s.setStream (x.complete p stride)).emits
        (if show_ then x.metaRecord p inc ++ (markLast p.unitsOut).map fun r => .record x.number r else [])
    else
      let raw := q.rawBytes x.media (p.sample x.media stride)
      let dg := if p.digestIn.isSome || (q.digestReport == 1 && show_) then some (shake256 raw 16) else none
      if q.digestCheck = 1 ∧ inc = false ∧ p.digestIn.isSome ∧ p.digestIn ≠ dg then
        s.damageStream x.number ⟨p.picture, none, 0x50, 0⟩
      else
        let y := { x.complete p stride with
          digestRep := match dg with
            | some b => some (p.picture, inc, b)
            | none => x.digestRep }
        (s.setStream y).emits (if show_ then x.outRecords p raw inc dg else [])

/-- A picture whose stop waits for the pictures before it (09 R206, R215; 10 R242, R243): when none is left before it, the stream
stops. -/
def State.settleDoom (s : State) (n : Nat) : State :=
  match s.stream n with
  | none => s
  | some x =>
    match x.pics.find? (·.doom.isSome) with
    | none => s
    | some p =>
      if x.pics.any fun r => r.picture < p.picture then s
      else
        match p.doom, p.report with
        | some .streamDamaged, some d => s.damageStream n d
        | some st, _ => s.haltStream n st
        | none, _ => s

/-- PICTURE_COMPLETE (10 R226): the oldest started picture, once each of its tiles has completed or is damaged. -/
def execPictureComplete (stream : Nat) (s : State) : Host.Outcome State Fault Refusal :=
  match s.stream stream with
  | none => .next s
  | some x =>
    if s.firmwareRuns = false then .next s
    else if x.state = .stopped then .next (s.settleClose stream)
    else
      match x.oldest.bind x.pic with
      | none => .next (s.settleClose stream)
      | some p =>
        let nt := p.params.tiles x.media (s.strideOf x)
        let done := (List.range nt).all fun k =>
          (p.tiles.any fun w => w.tile == k && w.done) || (x.dir == .decode && p.damage.any fun d => d.tile == some k)
        if done = false then .next s
        else
          let s1 := s.notePicture x p
          match s1.stream stream with
          | none => .next s1
          | some y =>
            let s2 := if x.dir = .encode then s1.completeEncode y p else s1.completeDecode y p
            .next ((s2.settleDoom stream).settleClose stream)

end Sys2Proof.Machine
end

