-- ==== Sys2Proof/Machine/Jobs.lean ====
section
/-! DEFINITION. Jobs: lists, training and lossless (13 R294, R301; 06 R140, R142; 07 R168 to R179; 09 R197, R216 to R221; 05 R99). -/

namespace Sys2Proof.Machine

/-! ### Places -/

/-- Units of dies in a mask that firmware may use, by die and then unit: those of regions in service (06 R116). -/
def State.usableUnits (s : State) (mask : Nat) : List (Nat × Nat) :=
  ((List.range s.dieCount).filter (bit mask)).flatMap fun d =>
    ((List.range 256).filter (s.unitTakes d)).map fun u => (d, u)

/-- The lowest context of unit `i` of a list of units, counted round, that firmware may give and `used` does not hold. -/
def State.freeContext (s : State) (units : List (Nat × Nat)) (i : Nat) (used : List ThreadId) : Option ThreadId :=
  match units[i % max 1 units.length]? with
  | some u => ((List.range 16).map fun c => (⟨u.1, u.2, c⟩ : ThreadId)).find? fun t =>
      !used.contains t && (s.thread t).all s.ownerGone
  | none => none

/-- Contexts for places `i`, `i + 1`, … in order; none when one is missing. -/
def State.contexts (s : State) (units : List (Nat × Nat)) : List Nat → List ThreadId → Option (List ThreadId)
  | [], used => some used
  | i :: is, used =>
    match s.freeContext units i used with
    | some t => s.contexts units is (used ++ [t])
    | none => none

/-- The dies of a mask. -/
def maskDies (s : State) (mask : Nat) : List Nat := (List.range s.dieCount).filter (bit mask)

/-- A job added, its reservation held and its RESULT drawn (13 R301 gives RESULT no meaning). -/
def State.addJob (s : State) (j : Job) (dies : List Nat) : State :=
  let (r, s1) := s.draw
  let s2 := s1.reservePools dies j.number j.resLp j.resDs
  { s2 with jobs := s2.jobs ++ [{ j with state := 1, result := r % 2 ^ 64 }] }

/-! ### LIST (13 R301) -/

/-- Whether a list that frames holds CDFGEN (05 R99). -/
def State.hasCdfgen (s : State) (a : Nat) : Bool :=
  let n := s.numAt (a + 2) 2
  let rd := fun off => s.byteAt (a + off)
  s.accessOk ⟨a, 32⟩ && s.accessOk ⟨a, s.numAt (a + 4) 4⟩ && n ≤ 4096 && sizesFit rd (s.numAt (a + 4) 4) n 32 &&
    (listOps rd n 0 32).any fun d => (rd d.2).toNat == 0x1C

/-- The checks of a LIST job: FIELD of the first parameter that fails. -/
def State.listJobFault (s : State) (ps : List Byte) : Option Nat :=
  let table := beAt ps 4 8
  let n := beAt ps 12 4
  let mask := beAt ps 24 1
  let lists := (List.range n).map fun i => s.numAt (table + 8 * i) 8
  if 3 < beAt ps 1 1 then some 1
  else if beAt ps 2 2 ≠ 0 then some 2
  else if !s.accessOk ⟨table, 8 * n⟩ || (s.partnerOf ⟨table, 1⟩).isSome then some 4
  else if n = 0 then some 12
  else if mask = 0 ∨ 2 ^ s.dieCount ≤ mask then some 24
  else if beAt ps 25 3 ≠ 0 then some 25
  else if lists.any s.hasCdfgen then some 4
  else none

/-- A LIST job submitted: list i goes to unit i of its dies, counted round, each on a context of its own (log 26). -/
def State.submitList (s : State) (ps owner : List Byte) : State × Answer :=
  if ps.length ≠ 28 then (s, .fail .badParam)
  else
    match s.listJobFault ps with
    | some f => (s, .fail .badParam f)
    | none =>
      let n := beAt ps 12 4
      let mask := beAt ps 24 1
      let lp := beAt ps 16 4
      let ds := beAt ps 20 4
      let dies := maskDies s mask
      let (num, s1) := s.newNumber
      if !s.poolsHave dies lp ds then (s, .fail .noResource)
      else
        match if 4096 * s.dieCount < n then none else s.contexts (s.usableUnits mask) (List.range n) [] with
        | none => (s, .fail .noResource)
        | some ts =>
          let j : Job := {
            number := num, owner := owner, kind := .list, cls := beAt ps 1 1, params := ps, count := n, resLp := lp, resDs := ds
            dies := mask }
          let s2 := s1.addJob j dies
          let s3 := ts.zipIdx.foldl (fun (u : State) (e : ThreadId × Nat) =>
            let v := u.bind e.1 num true j.cls
            match v.thread e.1 with
            | some th => v.queueList th (s.numAt (beAt ps 4 8 + 8 * e.2) 8)
            | none => v) s2
          (s3, .good (beBytes 4 num))

/-! ### TRAIN (09 R197, R216 to R220) -/

/-- Where the fields of R216 stand in the parameters. -/
structure TrainAsk where
  digest : List Byte
  layers : Nat
  rank : Nat
  seed : Nat
  trainId : Nat
  iterations : Nat
  batch : Nat
  data : Nat
  lambda : Nat
  b1 : Nat
  b2 : Nat
  eps : Nat
  /-- FROM and LR as far as they are used -/
  lr : List (Nat × Nat)
  gfmt : Nat
  start : Nat
  output : Nat
  deriving DecidableEq, Repr

/-- The pairs in use: the first, and each that follows until one is zero. -/
def lrPairs (ps : List Byte) (o : Nat) : List (Nat × Nat) :=
  let all := (List.range 16).map fun i => (beAt ps (o + 8 * i) 4, beAt ps (o + 8 * i + 4) 4)
  all.take 1 ++ (all.drop 1).takeWhile (· != (0, 0))

def trainAsk (ps : List Byte) : TrainAsk :=
  let at_ := beAt ps
  { digest := slice ps 4 32, layers := at_ 36 8, rank := at_ 44 1, seed := at_ 45 8, trainId := at_ 53 4, iterations := at_ 57 4
    batch := at_ 61 2, data := at_ 63 8, lambda := at_ 71 4, b1 := at_ 75 2, b2 := at_ 77 2, eps := at_ 79 4, lr := lrPairs ps 83
    gfmt := at_ 211 1, start := at_ 212 8, output := at_ 220 8 }

/-- The trained layers of a mask. -/
def trainLayers (mask : Nat) : List Nat := (List.range 64).filter (bit mask)

/-- COUT and K of an adaptable layer. -/
def layerDims (img : List Byte) (a : Nat) : Nat × Nat :=
  match (imageAdapt img)[a]?.bind fun e => imageWeight img e.1 with
  | some w => (w.cout, w.k)
  | none => (0, 0)

/-- Elements of U and V of every trained layer. -/
def factorCount (img : List Byte) (t : TrainAsk) : Nat :=
  ((trainLayers t.layers).map fun a => t.rank * ((layerDims img a).1 + (layerDims img a).2)).sum

/-- Bytes of a job's result area (09 R220; 12 R275). -/
def outputLength (img : List Byte) (t : TrainAsk) : Nat :=
  32 + 5 * factorCount img t + 28 * (trainLayers t.layers).length

/-- The first field of a TRAIN job out of range, its profile known. -/
def State.trainFault (s : State) (ps img : List Byte) : Option Nat :=
  let t := trainAsk ps
  let adapt := imageAdapt img
  let near := fun (a n : Nat) => s.accessOk ⟨a, n⟩ && (s.partnerOf ⟨a, 1⟩).isNone
  let unused := (List.range (16 - t.lr.length)).all fun i => beAt ps (83 + 8 * (t.lr.length + i)) 8 == 0
  let rising := (t.lr.zip (t.lr.drop 1)).all fun p => p.1.1 < p.2.1
  (([(36, t.layers != 0 && t.layers < 2 ^ adapt.length),
     (44, 1 ≤ t.rank && (trainLayers t.layers).all fun a => t.rank ≤ (adapt.getD a (0, 0)).2),
     (57, 1 ≤ t.iterations && t.iterations ≤ 2 ^ 20), (61, 1 ≤ t.batch && t.batch ≤ 4096),
     (63, near t.data (8 * t.iterations * t.batch)), (71, positiveNormal t.lambda), (79, t.eps == 0 || positiveNormal t.eps),
     (83, (t.lr.headD (0, 0)).1 == 0 && rising && unused), (211, t.gfmt ≤ 1 || t.gfmt == 0xFF),
     (212, t.start == 0 || near t.start (4 * factorCount img t)), (220, near t.output (outputLength img t))] : List (Nat × Bool)).find?
    (! ·.2)).map (·.1)

/-- V's starting element (09 R197): CENTRED of 06 R145 times V_INIT_SCALE, rounded to FP32. -/
def initialV (img : List Byte) (t : TrainAsk) (layer e : Nat) : Nat :=
  let c := sectionBytes img 6 0
  let x := sesame (leAt c 12 8) t.trainId layer 0xFFFFFFFF e
  (convertEV .fp32 0 false true 0 ((decodeFloat .fp32 (rngCode 2 x.toNat)).mul (decodeFloat .fp32 (leAt c 20 4)))).code

/-- The factors a job begins with. -/
def State.initialFactors (s : State) (img : List Byte) (t : TrainAsk) : List Factor :=
  let sizes := (trainLayers t.layers).map fun a => (a, t.rank * (layerDims img a).1, t.rank * (layerDims img a).2)
  sizes.zipIdx.map fun e =>
    let (a, nu, nv) := e.1
    let o := t.start + 4 * ((sizes.take e.2).map fun z => z.2.1 + z.2.2).sum
    let moment := fun (i n : Nat) => ({
      codes := (List.range n).map fun k => (Config.initialCode t.digest a i k).toNat
      packets := (List.range (ceilDiv n 64)).map fun k =>
        ((Config.initialScale t.digest a i k).toNat, (Config.initialZero t.digest a i k).toInt) } : Moment)
    { layer := a
      u := if t.start = 0 then List.replicate nu 0 else (List.range nu).map fun k => s.numAt (o + 4 * k) 4
      v := if t.start = 0 then (List.range nv).map (initialV img t a) else (List.range nv).map fun k => s.numAt (o + 4 * (nu + k)) 4
      um := moment 0 nu, uv := moment 1 nu, vm := moment 2 nv, vv := moment 3 nv }

/-- Bytes of a job's masters and moments with their packets (03 R70). -/
def factorBytes (img : List Byte) (t : TrainAsk) : Nat :=
  ((trainLayers t.layers).map fun a => ([(layerDims img a).1, (layerDims img a).2].map fun n =>
    6 * (t.rank * n) + 2 * (8 * ceilDiv (t.rank * n) 64 + 8)).sum).sum

/-- The three list groups of an image's TRAIN section. -/
def imageTrain (img : List Byte) : List Template × List Template × List Template :=
  match findSection img 6 0 with
  | some s => trainGroups img s
  | none => ([], [], [])

/-- Granules of deep SRAM that the stages of a TRAIN job take on each die (06 R140; log 24). -/
def trainStages (img : List Byte) : Nat :=
  let g := imageTrain img
  ((stageBuffers img (g.1 ++ g.2.1 ++ g.2.2)).map fun b => granules b.2).sum

/-- A TRAIN job submitted (09 R216, R221): contexts for the tiles of a batch, as far as there are free ones. -/
def State.submitTrain (s : State) (ps owner : List Byte) : State × Answer :=
  if ps.length ≠ 228 then (s, .fail .badParam)
  else if beAt ps 1 1 ≠ 3 then (s, .fail .badParam 1)
  else if beAt ps 2 2 ≠ 0 then (s, .fail .badParam 2)
  else
    let t := trainAsk ps
    match s.slotOf t.digest with
    | none => (s, .fail .profileMissing 4)
    | some slot =>
      let img := (s.slotImage slot).getD []
      if (findSection img 6 0).isNone then (s, .fail .badParam 4)
      else
        match s.trainFault ps img with
        | some f => (s, .fail .badParam f)
        | none =>
          let dies := List.range s.dieCount
          let lp := granules (factorBytes img t)
          let ds := trainStages img
          if !s.poolsHave dies lp ds then (s, .fail .noResource)
          else
            let (num, s1) := s.newNumber
            let j : Job := {
              number := num, owner := owner, kind := .train, cls := 3, params := ps, slot := some slot, count := t.iterations
              resLp := lp, resDs := ds, dies := 2 ^ s.dieCount - 1, factors := s.initialFactors img t }
            let units := s.usableUnits j.dies
            let ts := ((List.range (min t.batch units.length)).filterMap fun i => s.freeContext units i [])
            (ts.foldl (fun u t => u.bind t num true 3) (s1.addJob j dies), .good (beBytes 4 num))

/-- Whether every die that a LIST job may run on is in recovery (13 R299 check 8). -/
def State.listRecovering (s : State) (ps : List Byte) : Bool :=
  let dies := maskDies s (beAt ps 24 1)
  beAt ps 0 1 == 0 && ps.length == 28 && dies != [] && dies.all s.dieRecovering

/-- JOB_SUBMIT, by KIND. -/
def State.submitJob (s : State) (d : Datagram) (x : Session) : State × Answer :=
  if s.listRecovering d.params then (s, .fail .recovering)
  else
  match beAt d.params 0 1 with
  | 0 => s.submitList d.params x.hostKey
  | 1 => s.submitTrain d.params x.hostKey
  | _ => (s, .fail .badParam 0)

/-- JOB_SUBMIT of KIND LIST. -/
def execJobSubmitList (d : Datagram) (s : State) : Host.Outcome State Fault Refusal :=
  .next (s.serve d 0x0030 false none none fun x t => t.submitJob d x)

/-- JOB_SUBMIT of KIND TRAIN. -/
def execJobSubmitTrain (d : Datagram) (s : State) : Host.Outcome State Fault Refusal :=
  .next (s.serve d 0x0030 false none none fun x t => t.submitJob d x)

/-- FP32 bits of a value. -/
def fp32Of (v : EV) : Nat := (convertEV .fp32 0 false true 0 v).code

/-- One IEEE 754 FP32 subtraction. -/
def fpSub (a b : EV) : EV := fpAdd a b.neg

/-- What an update takes: β1, β2, ε and the learning rate. -/
structure Update where
  b1 : EV
  b2 : EV
  eps : EV
  lr : EV
  deriving DecidableEq, Repr

/-- The update of a job for an iteration, the section's defaults in place of zeros (09 R197, R218). -/
def updateOf (img : List Byte) (t : TrainAsk) (i : Nat) : Update :=
  let c := sectionBytes img 6 0
  let beta := fun (b o : Nat) => EV.num ((if b = 0 then leAt c o 2 else b : Nat) : Int) 65536 0 false
  let lr := ((t.lr.filter fun p => p.1 ≤ i).getLastD (0, 0)).2
  { b1 := beta t.b1 0, b2 := beta t.b2 2, eps := decodeFloat .fp32 (if t.eps = 0 then leAt c 4 4 else t.eps)
    lr := decodeFloat .fp32 lr }

/-- The gradient format of a job. -/
def gradFormat (img : List Byte) (t : TrainAsk) : Fmt :=
  if (if t.gfmt = 0xFF then leAt (sectionBytes img 6 0) 8 1 else t.gfmt) = 0 then .e5m2 else .lns8

/-- One element of one iteration (09 R218): the new master, first and second moment. -/
def updateOne (p : Update) (g w m v : EV) : EV × EV × EV :=
  let mt := fpAdd (fpMul p.b1 m) (fpMul (fpSub .one p.b1) g)
  let vt := fpAdd (fpMul p.b2 v) (fpMul (fpSub .one p.b2) (fpMul g g))
  let rs := decodeFloat .bf16 (roundSRes .bf16 false .one 0 (sfn .rsqrt (fpAdd vt p.eps))).code
  (fpSub w (fpMul p.lr (fpMul mt rs)), mt, vt)

/-- Values converted to a scaled format with one scale by 03 R63: the scale, the zero point and the codes. -/
def scanCodes (f : Fmt) (vals : List EV) : (Nat × Int) × List Nat :=
  let p := scanScale f .one (vals.filter (! ·.nonfinite))
  (p, vals.map fun v => (convertEV f 0 true false p.2 (v.divPos (decodeFloat .fp32 p.1))).code)

/-- A list in blocks of a length. -/
def inBlocks {α : Type} (n : Nat) : Nat → List α → List (List α)
  | 0, _ => []
  | k + 1, l => if l.isEmpty then [] else l.take n :: inBlocks n k (l.drop n)

/-- A moment after its requantisation: INT8 blocks of 64 over the elements of the factor in their order (03 R70; DEDUCED, log 91). -/
def Moment.of (l : List EV) : Moment :=
  let bs := (inBlocks 64 (l.length / 64 + 1) l).map (scanCodes .int8)
  { codes := bs.flatMap (·.2), packets := bs.map (·.1) }

/-- The values a moment reads back as. -/
def Moment.values (m : Moment) : List EV :=
  m.codes.zipIdx.map fun c => roundFP32 (backValue .int8 (m.packets.getD (c.2 / 64) (0, 0)) c.1)

/-- A tensor of factors after an iteration: the masters and both moments; `g` the gradient's values in FP32. -/
def updateAll (p : Update) (g : List EV) (w : List Nat) (m v : Moment) : List Nat × Moment × Moment :=
  let ms := m.values
  let vs := v.values
  let out := (List.range w.length).map fun i =>
    updateOne p (roundFP32 (g.getD i .zero)) (decodeFloat .fp32 (w.getD i 0)) (ms.getD i .zero) (vs.getD i .zero)
  (out.map fun o => fp32Of o.1, .of (out.map (·.2.1)), .of (out.map (·.2.2)))

/-- A layer's factors after an iteration. -/
def Factor.update (f : Factor) (p : Update) (gu gv : List EV) : Factor :=
  let (u, um, uv) := updateAll p gu f.u f.um f.uv
  let (v, vm, vv) := updateAll p gv f.v f.vm f.vv
  { f with u := u, um := um, uv := uv, v := v, vm := vm, vv := vv }

/-- The delta record of a layer's factors (09 R220; 12 R275). -/
def Factor.record (f : Factor) (rank cout k : Nat) : List Byte :=
  let (pu, cu) := scanCodes .int8 (f.u.map (decodeFloat .fp32))
  let (pv, cv) := scanCodes .int8 (f.v.map (decodeFloat .fp32))
  [byte f.layer, byte rank, 0, 0] ++ leBytes 2 cout ++ zeros 2 ++ leBytes 4 k ++ packetBytes pu.1 pu.2 0 0 ++ packetBytes pv.1 pv.2 0 0 ++
    cu.map byte ++ cv.map byte

/-- The result area of a TRAIN job (09 R220). -/
def trainOutput (img : List Byte) (rank done : Nat) (cancelled : Bool) (fs : List Factor) : List Byte :=
  let masters := fs.flatMap fun f => (f.u ++ f.v).flatMap (leBytes 4)
  let recs := fs.flatMap fun f => f.record rank (layerDims img f.layer).1 (layerDims img f.layer).2
  leBytes 4 (b01 cancelled) ++ leBytes 4 done ++ leBytes 8 32 ++ leBytes 8 (32 + masters.length) ++ zeros 8 ++ masters ++ recs

/-- A TRAIN job past an iteration: its next one begins, or OUTPUT is written and the job ends (09 R220, R221). -/
def State.trainOn (s : State) (j : Job) (img : List Byte) (fs : List Factor) : State :=
  let t := trainAsk j.params
  let j1 := { j with done := j.done + 1, factors := fs }
  if j.cancel ∨ j1.done = j.count then
    let s1 := s.put t.output (trainOutput img t.rank j1.done j.cancel fs)
    ((s1.setJob { j1 with state := if j.cancel then 4 else 2 }).releasePools j.number).unbindThreads j.number
  else s.setJob j1

/-! ### An iteration (09 R217, R218)

An iteration is done as a whole where it ends: its lists run on a context of the job one operation after another, which by 06 R147 gives
the bits that any placement of its tiles gives (DESIGN CHOICE, log 91). -/

/-- A list's operations run in order for a thread: the state after them; `none` as error: one of them must wait. -/
def runOps (th : Thread) (c : CurList) : List TOp → State → Except (Option Stop) State
  | [], s => .ok s
  | o :: os, s =>
    let here := { c with opIndex := o.index, offset := o.off }
    match opWork o.row.code with
    | none => .error (some { status := .badOpcode })
    | some f =>
      match s.judge th here o.row.code o.op f with
      | .error x => .error (some x)
      | .ok w =>
        if ((s.firstFenced (some th.id) (w.reads ++ w.writes)).or (s.firstShut th.id (w.reads ++ w.writes))).isSome then .error none
        else
          let e := w.run s
          match e.stop with
          | some x => .error (some x)
          | none => runOps (th.keep e) c os (s.applyEff th here e)

/-- What an iteration is made of: the job, its parameters, its profile and how firmware runs it. -/
structure Iteration where
  job : Job
  ask : TrainAsk
  img : List Byte
  run : TrainRun

/-- The address written into a field relocated to a buffer identifier: a list of a job receives base weights (09 R195). -/
def Iteration.fieldValue (n : Iteration) (input id plane : Nat) : Nat :=
  let base := fun (w : Nat) => n.job.slot.getD 0 * 2 ^ 56 + w
  match id / 65536 with
  | 0 => if id = n.run.input then input else boundAt n.run.buffers id plane
  | 1 => base (id % 65536)
  | _ => base ((((imageAdapt n.img)[id % 65536]?).map (·.1)).getD 0)

/-- A list of the iteration for tile `b` of its batch: addresses, header and the counter fields of CENTRED noise filled (09 R217). -/
def Iteration.bytes (n : Iteration) (input b : Nat) (m : Template) : List Byte :=
  let l := m.filled n.img (n.fieldValue input)
  let head := l.take 8 ++ leBytes 4 n.job.number ++ leBytes 4 b ++ leBytes 3 n.job.done ++ l.drop 19
  let noise := leBytes 8 n.ask.seed ++ leBytes 4 n.ask.trainId ++ leBytes 2 b ++ leBytes 4 n.job.done ++ zeros 8
  (opsOf n.run.thread head).foldl (fun u o =>
    if o.row.code = 0x23 ∧ bits o.op.own 208 8 = 2 then u.take o.ownAt ++ noise ++ u.drop (o.ownAt + 26) else u) head

/-- The tensors of a list that stand for a buffer. -/
def namedIn (m : Template) (ops : List TOp) (id : Nat) : List Tensor :=
  ops.flatMap fun o => o.tensorsAt.filterMap fun e => if m.idAt e.2.1 = some id then some e.2.2 else none

/-- LAMBDA and the masters, in the FP32 tensors that a list names for them. -/
def Iteration.values (n : Iteration) (m : Template) (ops : List TOp) : List (Tensor × List Nat) :=
  let at_ := fun (id : Nat) (l : List Nat) => (namedIn m ops id).filterMap fun d => if d.fmt = .fp32 then some (d, l) else none
  at_ n.run.lambda [n.ask.lambda] ++ (n.run.factors.zip (n.job.factors.flatMap fun f => [f.u, f.v])).flatMap fun e => at_ e.1 e.2

/-- One list of the iteration run for a tile. -/
def Iteration.runList (n : Iteration) (th : Thread) (input b : Nat) (m : Template) (s : State) : Except (Option Stop) State :=
  let bs := n.bytes input b m
  let ops := opsOf n.run.thread bs
  let vals := n.values m ops
  if !(((⟨n.run.addr, bs.length⟩ : Span) :: vals.flatMap fun v => v.1.spans).all fun sp =>
      s.accessOk sp && (s.partnerOf sp).isNone && (s.firstFenced (some th.id) [sp]).isNone) then .error none
  else
    let s1 := vals.foldl (fun u v => u.writeCodes v.1 fun c y x => v.2.getD (v.1.index c y x) 0) (s.put n.run.addr bs)
    match s1.frameList th n.run.addr with
    | .error e => .error (some (listStop n.run.addr e))
    | .ok c => runOps th c ops s1

/-- The XACC tensor that a tile's lists leave at a buffer, with the fraction of the operation that writes it (09 R218). -/
def Iteration.partial_ (n : Iteration) (input b id : Nat) : Option (Tensor × Nat) :=
  ((imageTrain n.img).2.1.flatMap fun m => (opsOf n.run.thread (n.bytes input b m)).flatMap fun o => o.tensorsAt.filterMap fun e =>
    if e.1 = .written ∧ e.2.2.fmt = .xacc ∧ m.idAt e.2.1 = some id then some (e.2.2, o.op.f) else none).getLast?

/-- The values of a tensor in the order C, H, W. -/
def State.values (s : State) (t : Tensor) (f : Nat) : List EV := t.coords.map fun p => s.real t f p.1 p.2.1 p.2.2

/-- Where tile `b` of the iteration finds its input (09 R216). -/
def Iteration.input (n : Iteration) (s : State) (b : Nat) : Nat := s.numAt (n.ask.data + 8 * (n.job.done * n.ask.batch + b)) 8

/-- A tile's forward and backward lists run; its partial gradients are added to those of the tiles before it. -/
def Iteration.tile (n : Iteration) (th : Thread) (b : Nat) (a : State × List (List EV)) : Except (Option Stop) (State × List (List EV)) :=
  let g := imageTrain n.img
  let input := n.input a.1 b
  match (g.1 ++ g.2.1).foldlM (fun s m => n.runList th input b m s) a.1 with
  | .error e => .error e
  | .ok s =>
    match n.run.grads.mapM (n.partial_ input b) with
    | none => .error none
    | some ds =>
      let vals := ds.map fun d => s.values d.1 d.2
      .ok (s, if b = 0 then vals else (a.2.zip vals).map fun p => (p.1.zip p.2).map fun e => e.1.addExact e.2)

/-- The block of a gradient: that of the gradient of its size which the update lists read, else 64 (03 R70; log 91). -/
def gradBlock (img : List Byte) (f : Fmt) (count : Nat) : Nat :=
  let g := (imageTrain img).2.2.flatMap fun m => (m.opsOf img).flatMap fun o => o.tensorsAt.map (·.2.2)
  ((g.find? fun d => d.fmt == f && d.gran == 2 && d.count == count && 64 ≤ d.block && d.block ≤ 256).map Tensor.block).getD 64

/-- A gradient converted once into its format, as it reads back (09 R218). -/
def gradBack (f : Fmt) (block : Nat) (l : List EV) : List EV :=
  (inBlocks block (l.length / block + 1) l).flatMap fun b =>
    let q := scanCodes f b
    q.2.map (backValue f q.1)

/-- TRAIN_ITERATION_END (09 R217, R218, R221): every tile of the batch, the reduction of the gradients, and the update. A job stops with
what stops one of its lists; nothing happens while its context or its memory is under recovery. -/
def execTrainIterationEnd (job : Nat) (run : TrainRun) (s : State) : Host.Outcome State Fault Refusal :=
  match s.job job, s.thread run.thread with
  | some j, some th =>
    match j.slot.bind s.slotImage with
    | none => .next s
    | some img =>
      let t := trainAsk j.params
      let n : Iteration := { job := j, ask := t, img := img, run := run }
      if j.kind ≠ .train ∨ j.state ≠ 1 ∨ s.firmwareRuns = false ∨ th.isJob = false ∨ th.binding ≠ job ∨ th.state = .stopped ∨
          run.factors.length ≠ 2 * j.factors.length ∨ run.grads.length ≠ run.factors.length then .next s
      else
        match (List.range t.batch).foldlM (fun a b => n.tile th b a) (s, []) with
        | .error (some x) => .next (s.stopWith th x).wakePools
        | .error none => .next s
        | .ok (s1, sums) =>
          let f := gradFormat img t
          let gs := sums.map fun g => gradBack f (gradBlock img f g.length) g
          .next (s1.trainOn j img (j.factors.zipIdx.map fun (e : Factor × Nat) =>
            e.1.update (updateOf img t j.done) (gs.getD (2 * e.2) []) (gs.getD (2 * e.2 + 1) [])))
  | _, _ => .next s

/-! ### Status and cancellation -/

/-- STATE of a job (13 R301): queued until the first of its lists begins or an engine takes its operation. -/
def State.jobState (s : State) (j : Job) : Nat :=
  let mine := (s.threads ++ s.recoveries.flatMap fun r => r.suspects.map (·.held)).filter fun t => t.isJob && t.binding == j.number
  let begun := mine.any fun (t : Thread) =>
    if j.kind = .list then t.cur.isSome else t.out.any fun o => o.taken.isSome || o.chunks != 0 || o.done
  if j.state = 1 ∧ j.done = 0 ∧ j.kind ≠ .train ∧ begun = false then 0 else j.state

/-- JOB_STATUS (13 R301). -/
def execJobStatus (d : Datagram) (s : State) : Host.Outcome State Fault Refusal :=
  .next (s.serve d 0x0031 false none none fun _ t =>
    if d.params.length ≠ 4 then (t, .fail .badParam)
    else
      match t.job (beAt d.params 0 4) with
      | some j => (t, .good ([byte (t.jobState j), 0] ++ beBytes 2 (statusCode j.status) ++ beBytes 4 j.done ++ beBytes 8 j.result))
      | none => (t, .fail .badParam 0))

/-- JOB_CANCEL (09 R221; 13 R294, R301): it takes effect at the next list or iteration boundary; a repeat is answered alike. -/
def execJobCancel (d : Datagram) (s : State) : Host.Outcome State Fault Refusal :=
  .next (s.serve d 0x0032 false ((s.job (beAt d.params 0 4)).map (·.owner)) none fun _ t =>
    if d.params.length ≠ 4 then (t, .fail .badParam)
    else
      match t.job (beAt d.params 0 4) with
      | some j =>
        let t1 := t.setJob { j with cancel := true }
        (if j.state = 1 ∧ j.kind = .list then (t1.cancelJob j.number).wakePools else t1, .good [])
      | none => (t, .fail .badParam 0))

/-! ### Lossless jobs (07 R168 to R179) -/

/-- A byte range in the parameters: base and length, and whether its reserved bits are zero (13 R301). -/
def brAt (ps : List Byte) (o : Nat) : Span × Bool := (⟨beAt ps o 8, beAt ps (o + 8) 4⟩, beAt ps (o + 12) 4 == 0)

/-- A lossless job's ranges, checked: its reads and writes with the places they are named. -/
structure LzAsk where
  pack : Bool
  cls : Nat
  inp : Span
  out : Span
  result : Nat
  state : Nat
  tokenOut : Nat
  deriving DecidableEq, Repr

/-- What a job writes, with the parameter that names each. -/
def LzAsk.writes (a : LzAsk) (oo orr os ok : Nat) : List (Nat × Span) :=
  [(oo, a.out), (orr, ⟨a.result, 32⟩)] ++ (if a.pack then [(os, ⟨a.state, stateAreaLen⟩)] else []) ++
    (if a.tokenOut = 0 then [] else [(ok, ⟨a.tokenOut, 40⟩)])

/-- Whether a span lies in this part's memory. -/
def State.nearSpan (s : State) (sp : Span) : Bool := s.accessOk sp && (sp.len == 0 || (s.partnerOf sp).isNone)

/-- The pools a STATE_AREA is counted in: its die, and whether it lies in deep SRAM (07 R169). -/
def State.areaHome (s : State) (a : Nat) : Nat × Bool :=
  match locate s.dieCount a with
  | .deepSram d _ => (d, true)
  | .lpddr d _ => (d, false)
  | _ => (0, false)

/-- The number of granules of a STATE_AREA. -/
def areaGranules : Nat := ceilDiv stateAreaLen 65536

/-- A lossless job begins: what the engine does is known and takes effect, and the job runs until its operation completes (log 13,
log 26). -/
def State.startLz (s : State) (ps owner : List Byte) (a : LzAsk) (reads writes : List Span) (depth total : Nat) (window : List Byte)
    (r : LzRun) : State × Answer :=
  let home := s.areaHome a.state
  let lp := if a.pack ∧ home.2 = false then areaGranules else 0
  let ds := if a.pack ∧ home.2 then areaGranules else 0
  let dies := if a.pack then [home.1] else []
  let (num, s1) := s.newNumber
  if !s.poolsHave dies lp ds then (s, .fail .noResource)
  else
    let units := s.usableUnits (2 ^ s.dieCount - 1)
    match s.freeContext units num [] with
    | none => (s, .fail .noResource)
    | some t =>
      let j : Job := {
        number := num, owner := owner, kind := if a.pack then .lzPack else .lzUnpack, cls := a.cls, params := ps, count := 1
        resLp := lp, resDs := ds, dies := 2 ^ home.1 }
      let s2 := (s1.addJob j dies).bind t num true a.cls
      let eff := lzEff (!a.pack) depth total a.out.base a.result a.tokenOut window r
      let s3 := (s2.putRuns eff.runs).unitEvents t eff.events
      let item : Outst := { engine := .match_, opIndex := 0, opcode := if a.pack then 0x2C else 0x2D, reads := reads, writes := writes }
      let s4 := match s3.thread t with
        | some th => (match eff.stop with
          | some x => s3.stopWith th x
          | none => (s3.setThread { th with state := .ready, out := [item] }).serveEngine t .match_ none)
        | none => s3
      (s4, .good (beBytes 4 num))

/-- The first of a job's spans that is not in this part's memory; and whether one lies in a domain under recovery, or an output
meets an input. -/
def State.lzSpans (s : State) (reads writes : List (Nat × Span)) : Except (Status × Nat) Unit :=
  match (reads ++ writes).find? fun e => !s.nearSpan e.2 with
  | some e => .error (.badParam, e.1)
  | none =>
    if (s.firstFenced none ((reads ++ writes).map (·.2))).isSome then .error (.recovering, 0xFFFFFFFF)
    else if spansMeet (reads.map (·.2)) (writes.map (·.2)) then .error (.badParam, 0xFFFFFFFF)
    else .ok ()

/-- LZ_JOB (07 R170 to R176). -/
def State.lzJob (s : State) (ps owner : List Byte) : State × Answer :=
  let (inp, inOk) := brAt ps 4
  let (out, outOk) := brAt ps 20
  let depth := beAt ps 2 2
  let a : LzAsk := {
    pack := beAt ps 0 1 == 0, cls := beAt ps 1 1, inp := inp, out := out, result := beAt ps 36 8, state := beAt ps 44 8
    tokenOut := beAt ps 52 8 }
  if ps.length ≠ 60 then (s, .fail .badParam)
  else if 1 < beAt ps 0 1 then (s, .fail .badParam 0)
  else if 3 < a.cls then (s, .fail .badParam 1)
  else if a.pack ∧ (depth = 0 ∨ 256 < depth) then (s, .fail .badParam 2)
  else if !inOk then (s, .fail .badParam 16)
  else if !outOk then (s, .fail .badParam 32)
  else if a.pack ∧ stateAreaOk s a.state = false then (s, .fail .badParam 44)
  else
    let reads := [(4, inp)]
    let writes := a.writes 20 36 44 52
    match s.lzSpans reads writes with
    | .error (st, f) => (s, .fail st f)
    | .ok _ =>
      let bs := s.bytesAt inp.base inp.len
      let run := s.startLz ps owner a (reads.map (·.2)) (writes.map (·.2))
      if a.pack then
        let r := lzPack bs depth out.len 0 0
        run depth bs.length (lastWindow bs r.consumed) r
      else
        let r := lzUnpack bs out.len
        run depth (leAt bs 8 8) (r.out.drop (r.out.length - min r.out.length lzWin)) r

/-- LZ_JOB. -/
def execLzJob (d : Datagram) (s : State) : Host.Outcome State Fault Refusal :=
  .next (s.serve d 0x0033 false none none fun x t => t.lzJob d.params x.hostKey)

/-- LZ_RESUME (07 R177 to R179): the token names its direction. -/
def State.lzAgain (s : State) (ps owner : List Byte) : State × Answer :=
  let (inp, inOk) := brAt ps 12
  let (out, outOk) := brAt ps 28
  let (win, winOk) := brAt ps 44
  let tok := beAt ps 4 8
  let token := s.bytesAt tok 40
  let a : LzAsk := {
    pack := leAt token 2 1 == 0, cls := beAt ps 0 1, inp := inp, out := out, result := beAt ps 60 8, state := beAt ps 68 8
    tokenOut := beAt ps 76 8 }
  if ps.length ≠ 84 then (s, .fail .badParam)
  else if 3 < a.cls then (s, .fail .badParam 0)
  else if beAt ps 1 3 ≠ 0 then (s, .fail .badParam 1)
  else if !s.nearSpan ⟨tok, 40⟩ then (s, .fail .badParam 4)
  else if !inOk then (s, .fail .badParam 24)
  else if !outOk then (s, .fail .badParam 40)
  else if !winOk then (s, .fail .badParam 56)
  else if a.pack ∧ stateAreaOk s a.state = false then (s, .fail .badParam 68)
  else
    let reads := [(4, (⟨tok, 40⟩ : Span)), (12, inp)] ++ if a.pack then [] else [(44, win)]
    let writes := a.writes 28 60 68 76
    match s.lzSpans reads writes with
    | .error (st, f) => (s, .fail st f)
    | .ok _ =>
      let bs := s.bytesAt inp.base inp.len
      let window := s.bytesAt win.base win.len
      match if a.pack then resumePack token bs (leAt token 4 2) out.len else resumeUnpack token bs window out.len with
      | none => (s, .fail .badParam 4)
      | some r =>
        let all := window ++ r.out
        let keep := if a.pack then lastWindow bs r.consumed else all.drop (all.length - min all.length lzWin)
        s.startLz ps owner a (reads.map (·.2)) (writes.map (·.2)) (leAt token 4 2) (leAt token 24 8) keep r

/-- LZ_RESUME. -/
def execLzResume (d : Datagram) (s : State) : Host.Outcome State Fault Refusal :=
  .next (s.serve d 0x0034 false none none fun x t => t.lzAgain d.params x.hostKey)

end Sys2Proof.Machine
end

