-- ==== Sys2Proof/Machine/Spares.lean ====
section
/-! DEFINITION. Spares (18 R403 to R408; 15 R347, R355; 14 R329): correctable errors, thresholds, engagement, retirement of pages,
and elements that are LOST. -/

namespace Sys2Proof.Machine

/-! ### Elements and their records (15 R347) -/

/-- Whether a die has an element. -/
def State.elementPresent (s : State) (d : Nat) : Element → Bool
  | .d2d i => (s.part.bridgeTo d i).isSome
  | .memCh i => i < 16
  | .dsr i => i < 2
  | .ent i => i < 40
  | .lze i => i < 8
  | .mse i => i < 10
  | .rgn r i => r < 8 && i < 36

/-- The place of an element in record order (16 R379). -/
def elementIndex : Element → Nat
  | .d2d i => i
  | .memCh i => 4 + i
  | .dsr i => 20 + i
  | .ent i => 22 + i
  | .lze i => 62 + i
  | .mse i => 70 + i
  | .rgn r i => 80 + r * 36 + i

/-- An element's record replaced by `f` of it. -/
def Die.onElement (d : Die) (e : Element) (f : ElemRec → ElemRec) : Die :=
  match e with
  | .d2d i => { d with d2d := modifyAt d.d2d i f }
  | .memCh i => { d with memCh := modifyAt d.memCh i f }
  | .dsr i => { d with dsr := modifyAt d.dsr i f }
  | .ent i => { d with ent := modifyAt d.ent i f }
  | .lze i => { d with lze := modifyAt d.lze i f }
  | .mse i => { d with mse := modifyAt d.mse i f }
  | .rgn r i => { d with rgn := modifyAt d.rgn (r * 36 + i) f }

/-- KIND and TARGET of 18 R405 of an element that has spares: a unit or lane by its number, a row or page by `target`. -/
def spareTarget (e : Element) (target : Nat) : Option (Nat × Nat) :=
  match e with
  | .memCh _ => some (4, target)
  | .dsr _ => some (3, target)
  | .ent i => if i % 5 = 4 then none else some (1, i / 5 * 4 + i % 5)
  | .rgn r i => if i % 9 = 8 then none else some (0, r * 32 + i / 9 * 8 + i % 9)
  | _ => none

/-- Whether a row or page named with an error lies in the element. -/
def errorTargetOk (e : Element) (target : Nat) : Bool :=
  match e with
  | .memCh i => lpChannel (target * 4096) == i && target < 50331648
  | .dsr i => target / 2 ^ 28 == i && target % 2 ^ 28 < 1572864
  | _ => true

/-- The records of a unit or lane number and of its spare (15 R347). -/
def numberRecord (kind target : Nat) : Nat := if kind = 0 then unitRecord target else target / 4 * 5 + target % 4
def spareRecord (kind target : Nat) : Nat := if kind = 0 then unitCluster target * 9 + 8 else target / 4 * 5 + 4

/-- Region of a unit or lane number. -/
def targetRegion (kind target : Nat) : Nat := if kind = 0 then unitRegion target else target / 4

/-- The records of units (kind 0) or of lanes (kind 1) replaced. -/
def Die.onRecords (d : Die) (kind i : Nat) (f : ElemRec → ElemRec) : Die :=
  if kind = 0 then { d with rgn := modifyAt d.rgn i f } else { d with ent := modifyAt d.ent i f }

/-! ### What is left (18 R403, R406) -/

/-- Spares of each kind on a die, and retired pages allowed. -/
def spareTotal (kind : Nat) : Nat :=
  match kind with
  | 0 => 32 | 1 => 8 | 2 => 1 | 3 => 65536 | _ => 786432

/-- Spares of a kind engaged, or pages retired. -/
def Die.spareEngaged (d : Die) (kind : Nat) : Nat :=
  match kind with
  | 2 => b01 d.plk.spareInUse
  | 4 => d.retired.length
  | k => (d.engaged.filter (·.1 == k)).length

/-- Engagements of a kind under way that meet a condition. -/
def Die.engagingOf (d : Die) (kind : Nat) (f : Nat → Bool) : Nat :=
  (d.engaging.filter fun e => e.kind == kind && f e.target).length

/-- Whether a spare is left for a target. -/
def Die.spareLeft (d : Die) (kind target : Nat) : Bool :=
  match kind with
  | 0 => (d.rgn.getD (spareRecord 0 target) {}).spare && d.engagingOf 0 (fun t => unitCluster t == unitCluster target) == 0
  | 1 => (d.ent.getD (spareRecord 1 target) {}).spare && d.engagingOf 1 (fun t => t / 4 == target / 4) == 0
  | 2 => !d.plk.spareInUse && d.plk.laneSwitch.isNone && d.engagingOf 2 (fun _ => true) == 0
  | 3 =>
    let tier := fun (t : Nat) => t / 2 ^ 28 == target / 2 ^ 28
    (d.engaged.filter fun e => e.1 == 3 && tier e.2).length + d.engagingOf 3 tier < 32768
  | _ => d.retired.length + d.pendingPages.length < 786432

/-- SPARE_QUERY (13 R301; 18 R403). -/
def execSpareQuery (d : Datagram) (s : State) : Host.Outcome State Fault Refusal :=
  let die := beAt d.params 0 1
  .next (s.serve d 0x0070 false none (some die) fun _ t =>
    if d.params.length ≠ 4 then (t, .fail .badParam)
    else if t.dieCount ≤ die then (t, .fail .badParam 0)
    else if beAt d.params 1 3 ≠ 0 then (t, .fail .badParam 1)
    else (t, .good ((List.range 5).flatMap fun k =>
      let n := (t.die die).spareEngaged k
      beBytes 4 (spareTotal k - n) ++ beBytes 4 n)))

/-! ### Engaging (18 R403 to R407, R416) -/

/-- ARG of the service records. -/
def spareArg (kind target : Nat) : Nat := kind * 2 ^ 28 + target % 2 ^ 28

/-- Class-0 streams that a service of a die, or of one region of it, touches have their bound extended (18 R412). -/
def State.addWindow (s : State) (d : Nat) (region : Option Nat) (w : Nat × Option Nat × Nat) : State :=
  { s with streams := s.streams.map fun (x : Stream) =>
      if x.cls = 0 ∧ (x.regions.any fun r => r.1 == d && (match region with | some k => r.2 == k | none => true)) then
        { x with windows := x.windows ++ [w] }
      else x }

/-- The record of an engagement: life log, sticky SPARE_ENGAGED and event 0x0B01. -/
def State.noteEngaged (s : State) (d kind target : Nat) : State :=
  let s1 := s.onDie d fun x => { x.stick .spareEngaged with engaged := x.engaged ++ [(kind, target)] }
  let s2 : State := { s1 with lifeLog := { s1.lifeLog with
    spares := modifyAt s1.lifeLog.spares d fun l => modifyAt l kind fun n => sat32 (n + 1) } }
  s2.event d srcService 0x0B01 (spareArg kind target)

/-- The spare takes the number of what it replaces (01 R12; 15 R347; 14 R329). -/
def Die.replace (x : Die) (kind target : Nat) : Die :=
  if kind < 2 then
    (x.onRecords kind (spareRecord kind target) fun r => { r with present := false, spare := false }).onRecords kind
      (numberRecord kind target) fun r => { r with up := true, lost := false }
  else if kind = 2 then
    let m := x.plk.laneMap.toNat
    { x with plk := { x.plk with
      spareInUse := true
      laneMap := BitVec.ofNat 32 (m - bits m (4 * target) 4 * 2 ^ (4 * target) + 8 * 2 ^ (4 * target)) } }
  else x

/-- An engagement completes. -/
def State.engageDone (s : State) (d : Nat) (e : Engagement) : State :=
  let s1 := s.onDie d fun x => { (x.replace e.kind e.target) with
    engaging := x.engaging.filter fun y => !(y.kind == e.kind && y.target == e.target) }
  let s2 :=
    if e.kind < 2 then s1.addWindow d (some (targetRegion e.kind e.target)) (e.since, some s.gts, 1000)
    else if e.kind = 3 then s1.addWindow d none (e.since, some s.gts, 10)
    else s1
  (s2.noteEngaged d e.kind e.target).finishAll e.reqs .ok

/-- A page marked pending, with the granule that holds it (18 R406, R407). -/
def Die.markPage (x : Die) (page : Nat) : Die :=
  { x with
    pendingPages := x.pendingPages ++ [page]
    poolLp := { x.poolLp with
      pendingGran := if x.poolLp.pendingGran.contains (page / 16) then x.poolLp.pendingGran
        else x.poolLp.pendingGran ++ [page / 16] } }

/-- Whether a page lies in the firmware-reserved range (06 R123). -/
def reservedPage (page : Nat) : Bool := 0x2FC0000000 ≤ page * 4096

/-- Whether an engagement completes as it begins: a unit or lane of a quiesced region, a page of the firmware-reserved range
(18 R406, R411). -/
def State.engagesAtOnce (s : State) (d kind target : Nat) : Bool :=
  if kind < 2 then
    match (s.die d).regions[targetRegion kind target]? with
    | some r => r.quiesced && r.hul == 7
    | none => false
  else kind == 4 && reservedPage target

/-- An engagement begins: no new list goes to the unit, LANE_MAP leaves, or the page is marked. -/
def State.engageBegin (s : State) (d kind target : Nat) (reqs : List Req) : State :=
  let e : Engagement := { kind := kind, target := target, since := s.gts, reqs := reqs }
  let s1 := s.onDie d fun x => { x with engaging := x.engaging ++ [e] }
  if s.engagesAtOnce d kind target then
    (if kind = 4 then s1.onDie d fun x => { x with retired := x.retired ++ [target] } else s1).engageDone d e
  else if kind = 2 then s1.emit (.flit d "LANE_MAP" target)
  else if kind = 4 then s1.onDie d (·.markPage target)
  else s1

/-- Whether an element is engaging already. -/
def Die.isEngaging (x : Die) (kind target : Nat) : Bool := x.engaging.any fun e => e.kind == kind && e.target == target

/-- No spare is left for an element that needs one: event 0x0B02, and the element is LOST (18 R406, R408). -/
def State.spareGone (s : State) (d kind target : Nat) : State :=
  let s1 :=
    if kind < 2 then s.onDie d fun x =>
      (x.stick .lost).onRecords kind (numberRecord kind target) fun r => { r with up := false, lost := true }
    else if kind = 4 then s
    else s.stick d .lost
  s1.event d srcService 0x0B02 (spareArg kind target)

/-- Whether nothing is left to engage for an element: a row or page already replaced. -/
def Die.alreadyRetired (x : Die) (kind target : Nat) : Bool :=
  (kind == 3 && x.engaged.contains (3, target)) || (kind == 4 && x.retired.contains target)

/-- The part engages a spare of itself (18 R404): absorbed while the same element is engaging. -/
def State.autoEngage (s : State) (d kind target : Nat) : State :=
  let x := s.die d
  if x.isEngaging kind target || x.alreadyRetired kind target || (kind == 2 && !x.plk.up) then s
  else if x.spareLeft kind target then s.engageBegin d kind target []
  else s.spareGone d kind target

/-- A threshold trips: with SPARE_AUTO the part engages, else it writes event 0x0B08 (18 R404). -/
def State.threshold (s : State) (d kind target : Nat) : State :=
  if bit (s.die d).svcMode.toNat 0 then s.autoEngage d kind target
  else s.event d srcService 0x0B08 (spareArg kind target)

/-- Whether TARGET names an element of a kind (18 R405). -/
def spareTargetOk (kind target : Nat) : Bool :=
  match kind with
  | 0 => target < 256
  | 1 => target < 32
  | 2 => target < 8
  | 3 => target / 2 ^ 28 < 2 && target % 2 ^ 28 < 1572864
  | _ => target < 50331648

/-- SPARE_ENGAGE on a die (18 R405). -/
def State.spareEngage (s : State) (r : Req) (d kind target : Nat) : State × Answer :=
  let x := s.die d
  if x.isEngaging kind target then
    (s.onDie d fun y => { y with engaging := y.engaging.map fun (e : Engagement) =>
      if e.kind = kind ∧ e.target = target then { e with reqs := e.reqs ++ [r] } else e }, .wait)
  else if x.alreadyRetired kind target then (s, .fail .badParam 4)
  else if kind = 2 ∧ x.plk.up = false then (s, .fail .resourceBusy)
  else if !x.spareLeft kind target then (s, .fail .noResource)
  else if s.engagesAtOnce d kind target then
    (s.engageBegin d kind target [], { status := .pending, final := some (.ok, [], 0xFFFFFFFF, 0) })
  else (s.engageBegin d kind target [r], .wait)

/-- SPARE_ENGAGE (18 R405; 13 R301). -/
def execSpareEngage (d : Datagram) (s : State) : Host.Outcome State Fault Refusal :=
  let die := beAt d.params 0 1
  let kind := beAt d.params 1 1
  let target := beAt d.params 4 4
  .next (s.serve d 0x0071 true none (some die) fun _ t =>
    if d.params.length ≠ 8 then (t, .fail .badParam)
    else if kind < 2 && spareTargetOk kind target && t.regionRecovering die (targetRegion kind target) then (t, .fail .recovering)
    else if t.dieCount ≤ die then (t, .fail .badParam 0)
    else if 4 < kind then (t, .fail .badParam 1)
    else if beAt d.params 2 2 ≠ 0 then (t, .fail .badParam 2)
    else if !spareTargetOk kind target then (t, .fail .badParam 4)
    else t.spareEngage (dgReq d) die kind target)

/-- Whether a lane number runs no chunk (07 R150). -/
def State.laneIdle (s : State) (d target : Nat) : Bool :=
  !(s.threads.any fun t => t.at d .lane (target / 4) && t.out.any fun o => o.engine == .lane && !o.done && o.taken.isSome && o.lane == target % 4)

/-- Whether what an engagement waits for has come: the unit's lists have run or the unit takes no work (18 R404), the lane's chunk is
over, or the page is retired. -/
def State.engageDue (s : State) (d kind target : Nat) : Bool :=
  match kind with
  | 0 => !s.regionRecovering d (unitRegion target) && (!s.unitUp d target ||
      (s.threads.filter fun (t : Thread) => t.id.die == d && t.id.unit == target).all fun (t : Thread) =>
        t.state == .stopped || (t.cur.isNone && t.queue.isEmpty))
  | 1 => s.laneIdle d target
  | 4 => (s.die d).retired.contains target
  | _ => true

/-- SPARE_ENGAGED (18 R403). -/
def execSpareEngaged (die kind target : Nat) (s : State) : Host.Outcome State Fault Refusal :=
  if s.dieCount ≤ die ∨ 4 < kind ∨ spareTargetOk kind target = false then .fault .absentElement
  else
    match (s.die die).engaging.find? fun e => e.kind == kind && e.target == target with
    | some e => .next (if s.firmwareRuns && s.engageDue die kind target then
        let u := s.engageDone die e
        if kind = 1 then u.runLanes die (target / 4) u.threads.length else if kind = 0 then u.serveDie die else u
      else s)
    | none => .next s

/-! ### Errors (18 R404; 15 R347, R365; 16 R379) -/

/-- A correctable error counted in the life log. -/
def LifeLog.countCe (l : LifeLog) (d i : Nat) : LifeLog :=
  { l with ce := (d, i, sat32 (l.ceAt d i + 1)) :: l.ce.filter fun x => !(x.1 == d && x.2.1 == i) }

/-- The errors of a target that count towards its threshold: those inside the last WINDOW seconds (18 R404). -/
def Die.recentErrors (x : Die) (kind target now : Nat) : List (Nat × Nat × Nat) :=
  let w := bits (x.thresh.getD kind 0).toNat 16 16 * 10 ^ 9
  x.ceTimes.filter fun e => e.1 == kind && e.2.1 == target && now < e.2.2 + w

/-- An error of an element with spares: its threshold trips once COUNT of them lie inside WINDOW seconds. -/
def State.towards (s : State) (d kind target : Nat) : State :=
  let x := s.die d
  let recent := (kind, target, s.gts) :: x.recentErrors kind target s.gts
  let others := x.ceTimes.filter fun e => !(e.1 == kind && e.2.1 == target)
  if bits (x.thresh.getD kind 0).toNat 0 16 ≤ recent.length then
    (s.onDie d fun y => { y with ceTimes := others }).threshold d kind target
  else s.onDie d fun y => { y with ceTimes := recent ++ others }

/-- A record with one more correctable error; CE_COUNT stops at 0xFFFF. -/
def ElemRec.countCe (r : ElemRec) : ElemRec := { r with ceCount := BitVec.ofNat 16 (min 0xFFFF (r.ceCount.toNat + 1)) }

/-- A correctable error counted: the element's record, the life log, and the counters of bridges and memories. -/
def State.correctable (s : State) (die : Nat) (e : Element) : State :=
  let s1 := s.onDie die (·.onElement e ElemRec.countCe)
  let s2 : State := { s1 with lifeLog := s1.lifeLog.countCe die (elementIndex e) }
  match e with
  | .d2d _ => s2.count die 9
  | .memCh _ => s2.count die 11
  | .dsr _ => s2.count die 12
  | _ => s2

/-- CORRECTABLE_ERROR. -/
def execCorrectableError (die : Nat) (e : Element) (target : Nat) (s : State) : Host.Outcome State Fault Refusal :=
  if s.dieCount ≤ die || !s.elementPresent die e || !errorTargetOk e target then .fault .absentElement
  else if s.phase ≠ .running then .next s
  else
    .next (match spareTarget e target with
      | some (k, t) => (s.correctable die e).towards die k t
      | none => s.correctable die e)

/-- A port left at 4 lanes by the failure of an active lane: the first four others keep their pin pairs, the upper fields read 0xF
(14 R329; 15 R364; log 27). -/
def Plk.halved (l : Plk) (lane : Nat) : Plk :=
  let pins := ((List.range 8).filter (· != lane)).map fun i => bits l.laneMap.toNat (4 * i) 4
  { l with laneMap := BitVec.ofNat 32 ((pins.take 4).zipIdx.map fun (p : Nat × Nat) => p.1 * 2 ^ (4 * p.2)).sum ||| 0xFFFF0000 }

/-- PARTNER_LANE_FAILURE: the first failed lane calls for the spare; a second one retrains the link to 4 lanes (14 R329;
18 R404, R408). -/
def execPartnerLaneFailure (port lane : Nat) (s : State) : Host.Outcome State Fault Refusal :=
  if 8 ≤ lane then .fault .absentElement
  else onLink s port
    (let l := (s.die port).plk
     if l.lanes ≤ 4 then s
     else if l.spareInUse then ((s.spareGone port 2 lane).onPlk port (·.halved lane)).retrain port
     else s.threshold port 2 lane)

end Sys2Proof.Machine
end

