-- ==== Sys2Proof/Machine/Recovery.lean ====
section
/-! DEFINITION. What starts a recovery, and a recovery's Fence (17 R382 to R391, R397; 14 R331; 20 R457). -/

namespace Sys2Proof.Machine

/-! ### Domains -/

/-- DOMAIN codes, and the die that holds a domain's records. -/
def domainCode : Domain → Nat
  | .region _ _ => 0 | .die _ => 1 | .package => 2
def domainDie : Domain → Nat
  | .region d _ => d | .die d => d | .package => 0

/-- REGION of a domain, 0xFF where it has none. -/
def domainRegion : Domain → Nat
  | .region _ r => r | _ => 0xFF

/-- ARG of the recovery records (17 R398). -/
def domainArg (x : Domain) (low : Nat) : Nat := domainCode x * 2 ^ 24 + domainDie x * 2 ^ 16 + domainRegion x * 256 + low

/-- Whether a domain lies in another. -/
def domainWithin (x y : Domain) : Bool :=
  match x, y with
  | _, .package => true
  | .package, _ => false
  | .region d _, .die e => d == e
  | .die d, .die e => d == e
  | .region d r, .region e q => d == e && r == q
  | .die _, .region _ _ => false

/-- Whether the part has a domain. -/
def State.domainPresent (s : State) : Domain → Bool
  | .region d r => d < s.dieCount && r < 8
  | .die d => d < s.dieCount
  | .package => true

/-- The regions of a domain. -/
def State.domainRegions (s : State) (x : Domain) : List (Nat × Nat) :=
  match x with
  | .region d r => [(d, r)]
  | .die d => (List.range 8).map fun r => (d, r)
  | .package => (List.range s.dieCount).flatMap fun d => (List.range 8).map fun r => (d, r)

/-- Every region of a domain replaced by `f` of it. -/
def State.onRegions (s : State) (x : Domain) (f : Region → Region) : State :=
  { s with dies := s.dies.zipIdx.map fun (p : Die × Nat) => { p.1 with
      regions := p.1.regions.zipIdx.map fun (q : Region × Nat) => if (s.domainRegions x).contains (p.2, q.2) then f q.1 else q.1 } }

/-- The HUL state of a domain: of its regions, of its dies, and of the package (15 R356; log 28). -/
def State.setHul (s : State) (x : Domain) (v : Nat) : State :=
  let s1 := s.onRegions x fun r => { r with hul := v }
  match x with
  | .region _ _ => s1
  | .die d => s1.onDie d fun e => { e with hul := v }
  | .package => ({ s1 with hulPackage := v } : State).onDies fun e => { e with hul := v }

/-- A region back in service, or in the service it was in before: QUIESCED, or QUIESCING (17 R390). -/
def Region.leave (r : Region) (quiescing : Bool) (now : Nat) : Region :=
  { r with hul := if r.quiesced then 7 else if quiescing then 6 else 0, lastChunk := now }

/-- Whether a region is being quiesced. -/
def Die.quiescing (d : Die) (r : Nat) : Bool :=
  match d.service with
  | some v => v.island == ⟨0, r⟩ && v.stage == 0
  | none => false

/-- The HUL state of a domain after its recovery. -/
def State.leaveHul (s : State) (x : Domain) : State :=
  let s1 : State := { s with dies := s.dies.zipIdx.map fun (p : Die × Nat) => { p.1 with
    regions := p.1.regions.zipIdx.map fun (q : Region × Nat) =>
      if (s.domainRegions x).contains (p.2, q.2) then q.1.leave (p.1.quiescing q.2) s.gts else q.1 } }
  match x with
  | .region _ _ => s1
  | .die d => s1.onDie d fun e => { e with hul := 0 }
  | .package => ({ s1 with hulPackage := 0 } : State).onDies fun e => { e with hul := 0 }

/-- The source of a recovery's records: an expiry of the watchdog marks its own (20 R457). -/
def recoverySource (trigger : Nat) : Nat := if trigger = 6 then 0x1F07 else srcRecovery

/-! ### Gathering the contexts (17 R389, R390, R393) -/

/-- Whether a context is a suspect: READY, BLOCKED, or with an outstanding operation. -/
def Thread.suspicious (t : Thread) : Bool := t.state == .ready || t.state == .blocked || !t.out.isEmpty

/-- What the recoveries that a new one takes over had gathered. -/
def State.gathered (s : State) (x : Domain) : List Suspect :=
  (s.recoveries.filter fun r => domainWithin r.dom x).flatMap (·.suspects)

/-- A running context of the domain as Fence finds it; lists kept from it during a replay come back to it. -/
def freshSuspect (old : List Suspect) (t : Thread) : Suspect :=
  let u := match old.find? fun p => p.thread.id == t.id with
    | some p => { t with queue := t.queue ++ p.held.queue }
    | none => t
  { thread := u, held := u, suspect := u.suspicious }

/-- A context gathered before, as the new recovery holds it. -/
def Suspect.kept (p : Suspect) (x : Domain) : Suspect :=
  if domainHas x p.thread.id then
    { thread := p.held, held := p.held, suspect := p.held.suspicious || p.outside }
  else p

/-- Every context the new recovery holds. -/
def State.gather (s : State) (x : Domain) : List Suspect :=
  let old := s.gathered x
  let running := s.threads.filter fun (t : Thread) => domainHas x t.id
  running.map (freshSuspect old) ++
    (old.filter fun p => !(running.any fun (t : Thread) => t.id == p.thread.id)).map fun (p : Suspect) => p.kept x

/-- Partner requests of the domain's threads are given up; what waited behind them leaves. -/
def State.dropDomainTags (s : State) (x : Domain) : State :=
  let s1 := s.onDies fun d => { d with plk := { d.plk with tags := d.plk.tags.filter fun g => !domainHas x g.thread } }
  (List.range s.dieCount).foldl (fun u p => u.pumpTags p ((u.die p).plk.tags.length)) s1

/-- Class-0 streams with a region in the domain lose the bound of the pictures at hand (10 R240, R241). -/
def State.unboundDomain (s : State) (x : Domain) : State :=
  { s with streams := s.streams.map fun (y : Stream) =>
      if y.cls = 0 ∧ (y.regions.any fun r => (s.domainRegions x).contains r) then y.unbound else y }

/-! ### The context named by tag (17 R397) -/

/-- Outstanding chunks of contexts: when taken, source number, context. -/
def chunkTags (ps : List Suspect) : List (Nat × Nat × ThreadId) :=
  ps.flatMap fun p => p.thread.out.filterMap fun o =>
    if o.done then none else o.taken.map fun g =>
      (g, p.thread.id.die * 8192 + engineSource o.engine (engineAt o.engine p.thread.id), p.thread.id)

/-- The context with the oldest outstanding chunk, the lower source number winning a tie. -/
def oldestTag (ps : List Suspect) : Option ThreadId :=
  ((sortBy (fun (a b : Nat × Nat × ThreadId) => decide (a.1 < b.1) || (a.1 == b.1 && decide (a.2.1 ≤ b.2.1))) (chunkTags ps)).head?).map
    (·.2.2)

/-- The context named: the trigger's own for 1 and 3, else that of the oldest chunk of the domain. -/
def namedContext (x : Domain) (trigger : Nat) (own : Option ThreadId) (ps : List Suspect) : Option ThreadId :=
  if trigger = 1 ∨ trigger = 3 then own else oldestTag (ps.filter fun p => domainHas x p.thread.id)

/-- The status of the context named: TIMEOUT for trigger 1, BAD_ADDRESS for a retired range, and otherwise free. -/
def State.tagStatus (s : State) (trigger : Nat) : Status × State :=
  if trigger = 1 then (.timeout, s)
  else if trigger = 4 then (.badAddress, s)
  else let (v, t) := s.draw; (Config.condemnStatus v, t)

/-- A recovery whose context is condemned by its tag. -/
def Recovery.condemnTag (r : Recovery) (id : ThreadId) (st : Status) : Recovery :=
  let r1 := r.condemn id st 4
  { r1 with suspects := r1.suspects.map fun (q : Suspect) =>
    if q.thread.id = id then { q with held := { q.held with state := .stopped, status := st, queue := [] } } else q }

/-- The context of a recovery with a number. -/
def Recovery.suspect? (r : Recovery) (id : ThreadId) : Option Suspect := r.suspects.find? fun p => p.thread.id == id

/-- The named context is condemned at once, inside the domain or outside it. -/
def State.condemnTagged (s : State) (dom : Domain) (trigger : Nat) (named : Option ThreadId) : State :=
  match named with
  | none => s
  | some id =>
    let (st, s1) := s.tagStatus trigger
    match s1.thread id with
    | some t => (s1.event id.die id.unit 0x0A14 t.binding).stopThread t st
    | none =>
      match (s1.recoveries.find? fun r => r.dom == dom).bind (·.suspect? id) with
      | some p =>
        let s2 : State := { s1 with recoveries := s1.recoveries.map fun (r : Recovery) =>
          if r.dom = dom then r.condemnTag id st else r }
        (s2.event id.die id.unit 0x0A14 p.thread.binding).stopOwner p.thread st
      | none => s1

/-! ### Crash records kept up to date -/

/-- A crash record as its recovery stands. -/
def CrashRec.update (c : CrashRec) (r : Recovery) : CrashRec :=
  { c with
    condemned := r.condemned, stepUs := r.stepUs
    contexts := c.contexts.map fun (p : Suspect) =>
      match r.suspects.find? fun q => q.thread.id == p.thread.id with
      | some q => { p with outcome := q.outcome, round := q.round, status := q.status }
      | none => p }

/-- The record of a recovery, when one was written, brought up to date. -/
def State.updateCrash (s : State) (r : Recovery) (f : CrashRec → CrashRec) : State :=
  { s with crash := s.crash.map fun (c : CrashRec) => if c.seq = r.seq then f (c.update r) else c }

/-! ### Beginning (17 R386, R387, R390) -/

/-- Recoveries begun, in the life log (16 R379) and, for a region, in its HUL register (15 R356). -/
def State.countRecovery (s : State) (x : Domain) : State :=
  let s1 : State := { s with
    recoverySeq := s.recoverySeq + 1
    lifeLog := { s.lifeLog with recoveries := modifyAt s.lifeLog.recoveries (domainCode x) fun n => sat32 (n + 1) } }
  match x with
  | .region _ _ => s1.onRegions x fun r => { r with recoveries := BitVec.ofNat 8 (min 255 (r.recoveries.toNat + 1)) }
  | _ => s1

/-- A recovery begins at Fence: the contexts are gathered, the domain's records and its HUL state are written. `code`: 0x0A10, or
0x0A11 for an escalation. -/
def State.beginRecovery (s : State) (x : Domain) (trigger code : Nat) (ev : Option EventRec) (own : Option ThreadId) (reqs : List Req) :
    State :=
  let old := s.recoveries.filter fun r => domainWithin r.dom x
  let ps := s.gather x
  let compat := (s.die 0).hulMode == 1
  let named := if compat then namedContext x trigger own ps else none
  let r : Recovery := {
    dom := x, trigger := trigger, event := ev, beganAt := s.gts, stepAt := s.gts, suspects := ps, compat := compat
    named := named, seq := s.recoverySeq + 1, reqs := old.flatMap (·.reqs) ++ reqs
    fromStaged := s.activation.isSome && x == .package }
  let s1 := old.foldl (fun u o => u.updateCrash o id) s
  let s2 : State := { s1 with
    recoveries := (s1.recoveries.filter fun r => !domainWithin r.dom x) ++ [r]
    threads := s1.threads.filter fun (t : Thread) => !domainHas x t.id }
  let s3 := (((s2.dropDomainTags x).unboundDomain x).countRecovery x).setHul x 1
  let s4 := (s3.stick (domainDie x) .recovery).event (domainDie x) (recoverySource trigger) code (domainArg x trigger)
  s4.condemnTagged x trigger named

/-- A recovery asked for: absorbed by one that runs on the domain or a larger one, else it begins and takes over those inside
(17 R390). -/
def State.recover (s : State) (x : Domain) (trigger : Nat) (ev : Option EventRec) (own : Option ThreadId) (reqs : List Req) : State :=
  if s.phase ≠ .running then s
  else if s.recoveries.any fun r => domainWithin x r.dom then
    { s with recoveries := s.recoveries.map fun (r : Recovery) =>
      if domainWithin x r.dom then { r with reqs := r.reqs ++ reqs } else r }
  else s.beginRecovery x trigger 0x0A10 ev own reqs

/-- A trigger with a record of its own: the record, then the recovery. -/
def State.trigger (s : State) (x : Domain) (trigger d blk code arg : Nat) (own : Option ThreadId) : State :=
  (s.event d blk code arg).recover x trigger (some (s.mkEvent d blk code arg)) own []

/-! ### Triggers (17 R383 to R385) -/

/-- HUL_LIMITS in ns: the operation limit, and the progress window. -/
def State.opLimit (s : State) : Nat := bits (s.die 0).hulLimits.toNat 0 16 * 10 ^ 6
def State.progressWindow (s : State) : Nat := bits (s.die 0).hulLimits.toNat 16 16 * 10 ^ 6

/-- The place of an engine that a limit expired on, as chunks name it; a lane is named by its number. -/
def limitPlace (e : Engine) (place : Nat) : Nat := if e = .lane then place / 4 else place

/-- The event source of an engine that a limit expired on. -/
def limitSource (e : Engine) (place : Nat) : Nat := if e = .lane then 0x0100 + place else engineSource e place

/-- The die whose memory a fabric access waits for; none for a partner. -/
def State.accessTarget (s : State) (o : Outst) : Option Nat :=
  let spans := if o.opcode = 0x38 then o.reads else o.writes
  (spans.head?).bind fun sp => (locate s.dieCount sp.base).die?

/-- Whether an operation is a fabric access (17 R385). -/
def fabricCode (code : Nat) : Bool := [0x38, 0x39, 0x3B, 0x40, 0x43].contains code

/-- The domain that a hung chunk has recovered: the region of its engine, or the die of an access's target. -/
def State.hungDomain (s : State) (t : ThreadId) (o : Outst) : Option Domain :=
  if fabricCode o.opcode then (s.accessTarget o).map Domain.die else some (.region t.die (unitRegion t.unit))

/-- What of a stream or job a stop changes, when it has not stopped yet. -/
def State.undoOf (s : State) (t : Thread) : List (Nat × Bool × StreamState × List (Nat × Nat)) :=
  if t.isJob then
    match s.job t.binding with
    | some j => if j.state < 2 then [(t.binding, true, .open_, [])] else []
    | none => []
  else
    match s.stream t.binding with
    | some x => if x.state = .stopped then [] else [(t.binding, false, x.state, x.regions)]
    | none => []

/-- A stream or job whose stop is undone goes on, with its reservations and regions (17 R395). -/
def State.undoStop (s : State) (u : Nat × Bool × StreamState × List (Nat × Nat)) : State :=
  if u.2.1 then
    match s.job u.1 with
    | some j => (s.setJob { j with state := 1, status := .ok }).reservePools (maskDies s j.dies) u.1 j.resLp j.resDs
    | none => s
  else
    match s.stream u.1 with
    | some x =>
      let dies := if x.cls = 0 then dedup (u.2.2.2.map (·.1)) else List.range s.dieCount
      ((s.setStream { x with state := u.2.2.1, status := .ok, regions := u.2.2.2 }).reservePools dies u.1 x.resLp x.resDs).takeRegions
        u.1 u.2.2.2
    | none => s

/-- An engine judged failed is replaced, or taken out of service without SPARE_AUTO; an engine without spares is LOST (17 R395;
18 R404, R408). -/
def State.retireEngine (s : State) (d : Nat) (e : Engine) (place : Nat) : State :=
  let auto := bit (s.die d).svcMode.toNat 0
  match e with
  | .match_ => (s.stick d .lost).onDie d fun x => x.onElement (.lze place) fun r => { r with up := false, lost := true }
  | .motion => (s.stick d .lost).onDie d fun x => x.onElement (.mse place) fun r => { r with up := false, lost := true }
  | _ =>
    let kind := if e = .lane then 1 else 0
    if !auto then s.onDie d fun x => x.onRecords kind (numberRecord kind place) fun r => { r with up := false }
    else if (s.die d).isEngaging kind place then s
    else if (s.die d).spareLeft kind place then s.engageDone d { kind := kind, target := place, since := s.gts, reqs := [] }
    else s.spareGone d kind place

/-- Contexts that an engine judged failed had condemned stand for one more replay (17 R395): in round 16. -/
def Recovery.again (r : Recovery) (running : List Thread) (ids : List ThreadId) : Recovery :=
  { r with
    condemned := r.condemned - ids.length
    hung := r.hung.filter fun h => !ids.contains h.2.2.2.1
    suspects := r.suspects.map fun (p : Suspect) =>
      if ids.contains p.thread.id then
        let base := match running.find? fun (t : Thread) => t.id == p.thread.id with
          | some t => { t with queue := p.held.queue }
          | none => p.held
        { p with outcome := 0, status := .ok, round := 16, held := { base with state := .ready, status := .ok } }
      else p }

/-- After a hang in a replay: two different streams or jobs hung on one engine judge it failed. Their contexts are replayed once more
where the engine has a replacement, or a lane of the region is left, to run them. -/
def State.judgeEngine (s : State) (dom : Domain) (d : Nat) (e : Engine) (place : Nat) : State :=
  match s.recoveries.find? (·.dom == dom) with
  | none => s
  | some r =>
    let mine := r.hung.filter fun h => h.1 == d && h.2.1 == e && h.2.2.1 == place
    if r.round = 16 || (dedup (mine.map fun h => h.2.2.2.2)).length < 2 then s
    else
      let ids := mine.map fun h => h.2.2.2.1
      let owners := mine.map fun h => h.2.2.2.2
      let s0 := s.retireEngine d e place
      if s0.engineInService d e (limitPlace e place) = false then s0
      else
      let s1 := (r.undo.filter fun u => owners.contains u.1).foldl State.undoStop s0
      { s1 with
        recoveries := s1.recoveries.map fun (q : Recovery) => if q.dom = dom then
          { (q.again s1.threads ids) with undo := q.undo.filter fun u => !owners.contains u.1 } else q
        threads := s1.threads.filter fun (t : Thread) => !ids.contains t.id }

/-- A chunk that hangs during a replay: the engine alone is reset, the context is condemned with TIMEOUT, and the engine goes on
with the others' chunks (17 R395). -/
def State.hangInReplay (s : State) (r : Recovery) (th : Thread) (o : Outst) (die : Nat) (e : Engine) (place : Nat) : State :=
  let t := th.id
  let th1 := { th with out := th.out.filter fun (q : Outst) => !(q.engine == o.engine && q.opIndex == o.opIndex && q.descr == o.descr) }
  let s1 : State := { s with recoveries := s.recoveries.map fun (q : Recovery) => if q.dom = r.dom then
    { q with hung := q.hung ++ [(die, e, place, t, th.binding)], undo := q.undo ++ s.undoOf th } else q }
  let s2 := (((s1.dropTags t o.descr).stopThread th1 .timeout).engineServes t e none)
  s2.judgeEngine r.dom die e place

/-- CHUNK_LIMIT_EXPIRY (17 R383, R385, R395): partners answer TIMEOUT of themselves, so their accesses start no recovery. -/
def execChunkLimitExpiry (die : Nat) (e : Engine) (place : Nat) (s : State) : Host.Outcome State Fault Refusal :=
  if s.dieCount ≤ die || !placePresent e (limitPlace e place) then .fault .absentElement
  else if s.phase ≠ .running then .next s
  else
    match s.oldestChunk die e (limitPlace e place) with
    | none => .next s
    | some (t, taken) =>
      match s.thread t with
      | none => .next s
      | some th =>
        match th.out.find? fun o => o.engine == e && !o.done && o.taken.isSome with
        | none => .next s
        | some o =>
          if s.gts < taken + s.opLimit then .next s
          else
            match s.recoveries.find? (·.replays t) with
            | some r => .next (s.hangInReplay r th o die e place)
            | none =>
              match s.hungDomain t o with
              | some x => .next (s.trigger x 1 die (limitSource e place) 0x0A01 (t.ctx * 2 ^ 28 + t.unit * 2 ^ 20 + o.opIndex) (some t))
              | none => .next s

/-- Whether a BLOCKED period is timed by the operation limit (17 R383). -/
def WaitOn.timed : WaitOn → Bool
  | .pool | .barrier _ => true
  | .word _ _ us => us == 0
  | _ => false

/-- THREAD_WAIT_EXPIRY (17 R383): a WAIT whose word has arrived completes instead (16 R376). -/
def execThreadWaitExpiry (t : ThreadId) (s : State) : Host.Outcome State Fault Refusal :=
  if !threadPresent s t then .fault .absentElement
  else
    match s.thread t with
    | none => .next s
    | some th =>
      match th.state, th.waiting with
      | .blocked, some (w, since) =>
        if s.phase ≠ .running || !w.timed || s.gts < since + s.opLimit then .next s
        else
          let stop := (s.event t.die 0x1F11 0x0A04 th.binding).stopThread th .timeout
          .next (match w with
            | .word a target _ => if reached (s.numAt a 8) target.toNat then s.waitDone th else stop
            | _ => stop)
      | _, _ => .next s

/-- Whether a region has been armed for the progress window: a READY thread whose class is not gated, or an outstanding chunk, and no
chunk completed (17 R384; 20 R450). -/
def State.stuck (s : State) (die region : Nat) : Bool :=
  let w := s.progressWindow
  let mine := s.threads.filter fun (t : Thread) => t.id.die == die && unitRegion t.id.unit == region
  (mine.any fun (t : Thread) => (t.state == .ready && !((s.die die).gated.contains t.cls) && t.readyAt + w ≤ s.gts) ||
    t.out.any fun o => !o.done && match o.taken with | some g => g + w ≤ s.gts | none => false) &&
  match (s.die die).regions[region]? with
  | some r => r.lastChunk + w ≤ s.gts
  | none => false

/-- PROGRESS_MONITOR (17 R384, R385). -/
def execProgressMonitor (die region : Nat) (s : State) : Host.Outcome State Fault Refusal :=
  if s.dieCount ≤ die ∨ 8 ≤ region then .fault .absentElement
  else if s.phase = .running ∧ s.regionRecovering die region = false ∧ s.stuck die region then
    .next (s.trigger (.region die region) 2 die 0x1F12 0x0A02 (region * 2 ^ 24) none)
  else .next s

/-- A granule made pending (18 R407). -/
def Pool.pend (p : Pool) (g : Nat) : Pool := if p.pendingGran.contains g then p else { p with pendingGran := p.pendingGran ++ [g] }

/-- The 4 KiB range of an uncorrectable LPDDR5X error retired at once; when the budget is spent event 0x0B02 instead (17 R385;
18 R404, R406, R407). -/
def State.retirePage (s : State) (d page : Nat) : State :=
  let x := s.die d
  if x.retired.contains page then s
  else if 786432 ≤ x.retired.length then s.event d srcService 0x0B02 (spareArg 4 page)
  else
    (s.onDie d fun y => { y with
      retired := y.retired ++ [page], pendingPages := y.pendingPages.filter (· != page)
      poolLp := if reservedPage page then y.poolLp else y.poolLp.pend (page / 16) }).noteEngaged d 4 page

/-- The range of an uncorrectable deep SRAM error retired. -/
def State.retireRange (s : State) (d range : Nat) : State :=
  if (s.die d).retiredDs.contains range then s
  else s.onDie d fun y => { y with retiredDs := y.retiredDs ++ [range], poolDs := y.poolDs.pend (range / 16) }

/-- UNCORRECTABLE_ERROR (17 R385): the record of the memory, the retirement, the recovery. -/
def execUncorrectableError (kind : MemKind) (addr : Nat) (reader : Option ThreadId) (s : State) : Host.Outcome State Fault Refusal :=
  match kind, locate s.dieCount addr with
  | .scratchpad, .scratch d u off =>
    .next (if s.phase ≠ .running then s else s.trigger (.region d (unitRegion u)) 3 d u 0x0A03 (off / 4096) reader)
  | .pod, .pod d q off =>
    .next (if s.phase ≠ .running then s
      else s.trigger (.region d (q / 4)) 3 d (match reader with | some t => t.unit | none => q * 8) 0x0A03 (off / 4096) reader)
  | .deepSram, .deepSram d off =>
    .next (if s.phase ≠ .running then s
      else
        let blk := 0x0210 + off / 0x60000000
        let ev := s.mkEvent d blk 0x0A03 (off / 4096)
        ((s.event d blk 0x0A03 (off / 4096)).retireRange d (off / 4096)).recover (.die d) 4 (some ev) reader [])
  | .lpddr, .lpddr d off =>
    .next (if s.phase ≠ .running then s
      else
        let blk := 0x0200 + lpChannel off
        let ev := s.mkEvent d blk 0x0A03 (off / 4096)
        ((s.event d blk 0x0A03 (off / 4096)).retirePage d (off / 4096)).recover (.die d) 4 (some ev) reader [])
  | _, _ => .fault .absentElement

/-- The bridge index by which another die sees a bridge (15 R347). -/
def backIndex (i : Nat) : Nat := match i with | 0 => 1 | 1 => 0 | k => k

/-- A bridge down: its records, sticky BRIDGE_DOWN on both dies, event 0x0803 with a free ARG, and both dies' recoveries
(14 R331). -/
def State.bridgeDown (s : State) (d i e : Nat) : State :=
  let fall := fun (k : Nat) (x : Die) => { (x.stick .bridgeDown) with
    d2d := modifyAt x.d2d k fun r => { r with up := false }, replays := modifyAt x.replays k fun _ => 0 }
  let (arg, s0) := s.draw
  let s1 := ((s0.onDie d (fall i)).onDie e (fall (backIndex i)))
  let a := arg % 2 ^ 32
  let ev := s1.mkEvent d (0x0230 + i) 0x0803 a
  (((s1.event d (0x0230 + i) 0x0803 a).recover (.die d) 5 (some ev) none []).recover (.die e) 5 (some ev) none [])

/-- BRIDGE_ERROR (14 R331): a single-bit error is corrected and counted; the sixteenth replay in a row takes the bridge down. -/
def execBridgeError (die index : Nat) (double : Bool) (s : State) : Host.Outcome State Fault Refusal :=
  if s.dieCount ≤ die then .fault .absentElement
  else
    match s.part.bridgeTo die index with
    | none => .fault .absentElement
    | some e =>
      let x := s.die die
      if s.phase ≠ .running ∨ (x.d2d.getD index {}).up = false then .next s
      else if double then
        let s1 := (s.count die 10).onDie die fun y => { y with replays := modifyAt y.replays index (· + 1) }
        .next (if 16 ≤ x.replays.getD index 0 + 1 then s1.bridgeDown die index e else s1)
      else
        .next ((s.correctable die (.d2d index)).onDie die fun y => { y with replays := modifyAt y.replays index fun _ => 0 })

/-- WATCHDOG_EXPIRY (20 R457): not from the Fence of a package recovery to the end of its Restore, nor while FW_ACTIVATE pauses the
interpreter. -/
def execWatchdogExpiry (s : State) : Host.Outcome State Fault Refusal :=
  let v := s.hulT7.toNat
  let suspended := (s.recoveries.any fun r => r.dom == .package && r.step < 5) || (s.activation.any fun a => a.step == 3)
  if s.phase = .running ∧ v % 4 = 1 ∧ s.t7At + v / 256 * 10 ^ 6 ≤ s.gts ∧ suspended = false then
    .next (s.recover .package 6 none none [])
  else .next s

/-- RECOVER's domain. -/
def recoverDomain (ps : List Byte) : Domain :=
  match beAt ps 1 1 with
  | 0 => .region (beAt ps 0 1) (beAt ps 2 1)
  | 1 => .die (beAt ps 0 1)
  | _ => .package

/-- RECOVER (13 R301; 17 R385, R390): one that is absorbed is answered when the absorbing recovery completes. -/
def execRecover (d : Datagram) (s : State) : Host.Outcome State Fault Refusal :=
  .next (s.serve d 0x0090 true none none fun _ t =>
    let ps := d.params
    if ps.length ≠ 4 then (t, .fail .badParam)
    else if t.dieCount ≤ beAt ps 0 1 then (t, .fail .badParam 0)
    else if 2 < beAt ps 1 1 then (t, .fail .badParam 1)
    else if 8 ≤ beAt ps 2 1 then (t, .fail .badParam 2)
    else if beAt ps 3 1 ≠ 0 then (t, .fail .badParam 3)
    else (t.recover (recoverDomain ps) 7 none none [dgReq d], .wait))

end Sys2Proof.Machine
end

