-- ==== Sys2Proof/Machine/Replay.lean ====
section
/-! DEFINITION. The steps of a recovery after Fence (17 R386 to R402): the crash record, reset, retraining, restoring, replay in
rounds, escalation, and reading crash records. -/

namespace Sys2Proof.Machine

/-! ### Crash records (17 R399 to R402) -/

/-- The contexts of a domain in ascending order. -/
def State.domainContexts (s : State) (x : Domain) : List ThreadId :=
  (s.domainRegions x).flatMap fun r => (List.range 512).map fun i => ⟨r.1, r.2 * 32 + i / 16, i % 16⟩

/-- Contexts in ascending (die, unit, context). -/
def contextRank (t : ThreadId) : Nat := (t.die * 256 + t.unit) * 16 + t.ctx

/-- The oldest outstanding operation of a context at Fence. -/
def Thread.oldestOp (t : Thread) : Option Outst := t.out.head?

/-- STATE of a context entry. -/
def ctxStateCode : CtxState → Nat
  | .free => 0 | .idle => 1 | .ready => 2 | .blocked => 3 | .stopped => 4

/-- The outstanding operations of a context entry: 32 entries of 16 bytes, unused ones zero; QPOS is the place in the thread's queue
for the engine. -/
def outstandingBytes (l : List Outst) : List Byte :=
  let one := fun (p : Outst × Nat) =>
    [byte (engineCode p.1.engine), byte ((l.take p.2).filter fun o => o.engine == p.1.engine).length] ++ leBytes 2 p.1.opIndex ++
      leBytes 4 p.1.chunks ++ leBytes 8 (p.1.taken.getD 0)
  ((l.take 32).zipIdx.flatMap one ++ zeros 512).take 512

/-- A context entry of 1,152 bytes. -/
def Suspect.entry (p : Suspect) (descr : List Byte) : List Byte :=
  let t := p.thread
  let ck := match t.ckpt with | some (_, i, _, _) => i | none => 0
  let lanes := (t.saved.states ++ List.replicate 16 0).take 16
  [byte t.id.die, byte (unitRegion t.id.unit), byte (unitCluster t.id.unit % 4), byte (t.id.unit % 8), byte t.id.ctx,
    byte (ctxStateCode t.state), byte p.outcome, byte p.round] ++
    leBytes 4 ((t.cur.map (·.stream)).getD 0) ++ leBytes 4 ((t.cur.map (·.tile)).getD 0) ++
    leBytes 4 ((t.cur.map (·.picture)).getD 0) ++ leBytes 2 (statusCode p.status) ++
    leBytes 2 ((t.oldestOp.map (·.opIndex)).getD 0) ++ leBytes 8 ((t.cur.map (·.addr)).getD 0) ++ leBytes 2 ck ++ leBytes 2 t.adds ++
    zeros 4 ++ leBytes 8 t.lastDone ++ zeros 16 ++ lanes.flatMap (leBytes 4) ++ outstandingBytes t.out ++ (descr ++ zeros 512).take 512

/-- The entry of a FREE context. -/
def freeEntry (t : ThreadId) : List Byte :=
  [byte t.die, byte (unitRegion t.unit), byte (unitCluster t.unit % 4), byte (t.unit % 8), byte t.ctx, 0, 0, 0xFF] ++ zeros 1144

/-- A recovery's outside threads, in order. -/
def outsiders (ps : List Suspect) : List Suspect :=
  sortBy (fun (a b : Suspect) => decide (contextRank a.thread.id ≤ contextRank b.thread.id)) (ps.filter (·.outside))

/-- NCTX of a record. -/
def State.crashContexts (s : State) (c : CrashRec) : Nat := (s.domainContexts c.dom).length + (outsiders c.contexts).length

/-- LENGTH of a record. -/
def State.crashLength (s : State) (c : CrashRec) : Nat := 256 + 1152 * s.crashContexts c + c.samples.length

/-- A record's bytes. -/
def State.crashBytes (s : State) (c : CrashRec) : List Byte :=
  let descrOf := fun (t : ThreadId) => ((c.descrs.find? fun e => e.1 == t).map (·.2)).getD []
  let entryOf := fun (t : ThreadId) => match c.contexts.find? fun p => p.thread.id == t && !p.outside with
    | some p => p.entry (descrOf t)
    | none => freeEntry t
  let ev := match c.event with
    | some e => leBytes 8 e.gts.toNat ++ leBytes 2 e.src.toNat ++ leBytes 2 e.code.toNat ++ leBytes 4 e.arg.toNat
    | none => zeros 16
  let head := leBytes 2 0x5A58 ++ [1, byte (domainCode c.dom), byte (domainDie c.dom), byte (domainRegion c.dom), byte c.trigger,
      byte (b01 c.compat)] ++ leBytes 4 c.seq ++ leBytes 4 (s.crashContexts c) ++ leBytes 8 c.gtsBegin ++ leBytes 8 c.gtsEnd ++
    leBytes 8 (s.crashLength c) ++ leBytes 4 c.condemned ++ leBytes 2 (c.seq % 16) ++ leBytes 2 c.nUnits ++ ev ++
    ((c.stepUs ++ List.replicate 6 0).take 6).flatMap (leBytes 4) ++ zeros 168
  head ++ (s.domainContexts c.dom).flatMap entryOf ++
    (outsiders c.contexts).flatMap (fun p => p.entry (descrOf p.thread.id)) ++ c.samples

/-- The sampled lines of a unit's scratchpad. -/
def State.unitSample (s : State) (d u phase : Nat) : List Byte :=
  (List.range 128).flatMap fun j => s.bytesAt (scratchBase d u + (16 * j + phase) * 256) 256

/-- The units of a domain. -/
def State.domainUnits (s : State) (x : Domain) : List (Nat × Nat) :=
  (s.domainRegions x).flatMap fun r => (List.range 32).map fun k => (r.1, r.2 * 32 + k)

/-- A record put into the ring: after the newest, or at the start of the 256 MiB area where it does not fit; what it overlaps goes
(17 R399; 06 R123). The newest stands first. -/
def State.placeCrash (s : State) (c : CrashRec) : State :=
  let len := s.crashLength c
  let next := match s.crash.head? with
    | some n => n.offset + roundUp (s.crashLength n) 4096
    | none => 0
  let off := if next + len ≤ 0x10000000 then next else 0
  let clear := fun (o : CrashRec) => o.offset + s.crashLength o ≤ off || off + len ≤ o.offset
  { s with crash := { c with offset := off } :: s.crash.filter clear }

/-- The crash record of a recovery. -/
def State.writeCrash (s : State) (r : Recovery) : State :=
  let units := s.domainUnits r.dom
  let descrs := r.suspects.filterMap fun (p : Suspect) =>
    p.thread.oldestOp.map fun o => (p.thread.id, s.opBytesAt p.thread.id o.list o.descr)
  s.placeCrash {
    offset := 0, dom := r.dom, trigger := r.trigger, compat := r.compat, seq := r.seq, gtsBegin := r.beganAt
    condemned := r.condemned, event := r.event, stepUs := r.stepUs, contexts := r.suspects, descrs := descrs
    samples := units.flatMap fun u => s.unitSample u.1 u.2 (r.seq % 16)
    nUnits := units.length }

/-- CRASH_READ (13 R301, R308; 17 R399). -/
def execCrashRead (d : Datagram) (s : State) : Host.Outcome State Fault Refusal :=
  .next (s.serve d 0x0054 true none none fun _ t =>
    let ps := d.params
    let len := beAt ps 8 2
    if ps.length ≠ 12 then (t, .fail .badParam)
    else
      match t.crash[beAt ps 0 4]? with
      | none => (t, .fail .badParam 0)
      | some c0 =>
        let c := match t.recoveries.find? fun r => r.seq == c0.seq with
          | some r => c0.update r
          | none => c0
        let total := t.crashLength c
        let off := beAt ps 4 4
        if total ≤ off then (t, .fail .badParam 4)
        else if len = 0 ∨ 4080 < len then (t, .fail .badParam 8)
        else if beAt ps 10 2 ≠ 0 then (t, .fail .badParam 10)
        else (t, .good (beBytes 4 t.crash.length ++ beBytes 4 total ++ zeros 8 ++ slice (t.crashBytes c) off len)))

/-! ### Moving from step to step (17 R386) -/

/-- The recovery of a domain in a step. -/
def State.recoveryAt (s : State) (x : Domain) (step : Nat) : Option Recovery :=
  s.recoveries.find? fun r => r.dom == x && r.step == step

/-- The recovery of a domain replaced by `f` of it. -/
def State.onRecovery (s : State) (x : Domain) (f : Recovery → Recovery) : State :=
  { s with recoveries := s.recoveries.map fun (r : Recovery) => if r.dom = x then f r else r }

/-- A recovery that enters a step, with the time the last one took. -/
def Recovery.enter (r : Recovery) (step now : Nat) : Recovery :=
  { r with step := step, stepAt := now, stepUs := r.stepUs ++ [(now - r.stepAt) / 1000] }

/-- A command that ends a step of a domain's recovery. -/
def endStep (s : State) (x : Domain) (step : Nat) (k : Recovery → State) : Host.Outcome State Fault Refusal :=
  if !s.domainPresent x then .fault .absentElement
  else
    match s.recoveryAt x step with
    | some r => .next (if s.phase = .running then k r else s)
    | none => .next s

/-- FENCE_DRAIN_COMPLETE (17 R387). -/
def execFenceDrainComplete (dom : Domain) (s : State) : Host.Outcome State Fault Refusal :=
  endStep s dom 0 fun _ => (s.onRecovery dom fun r => r.enter 1 s.gts).setHul dom 2

/-- Scratchpad and pod memory of a region cleared. -/
def State.clearRegion (s : State) (r : Nat × Nat) : State :=
  (s.clearMem (scratchBase r.1 (r.2 * 32)) (scratchBase r.1 (r.2 * 32) + 32 * 0x80000)).clearMem (podBase r.1 (r.2 * 4))
    (podBase r.1 (r.2 * 4) + 4 * 0x400000)

/-- What a reset clears: scratchpads, pod memory and barrier counters of the domain; the contexts went at Fence (17 R388, R391). -/
def State.resetDomain (s : State) (x : Domain) : State :=
  let s1 := (s.domainRegions x).foldl State.clearRegion s
  let gone := fun (a : Nat) => match locate s.dieCount a with
    | .scratch d u o => domainHolds x (.scratch d u o)
    | .pod d q o => domainHolds x (.pod d q o)
    | _ => false
  { s1 with
    sides := s1.sides.filter fun e => !gone e.1
    barriers := s1.barriers.map fun (b : Barrier) =>
      if domainHolds x (.pod b.die (b.counter / 16) 0) then b.without fun _ => true else b }

/-- SAMPLE_COMPLETE: the record is written whole, and the domain is in reset (17 R388, R399). -/
def execSampleComplete (dom : Domain) (s : State) : Host.Outcome State Fault Refusal :=
  endStep s dom 1 fun r =>
    let r1 := r.enter 2 s.gts
    (((s.writeCrash r1).onRecovery dom fun _ => r1).setHul dom 3).resetDomain dom

/-- An element that fails self-test: its spare engages, or it goes out of service (17 R388; 18 R404, R408). -/
def State.selfTestFails (s : State) (d : Nat) (e : Element) : State :=
  match e with
  | .rgn r i => if i % 9 = 8 then s else s.retireEngine d .tensor (r * 32 + i / 9 * 8 + i % 9)
  | .ent i => if i % 5 = 4 then s else s.retireEngine d .lane (i / 5 * 4 + i % 5)
  | .lze i => s.retireEngine d .match_ i
  | .mse i => if i < 8 then s.retireEngine d .motion i else s
  | _ => s

/-- The region of an element that self-test covers. -/
def elementRegion : Element → Option Nat
  | .rgn r _ => some r
  | .ent i => some (i / 5)
  | .lze i => some i
  | .mse i => some i
  | _ => none

/-- Whether an element lies in a domain's regions. -/
def State.inDomain (s : State) (x : Domain) (d : Nat) (e : Element) : Bool :=
  match elementRegion e with
  | some r => (s.domainRegions x).contains (d, r) && s.elementPresent d e
  | none => false

/-- Region clocks at the start of Retrain: out of lock, at 1.2 GHz (01 R24; 17 R388). -/
def Region.unlock (r : Region) (now : Nat) : Region := { r with step := 0, locked := false, stepAt := now, raiseWait := none }

/-- RESET_SELFTEST_COMPLETE (17 R388): for the package, firmware restarts from an image that passes the checks of boot, else the part
boots from flash; SHL_BOOT names the source (19 R428). -/
def execResetSelftestComplete (dom : Domain) (failed : List (Nat × Element)) (s : State) : Host.Outcome State Fault Refusal :=
  endStep s dom 2 fun r =>
    let img := match s.activation with
      | some a => if r.fromStaged then a.image else s.image
      | none => s.image
    if dom = .package ∧ s.imageCheck 0 img ≠ 0 then { s with recoveries := [], threads := [] }.bootFromFlash
    else
      let s0 : State := if dom = .package then { s with bootSource := if r.fromStaged then 3 else 2, bootResult := 0 } else s
      let s1 := (failed.filter fun e => s0.inDomain dom e.1 e.2).foldl (fun u e => u.selfTestFails e.1 e.2) s0
      ((s1.onRecovery dom fun q => q.enter 3 s.gts).setHul dom 4).onRegions dom fun q => q.unlock s.gts

/-- The bridges of a die in service again, each a retrain in the life log (16 R379; 17 R388). -/
def State.retrainBridges (s : State) (d : Nat) : State :=
  let s1 := s.onDie d fun x => { x with
    d2d := x.d2d.map fun (r : ElemRec) => { r with up := true }, replays := List.replicate 4 0
    ind := x.ind.filter fun e => e.1.1 != 1 }
  ((List.range 4).filter fun i => (s.part.bridgeTo d i).isSome).foldl (fun u i => u.countRetrain d (2 + i)) s1

/-- The dies a domain resets as dies. -/
def State.domainDies (s : State) (x : Domain) : List Nat :=
  match x with
  | .region _ _ => [] | .die d => [d] | .package => List.range s.dieCount

/-- RETRAIN_COMPLETE: PLLs relock; a die's LPDDR5X and bridges are trained (17 R388; 15 R345). -/
def execRetrainComplete (dom : Domain) (s : State) : Host.Outcome State Fault Refusal :=
  endStep s dom 3 fun _ =>
    let s1 := (s.onRecovery dom fun q => q.enter 4 s.gts).onRegions dom fun q => { q with locked := true }
    (s.domainDies dom).foldl State.retrainBridges s1

/-! ### Replay (17 R393 to R397) -/

/-- Whether the stream or job of a context is gone: stopped, finished or closed. -/
def State.ownerEnded (s : State) (t : Thread) : Bool :=
  if t.isJob then (match s.job t.binding with | some j => 2 ≤ j.state | none => true)
  else (match s.stream t.binding with | some x => x.state == .stopped | none => true)

/-- Whether a suspect runs in a round: 16 is the extra one of R395. -/
def Suspect.inRound (p : Suspect) (k : Nat) : Bool :=
  p.suspect && !p.outside && p.outcome == 0 && (if k = 16 then p.round == 16 else p.thread.id.ctx == k && p.round != 16)

/-- Round `k` begins: its contexts run from their replay points, their queued lists kept back. -/
def State.beginRound (s : State) (x : Domain) (k : Nat) : State :=
  match s.recoveries.find? (·.dom == x) with
  | none => s
  | some r =>
    let runs := fun (p : Suspect) => p.inRound k && !s.ownerEnded p.held
    let mine := r.suspects.filter runs
    let r1 := { r with
      round := k
      suspects := r.suspects.map fun (p : Suspect) =>
        if runs p then { p with round := k, held := { p.held with cur := none } } else p }
    { (s.onRecovery x fun _ => r1) with
      threads := s.threads ++ mine.map fun (p : Suspect) => { (p.held.rewind s.gts) with queue := [] } }

/-- Whether a recovery holds a context as an outside thread. -/
def State.heldOutside (s : State) (t : ThreadId) : Bool :=
  s.recoveries.any fun r => r.suspects.any fun p => p.outside && p.thread.id == t

/-- The outcome a replayed context has reached: 1 cleared, 2 dependent, 3 condemned; none while it runs (17 R394). -/
def State.replayOutcome (s : State) (t : ThreadId) : Option Nat :=
  match s.thread t with
  | none => some (if s.heldOutside t then 2 else 1)
  | some th =>
    if th.state = .stopped then some 3
    else if th.cur.isNone then some 1
    else
      match th.state, th.waiting with
      | .blocked, some (.barrier _, _) | .blocked, some (.pool, _) | .blocked, some (.word _ _ _, _) => some 2
      | _, _ => none

/-- The contexts of the running round. -/
def Recovery.running (r : Recovery) : List Suspect := r.suspects.filter fun p => p.round == r.round && !p.outside && p.suspect

/-- A context set aside at its round's end: it runs no more for now. -/
def Suspect.park (p : Suspect) (s : State) (k : Nat) : Suspect :=
  if p.round = k ∧ p.outside = false ∧ p.suspect = true then
    let q := if p.outcome = 0 then { p with outcome := (s.replayOutcome p.thread.id).getD 2 } else p
    match s.thread p.thread.id with
    | some t => { q with held := { t with queue := if q.outcome = 3 then p.held.queue else t.queue ++ p.held.queue } }
    | none => q
  else p

/-- The contexts of a finished round set aside; what they had done at barriers is withdrawn (log 29). -/
def State.parkRound (s : State) (r : Recovery) : State :=
  let ids := r.running.map fun p => p.thread.id
  { s with
    recoveries := s.recoveries.map fun (q : Recovery) =>
      if q.dom = r.dom then { q with suspects := q.suspects.map fun (p : Suspect) => p.park s r.round } else q
    threads := s.threads.filter fun (t : Thread) => !ids.contains t.id
    barriers := s.barriers.map fun (b : Barrier) => b.without ids.contains }

/-! ### The end of a recovery -/

/-- A context as it stands after the recovery: cleared ones and those that were no suspects stand, condemned ones stay stopped,
the others restart from their replay points (17 R394, R397). -/
def Suspect.after (p : Suspect) (now : Nat) : Option Thread :=
  if p.outcome = 3 ∨ p.outcome = 4 then some { p.held with state := .stopped, status := p.status, queue := [], out := [], waiting := none }
  else if p.outcome = 1 then some p.held
  else if p.suspect || p.outside then some (p.held.rewind now)
  else if p.held.state = .stopped then none
  else some { p.held with early := [], carried := [], ckpt := none }

/-- OUTCOME of a context that restarts: a dependent keeps its own, the others are restarted (17 R401). -/
def Suspect.closed (p : Suspect) : Suspect :=
  if p.outcome = 0 ∧ (p.suspect || p.outside) then { p with outcome := 5 } else p

/-- The contexts a finished recovery gives back: those of owners that are gone, and those another recovery holds, are left out. -/
def State.giveBack (s : State) (r : Recovery) : List Thread :=
  (r.suspects.filterMap fun (p : Suspect) => p.after s.gts).filter fun (t : Thread) =>
    (t.state == .stopped || !s.ownerEnded t) && (s.thread t.id).isNone && !s.heldOutside t.id

/-- The idle clocks of sessions after a package recovery that began at a GTS: they did not run during it (13 R292). -/
def State.idleResumes (s : State) (began : Nat) : State :=
  { s with sessions := s.sessions.map fun (x : Session) =>
      if x.isOpen then { x with lastAt := x.lastAt + (s.gts - max x.lastAt began) } else x }

/-- A recovery completes: contexts go on, the domain returns to service, event 0x0A12, the record's end, and the final replies
(17 R390, R394, R398, R400). -/
def State.endRecovery (s : State) (x : Domain) : State :=
  match s.recoveries.find? (·.dom == x) with
  | none => s
  | some r0 =>
    let r := { r0 with
      stepUs := r0.stepUs ++ (if r0.compat then [0] else [(s.gts - r0.stepAt) / 1000]), suspects := r0.suspects.map Suspect.closed }
    let s0 := if x = .package then s.idleResumes r0.beganAt else s
    let s1 : State := { s0 with recoveries := s.recoveries.filter fun q => q.dom != x }
    let back := s1.giveBack r
    let s2 := (({ s1 with threads := s1.threads ++ back } : State).updateCrash r fun c => { c with gtsEnd := s.gts }).leaveHul x
    let s3 := s2.event (domainDie x) (recoverySource r.trigger) 0x0A12 (domainArg x (min 255 r.condemned))
    let s4 := (back.map fun (t : Thread) => t.id).foldl (fun u t => u.moveOn t) s3
    s4.finishAll r.reqs .ok

/-- A profile without a good copy on any die is unloaded: event 0x0A15 (17 R388). -/
def State.unloadBad (s : State) (bad : List (Nat × Nat)) (slot : Nat) : State :=
  if (s.profiles.getD slot none).isSome ∧ (List.range s.dieCount).all fun d => bad.contains (d, slot) then
    (s.emptySlot slot).event 0 srcProfiles 0x0A15 slot
  else s

/-! ### An island back in service (18 R411) -/

/-- Records of a region's elements marked quiesced, or in service (15 R347). -/
def Die.markRegion (x : Die) (r : Nat) (v : Bool) : Die :=
  let mark := fun (lo hi : Nat) (l : List ElemRec) => l.zipIdx.map fun (p : ElemRec × Nat) =>
    if lo ≤ p.2 ∧ p.2 < hi then { p.1 with quiesced := v } else p.1
  { x with
    ent := mark (5 * r) (5 * r + 5) x.ent, lze := mark r (r + 1) x.lze
    mse := mark r (r + 1) x.mse, rgn := mark (36 * r) (36 * r + 36) x.rgn }

/-- The bound windows that a channel's quiesce opened on a die end (18 R412). -/
def State.closeWindows (s : State) (d : Nat) : State :=
  { s with streams := s.streams.map fun (x : Stream) =>
      if x.regions.any fun r => r.1 == d then
        { x with windows := x.windows.map fun (w : Nat × Option Nat × Nat) =>
          if w.2.1.isNone then (w.1, some s.gts, w.2.2) else w }
      else x }

/-- An island back in service: a region at 1.2 GHz, a channel out of self-refresh (18 R411). -/
def State.openIsland (s : State) (d : Nat) (i : Island) : State :=
  match i.kind with
  | 0 => s.onDie d fun x => { (x.markRegion i.index false) with
      regions := modifyAt x.regions i.index fun (q : Region) => { q with
        hul := 0, quiesced := false, step := 0, locked := true, stepAt := s.gts, raiseWait := none, lastChunk := s.gts } }
  | 3 => (s.onDie d fun x => { x with memCh := modifyAt x.memCh i.index fun r => { r with quiesced := false } }).closeWindows d
  | _ => s

/-- A region whose activation a package recovery overtakes. -/
def State.dropModuleService (s : State) (d : Nat) : State :=
  match (s.die d).service with
  | some v => if v.activation then (s.openIsland d v.island).onDie d fun x => { x with service := none } else s
  | none => s

/-- A package recovery from a staged image: it runs now, and the activation goes on with the flash (18 R414, R415; 19 R432). -/
def State.runStaged (s : State) : State :=
  match s.activation with
  | some a =>
    let s0 := (List.range s.dieCount).foldl State.dropModuleService s
    let s1 := { s0 with
      image := a.image, activation := some { a with step := 4, restart := false }, flash := { s0.flash with broken := true } }
    s1.relog (s1.baseEntries ++ imageEntries a.image 0 false ++ s1.profileEntries)
  | none => s

/-- RESTORE_COMPLETE (17 R388, R393, R397): table banks hold what they held (07 R167); a package unloads profiles without a good
copy; then the replay begins, or in compatibility mode everything restarts at once. -/
def execRestoreComplete (dom : Domain) (badCopies : List (Nat × Nat)) (s : State) : Host.Outcome State Fault Refusal :=
  endStep s dom 4 fun r =>
    let s1 := s.onRecovery dom fun q => q.enter 5 s.gts
    let s2 := if dom = .package then (List.range 4).foldl (fun u k => u.unloadBad badCopies k) { s1 with t7At := s.gts } else s1
    let s3 := if r.fromStaged then s2.runStaged else s2
    if r.compat then s3.endRecovery dom else (s3.setHul dom 5).beginRound dom 0

/-- REPLAY_ROUND_END (17 R393 to R395): once every context of the round has its outcome the next round begins; after round 15, and
after the extra round where an engine was judged failed, the recovery completes. -/
def execReplayRoundEnd (dom : Domain) (s : State) : Host.Outcome State Fault Refusal :=
  endStep s dom 5 fun r =>
    if r.running.all fun p => p.outcome != 0 || (s.replayOutcome p.thread.id).isSome then
      let s1 := s.parkRound r
      if r.round < 15 then s1.beginRound dom (r.round + 1)
      else if r.round = 15 ∧ (r.suspects.any fun p => p.round == 16 && p.outcome == 0) then s1.beginRound dom 16
      else s1.endRecovery dom
    else s

/-! ### Steps that take too long (17 R386, R389) -/

/-- The maximum of a step in ms. -/
def stepMax (x : Domain) (step : Nat) : Nat :=
  match x with
  | .region _ _ => [1, 20, 600, 10, 50].getD step 0
  | .die _ => [1, 100, 2000, 2500, 600].getD step 0
  | .package => [2, 500, 7000, 3000, 2000].getD step 0

/-- The next larger domain. -/
def largerDomain : Domain → Option Domain
  | .region d _ => some (.die d)
  | .die _ => some .package
  | .package => none

/-- RECOVERY_STEP_TIMEOUT: escalation keeps the suspects; a package recovery that fails leaves every die in RESET (17 R389). -/
def execRecoveryStepTimeout (dom : Domain) (s : State) : Host.Outcome State Fault Refusal :=
  if !s.domainPresent dom then .fault .absentElement
  else
    match s.recoveries.find? (·.dom == dom) with
    | none => .next s
    | some r =>
      if s.phase ≠ .running ∨ 5 ≤ r.step ∨ s.gts ≤ r.stepAt + stepMax dom r.step * 10 ^ 6 then .next s
      else
        match largerDomain dom with
        | some x => .next (s.beginRecovery x 8 0x0A11 r.event none [])
        | none => .next ({ s with phase := .failed, recoveries := [] }.setHul .package 3)

end Sys2Proof.Machine
end

