-- ==== Sys2Proof/Machine/Service.lean ====
section
/-! DEFINITION. Live service (18 R409 to R412): quiescing an island, recalibrating it and its return to service. -/

namespace Sys2Proof.Machine

/-! ### Islands -/

/-- ISLAND and INDEX of an event record's ARG (18 R416). -/
def islandArg (i : Island) : Nat := i.kind * 2 ^ 24 + i.index * 2 ^ 16

/-- Highest INDEX of an ISLAND code (18 R410). -/
def islandMost (kind : Nat) : Nat :=
  match kind with
  | 0 => 7 | 3 => 15 | _ => 0

/-- The service of a die replaced. -/
def State.setService (s : State) (d : Nat) (v : Option IslandService) : State := s.onDie d fun x => { x with service := v }

/-- A class-0 reservation that moves from one region to another, with RGN_OWNER (18 R411). -/
def State.moveRegion (s : State) (a b : Nat × Nat) : State :=
  match (s.die a.1).regions[a.2]? with
  | some r =>
    let owner := r.owner
    let swap := fun (l : List (Nat × Nat)) => l.map fun x => if x = a then b else x
    let s1 := s.onDie a.1 fun x => { x with regions := modifyAt x.regions a.2 fun (q : Region) => { q with owner := 0xFFFFFFFF } }
    let s2 := s1.onDie b.1 fun x => { x with regions := modifyAt x.regions b.2 fun (q : Region) => { q with owner := owner } }
    { s2 with
      streams := s2.streams.map fun (x : Stream) =>
        if x.number = owner.toNat then { x with regions := swap x.regions } else x
      tickets := s2.tickets.map fun (x : Ticket) =>
        if x.number = owner.toNat then { x with regions := swap x.regions } else x }
  | none => s

/-- A region begins to quiesce: its class-0 reservation moves to the lowest free region, and it takes no new list. -/
def State.beginRegion (s : State) (d r : Nat) : State :=
  let s1 := s.onDie d fun x => { x with regions := modifyAt x.regions r fun (q : Region) => { q with hul := 6 } }
  if ((s.die d).regions.getD r {}).owner = 0xFFFFFFFF then s1
  else
    match s1.freeRegions.head? with
    | some b => s1.moveRegion (d, r) b
    | none => s1

/-- An island begins to quiesce (18 R411, R412). -/
def State.beginIsland (s : State) (d : Nat) (i : Island) : State :=
  match i.kind with
  | 0 => s.beginRegion d i.index
  | 1 => s.migrateFrom d
  | 3 => s.addWindow d none (s.gts, none, 0)
  | _ => s

/-- Why an island may not be quiesced now (18 R410). -/
def State.islandBusy (s : State) (d : Nat) (i : Island) : Bool :=
  match i.kind with
  | 0 => ((s.die d).regions.getD i.index {}).owner != 0xFFFFFFFF && s.freeRegions.isEmpty
  | 1 => s.qps.any fun q => q.connected && q.port == d && q.alt.isNone
  | 2 => (s.routing.any fun e => e.2.1 == d) || ((s.die d).plk.twin && !(s.die (1 - d)).plk.up)
  | _ => s.dies.any fun x => match x.service with
    | some v => v.island.kind == 3
    | none => false

/-- Whether an island lies in recovery (17 R390). -/
def State.islandRecovering (s : State) (d : Nat) (i : Island) : Bool :=
  s.dieRecovering d || (i.kind == 0 && s.regionRecovering d i.index)

/-- The island named by a request. -/
def islandOf (ps : List Byte) : Island := ⟨beAt ps 1 1, beAt ps 2 1⟩

/-- The checks of a request that names an island: the field that fails. -/
def State.islandFault (s : State) (ps : List Byte) : Option Nat :=
  if s.dieCount ≤ beAt ps 0 1 then some 0
  else if 3 < beAt ps 1 1 then some 1
  else if islandMost (beAt ps 1 1) < beAt ps 2 1 then some 2
  else if beAt ps 3 1 ≠ 0 then some 3
  else none

/-- A request that names an island, after its checks. -/
def State.serveIsland (s : State) (d : Datagram) (op : Nat) (k : State → Nat → Island → State × Answer) : State :=
  s.serve d op true none (some (beAt d.params 0 1)) fun _ t =>
    if d.params.length ≠ 4 then (t, .fail .badParam)
    else if t.islandRecovering (beAt d.params 0 1) (islandOf d.params) then (t, .fail .recovering)
    else
      match t.islandFault d.params with
      | some f => (t, .fail .badParam f)
      | none =>
        let die := beAt d.params 0 1
        let i := islandOf d.params
        if t.activation.isSome then (t, .fail .resourceBusy)
        else k t die i

/-- An island of a die starts its service. -/
def State.startService (s : State) (d : Nat) (v : IslandService) : State := (s.beginIsland d v.island).setService d (some v)

/-- ISLAND_QUIESCE (18 R409 to R411): of a quiesced island it does nothing, and a second one of a quiescing island waits with the
first. -/
def execIslandQuiesce (d : Datagram) (s : State) : Host.Outcome State Fault Refusal :=
  .next (s.serveIsland d 0x0072 fun t die i =>
    match (t.die die).service with
    | some v =>
      if v.island ≠ i then (t, .fail .resourceBusy)
      else if v.stage = 1 then (t, .good [])
      else if v.stage = 0 ∧ v.recal = false then
        (t.setService die (some { v with quiesceReq := v.quiesceReq ++ [dgReq d] }), .wait)
      else (t, .fail .resourceBusy)
    | none =>
      if t.islandBusy die i then (t, .fail .resourceBusy)
      else (t.startService die { island := i, stage := 0, since := t.gts, quiesceReq := [dgReq d] }, .wait))

/-- A quiesced island starts to come back (18 R411): ports train. -/
def State.beginResume (s : State) (d : Nat) (v : IslandService) : State :=
  let s1 := s.setService d (some { v with stage := 3 })
  if v.island.kind = 2 ∧ (s.die d).plk.configured.isSome then s1.retrain d else s1

/-- ISLAND_RESUME (18 R409 to R411): of an island in service it does nothing. -/
def execIslandResume (d : Datagram) (s : State) : Host.Outcome State Fault Refusal :=
  .next (s.serveIsland d 0x0073 fun t die i =>
    let live := bit (t.die 0).svcMode.toNat 1
    match (t.die die).service with
    | some v =>
      if v.island ≠ i then (t, if live then .good [] else .fail .badOpcode)
      else if v.stage = 1 then (t.beginResume die { v with resumeReq := v.resumeReq ++ [dgReq d] }, .wait)
      else if v.stage = 3 then (t.setService die (some { v with resumeReq := v.resumeReq ++ [dgReq d] }), .wait)
      else (t, .fail .resourceBusy)
    | none => (t, if live then .good [] else .fail .badOpcode))

/-- RECAL: of an island in service it quiesces first (18 R411); a partner port trains in full. -/
def execRecal (d : Datagram) (s : State) : Host.Outcome State Fault Refusal :=
  .next (s.serveIsland d 0x0074 fun t die i =>
    match (t.die die).service with
    | some v =>
      if v.island = i ∧ v.stage = 1 then
        (t.setService die (some { v with stage := 2, recalReq := v.recalReq ++ [dgReq d] }), .wait)
      else (t, .fail .resourceBusy)
    | none =>
      if t.islandBusy die i then (t, .fail .resourceBusy)
      else (t.startService die { island := i, stage := 0, since := t.gts, recal := true, recalReq := [dgReq d] }, .wait))

/-! ### Quiesced -/

/-- Whether a region has drained: every context of it has run its lists. -/
def State.regionDrained (s : State) (d r : Nat) : Bool :=
  s.threads.all fun (t : Thread) => !(t.id.die == d && unitRegion t.id.unit == r) || t.state == .stopped ||
    (t.cur.isNone && t.queue.isEmpty)

/-- Whether an island has drained, and is not in recovery. -/
def State.islandDrained (s : State) (d : Nat) (i : Island) : Bool :=
  !s.islandRecovering d i && (i.kind != 0 || s.regionDrained d i.index)

/-- An island out of service: the region's records, a port down, a link down with its training kept, a channel in self-refresh
(18 R411). -/
def State.shutIsland (s : State) (d : Nat) (i : Island) : State :=
  match i.kind with
  | 0 => s.onDie d fun x => { (x.markRegion i.index true) with
      regions := modifyAt x.regions i.index fun (q : Region) => { q with hul := 7, quiesced := true } }
  | 1 => if (s.die d).eth.up then s.dropPort d else s
  | 2 =>
    let l := (s.die d).plk
    if l.up then (s.plkDown d).onPlk d fun x => { x with identOk := l.identOk } else s
  | _ => s.onDie d fun x => { x with memCh := modifyAt x.memCh i.index fun r => { r with quiesced := true } }

/-- ISLAND_QUIESCE_COMPLETE (18 R411, R416). -/
def execIslandQuiesceComplete (die : Nat) (s : State) : Host.Outcome State Fault Refusal :=
  if s.dieCount ≤ die then .fault .absentElement
  else
    match (s.die die).service with
    | none => .next s
    | some v =>
      if v.stage ≠ 0 ∨ s.firmwareRuns = false ∨ s.islandDrained die v.island = false then .next s
      else
        let stage := if v.activation then 4 else if v.recal then 2 else 1
        let s1 := (s.shutIsland die v.island).setService die (some { v with stage := stage, since := s.gts, quiesceReq := [] })
        .next ((s1.event die srcService 0x0B03 (islandArg v.island)).finishAll v.quiesceReq .ok)

/-- Whether a tile may return from one context to another: a lower class, at a chunk boundary, to a FREE context of a unit that takes
lists. -/
def State.mayReturn (s : State) (d r : Nat) (m : ThreadId × ThreadId) : Bool :=
  m.1.die == d && unitRegion m.1.unit == r && threadPresent s m.2 && s.unitTakes m.2.die m.2.unit && (s.thread m.2).isNone &&
    match s.thread m.1 with
    | some t => t.cls != 0 && t.state != .stopped && t.out.all fun o => o.done || o.taken.isNone
    | none => false

/-- A context's work restarted on another from its replay point (18 R411; 17 R396). -/
def State.returnTile (s : State) (m : ThreadId × ThreadId) : State :=
  match s.thread m.1 with
  | none => s
  | some t =>
    let s1 := t.out.foldl (fun u o => u.dropTags m.1 o.descr) s
    let s2 : State := { s1 with
      threads := (s1.threads.filter fun (u : Thread) => u.id != m.1) ++ [{ (t.rewind s.gts) with id := m.2 }]
      barriers := s1.barriers.map fun (b : Barrier) => b.without (· == m.1)
      streams := s1.streams.map fun (x : Stream) => { x with pics := x.pics.map fun (p : Pic) => { p with
        tiles := p.tiles.map fun (w : TileWork) => if w.home = some m.1 then { w with home := some m.2 } else w } } }
    (t.uses.foldl (fun u a => u.fetch m.2 a) s2).moveOn m.2

/-- QUIESCE_TILE_RETURN (18 R411): 40 ms after a region began to quiesce. -/
def execQuiesceTileReturn (die : Nat) (moved : List (ThreadId × ThreadId)) (s : State) : Host.Outcome State Fault Refusal :=
  if s.dieCount ≤ die then .fault .absentElement
  else
    match (s.die die).service with
    | none => .next s
    | some v =>
      if v.island.kind ≠ 0 ∨ v.stage ≠ 0 ∨ s.firmwareRuns = false ∨ s.gts < v.since + 40 * 10 ^ 6 ∨
          s.islandRecovering die v.island then .next s
      else .next (moved.foldl (fun u m => if u.mayReturn die v.island.index m then u.returnTile m else u) s)

/-! ### Back in service -/

/-- An island's service ends: it is back, with event 0x0B04 and the final replies. -/
def State.endService (s : State) (d : Nat) (v : IslandService) : State :=
  (((s.openIsland d v.island).setService d none).event d srcService 0x0B04 (islandArg v.island)).finishAll
    (v.resumeReq ++ v.recalReq) .ok

/-- Whether a resuming island is ready: a port is up again, or its training has ended without (14 R314, R328). -/
def State.islandReady (s : State) (d : Nat) (i : Island) : Bool :=
  match i.kind with
  | 1 => (s.die d).eth.up
  | 2 => (s.die d).plk.up || !(s.die d).plk.training
  | _ => true

/-- CHANNEL_AUTO_RESUME (18 R411): 30 ms after its quiesce completed. -/
def execChannelAutoResume (die : Nat) (s : State) : Host.Outcome State Fault Refusal :=
  if s.dieCount ≤ die then .fault .absentElement
  else
    match (s.die die).service with
    | none => .next s
    | some v =>
      if v.island.kind = 3 ∧ v.stage = 1 ∧ s.phase = .running ∧ v.since + 30 * 10 ^ 6 ≤ s.gts then
        .next (s.beginResume die v)
      else .next s

/-- The pin pairs of a port whose training passes on every pair: 8 lanes again (18 R408; 15 R364; log 27). -/
def Plk.restoreLanes (l : Plk) : Plk :=
  if l.lanes = 8 || bits l.laneMap.toNat 28 4 ≠ 15 then l
  else
    let low := (List.range 4).map fun i => bits l.laneMap.toNat (4 * i) 4
    let more := ((List.range 9).filter fun p => !low.contains p).take 4
    { l with laneMap := BitVec.ofNat 32 ((low ++ more).zipIdx.map fun (p : Nat × Nat) => p.1 * 2 ^ (4 * p.2)).sum }

/-- Recalibration of an island that goes back into service: a port trains in full and comes up. -/
def State.recalibrated (s : State) (d : Nat) (i : Island) (pass : Bool) : State :=
  let lanes := if i.kind = 2 ∧ pass then s.onPlk d Plk.restoreLanes else s
  match i.kind with
  | 2 => match (s.die d).plk.configured with
    | some p => lanes.startTraining d p
    | none => lanes
  | _ => lanes

/-- RECAL_COMPLETE (18 R411): an island that was in service returns to it; a quiesced one stays quiesced. -/
def execRecalComplete (die : Nat) (pass : Bool) (s : State) : Host.Outcome State Fault Refusal :=
  if s.dieCount ≤ die then .fault .absentElement
  else
    match (s.die die).service with
    | none => .next s
    | some v =>
      if v.stage ≠ 2 ∨ s.firmwareRuns = false ∨ s.islandRecovering die v.island then .next s
      else if v.recal then
        let s1 := s.recalibrated die v.island pass
        .next (if v.island.kind = 1 ∨ v.island.kind = 2 then s1.setService die (some { v with stage := 3 }) else s1.endService die v)
      else
        let lanes := if v.island.kind = 2 ∧ pass then s.onPlk die Plk.restoreLanes else s
        .next ((lanes.setService die (some { v with stage := 1, recalReq := [] })).finishAll v.recalReq .ok)

/-! ### Activation, island by island (18 R414, R416; 19 R432) -/

/-- Log entries of the old image's modules of a target take PARTIAL. -/
def State.markPartial (s : State) (target : Nat) : State :=
  let old := (imageModules s.image).filterMap fun m => if m.target = target then some m.number else none
  let mark := fun (e : LogEntry) => if e.type = 6 ∧ e.image = 0 ∧ old.contains e.index then { e with isPartial := true } else e
  ({ s with logAt := none } : State).relog (s.log.map mark)

/-- The sequencers of every die switch, each target at a tick of its own: records of ISLAND 4, numbered fabric, memory 0 and 1,
Ethernet, partner (log 31). -/
def State.switchSequencers (s : State) : State :=
  let s1 := [2, 3, 4, 5].foldl State.markPartial s
  (List.range s.dieCount).foldl (fun u d =>
    (List.range 5).foldl (fun v i => v.event d srcService 0x0B05 (islandArg ⟨4, i⟩)) u) s1

/-- The control islands of every die switch at one tick: the new image runs, and its entries replace the old ones. -/
def State.switchControl (s : State) (img : List Byte) : State :=
  let s1 := (List.range s.dieCount).foldl (fun v d => v.event d srcService 0x0B05 (islandArg ⟨5, 0⟩)) s
  let s2 : State := { s1 with image := img, logAt := none }
  s2.relog (s2.baseEntries ++ imageEntries img 0 false ++ s2.profileEntries)

/-- Steps 2 and 3 once the last region of every die is done; the write of the image to flash begins. -/
def State.activateRest (s : State) (a : Activation) : State :=
  if s.dies.any fun d => d.service.isSome then s
  else
    let s1 := s.switchSequencers.switchControl a.image
    { s1 with activation := some { a with step := 4 }, flash := { s1.flash with broken := true } }

/-- A region quiesces for its new module. -/
def State.quiesceForModule (s : State) (d r : Nat) : State :=
  s.startService d { island := ⟨0, r⟩, stage := 0, since := s.gts, activation := true }

/-- A region runs its new module and is back; the next region of its die follows. -/
def State.moduleLoaded (s : State) (d : Nat) (v : IslandService) (a : Activation) : State :=
  let s1 := if a.region = 0 then ({ s with activation := some { a with region := 1 } } : State).markPartial 1 else s
  let s2 := (s1.endService d v).event d srcService 0x0B05 (islandArg v.island)
  if v.island.index < 7 then s2.quiesceForModule d (v.island.index + 1)
  else
    match s2.activation with
    | some b => s2.activateRest b
    | none => s2

/-- ISLAND_RESUME_COMPLETE (18 R411, R414): an island that resumes, or a region whose module is loaded. -/
def execIslandResumeComplete (die : Nat) (s : State) : Host.Outcome State Fault Refusal :=
  if s.dieCount ≤ die then .fault .absentElement
  else
    match (s.die die).service with
    | none => .next s
    | some v =>
      if s.firmwareRuns = false ∨ s.islandRecovering die v.island then .next s
      else if v.stage = 3 then .next (if s.islandReady die v.island then s.endService die v else s)
      else if v.stage = 4 then
        match s.activation with
        | some a => .next (s.moduleLoaded die v a)
        | none => .next s
      else .next s

end Sys2Proof.Machine
end

