-- ==== Sys2Proof/Machine/Firmware.lean ====
section
/-! DEFINITION. Firmware images (18 R413 to R415; 19 R420, R422, R425, R430 to R433): staging, verifying, activating and flashing one,
network recovery's load, attestation, and reading the life log. -/

namespace Sys2Proof.Machine

/-! ### Reading (13 R308; 19 R433) -/

/-- LIFELOG_READ (13 R301, R308; 16 R379). -/
def execLifelogRead (d : Datagram) (s : State) : Host.Outcome State Fault Refusal :=
  .next (s.serve d 0x0053 false none none fun _ t =>
    let off := beAt d.params 0 4
    let len := beAt d.params 4 2
    if d.params.length ≠ 8 then (t, .fail .badParam)
    else if 65536 ≤ off then (t, .fail .badParam 0)
    else if len = 0 ∨ 4088 < len then (t, .fail .badParam 4)
    else if beAt d.params 6 2 ≠ 0 then (t, .fail .badParam 6)
    else (t, .good (beBytes 4 65536 ++ zeros 4 ++ lifelogPage t off len)))

/-- ATTEST (13 R301; 19 R433). -/
def execAttest (d : Datagram) (s : State) : Host.Outcome State Fault Refusal :=
  .next (s.serve d 0x0080 false none none fun _ t =>
    let log := t.logBytes
    let off := beAt d.params 32 4
    if d.params.length ≠ 40 then (t, .fail .badParam)
    else if log.length ≤ off then (t, .fail .badParam 32)
    else if beAt d.params 36 4 ≠ 0 then (t, .fail .badParam 36)
    else
      let page := slice log off 3960
      (t, .good (beBytes 4 log.length ++ beBytes 2 page.length ++ zeros 2 ++
        ed448Sign (deviceSecret 0) (log ++ d.params.take 32) "ZLK-ATTEST" ++ zeros 2 ++ page)))

/-! ### Staging and verifying (18 R413) -/

/-- FW_STAGE. -/
def execFwStage (d : Datagram) (s : State) : Host.Outcome State Fault Refusal :=
  .next (s.serve d 0x0060 true none none fun _ t =>
    let len := beAt d.params 0 8
    if d.params.length ≠ 8 then (t, .fail .badParam)
    else if len = 0 then (t, .fail .badParam 0)
    else if t.staging.any fun g => g.kind == 1 then (t, .fail .resourceBusy)
    else if 268435456 < len then (t, .fail .noResource)
    else
      match t.stagePlace 0x2FC0000000 0x2FF0000000 len with
      | some (base, u) => u.newStage d 1 base len
      | none => (t, .fail .noResource))

/-- Whether an image's allow-list record, where it has one, is signed (19 R430). -/
def allowSigned (img : List Byte) : Bool :=
  match imageAllow img with
  | some r => allowValid (imageOwner img) r
  | none => true

/-- FW_VERIFY (18 R413; 19 R422, R430, R432): the new image's entries enter the log with IMAGE 1 and PARTIAL. -/
def execFwVerify (d : Datagram) (s : State) : Host.Outcome State Fault Refusal :=
  .next (s.serve d 0x0061 true none none fun _ t =>
    let late := fun (u : State) (st : Status) (ps : List Byte) (detail : Nat) =>
      (u, ({ status := .pending, params := zeros 16, final := some (st, ps, 0xFFFFFFFF, detail) } : Answer))
    if d.params.length ≠ 4 then (t, .fail .badParam)
    else
      match t.stageOf 1 (beAt d.params 0 4) with
      | none => (t, .fail .badParam 0)
      | some g =>
        let img := t.stagedBytes g
        let r := t.imageCheck 0 img
        if r ≠ 0 then late t .authFail [] r
        else if !allowSigned img then late t .authFail [] 0
        else
          let u : State := { t with staging := t.staging.map fun (x : Staging) => if x.id = g.id then { x with verified := true } else x }
          let v := u.relog ((u.log.filter fun e => e.image == 0) ++ imageEntries img 1 true)
          late v .ok (beBytes 4 (leAt img 4 4) ++ zeros 4 ++ beBytes 8 (leAt img 24 8)) 0)

/-! ### Activating (18 R414, R415) -/

/-- Whether an image may be activated live: LIVE_SERVICE, and the running version at least the image's MIN_LIVE. -/
def State.liveAllowed (s : State) (img : List Byte) : Bool := bit (s.die 0).svcMode.toNat 1 && leAt img 8 4 ≤ s.fwVersion

/-- FW_ACTIVATE: region 0 of every die begins, or the part recovers as a package from the staged image. -/
def execFwActivate (d : Datagram) (s : State) : Host.Outcome State Fault Refusal :=
  .next (s.serve d 0x0062 true none none fun _ t =>
    if d.params.length ≠ 4 then (t, .fail .badParam)
    else if t.activation.isSome then (t, .fail .resourceBusy)
    else
      match t.stageOf 1 (beAt d.params 0 4) with
      | none => (t, .fail .badParam 0)
      | some g =>
        let img := t.stagedBytes g
        if !g.verified || t.imageCheck 0 img ≠ 0 then (t, .fail .badParam 0)
        else if t.dies.any fun x => x.service.isSome then (t, .fail .resourceBusy)
        else
          let live := t.liveAllowed img
          let a : Activation := { req := dgReq d, stageId := g.id, image := img, step := if live then 1 else 0, restart := !live }
          let u : State := { t with activation := some a }
          if live then ((List.range t.dieCount).foldl (fun v k => v.quiesceForModule k 0) u, .wait)
          else (u.recover .package 7 none none [], .wait))

/-- An activation ends: the staging area goes, and the final reply leaves. -/
def State.endActivation (s : State) (a : Activation) (st : Status) : State :=
  ((({ s with activation := none } : State).dropStage a.stageId).relogBase).finish a.req st []

/-- FW_FLASH_WRITE_DONE (18 R414 step 4, R415): a good read-back raises ROLLBACK and installs the allow-list; the third bad one ends
the activation with TIMEOUT. -/
def execFwFlashWriteDone (ok : Bool) (s : State) : Host.Outcome State Fault Refusal :=
  match s.activation with
  | none => .next s
  | some a =>
    if a.step ≠ 4 ∨ s.firmwareRuns = false then .next s
    else if ok then
      let s1 : State := { s with flash := { s.flash with image := a.image, broken := false } }
      .next ((((s1.raiseRollback a.image).installAllow a.image).event 0 srcService 0x0B06 (leAt a.image 4 4)).endActivation a .ok)
    else
      let n := a.attempts + 1
      let s1 := s.event 0 srcService 0x0B07 n
      .next (if 3 ≤ n then s1.endActivation a .timeout else { s1 with activation := some { a with attempts := n } })

/-! ### Network recovery (19 R425) -/

/-- RECOVER_LOAD STAGE. -/
def State.recoverStage (s : State) (d : Datagram) : State × Answer :=
  let len := beAt d.params 4 8
  if d.params.length ≠ 12 then (s, .fail .badParam)
  else if beAt d.params 1 3 ≠ 0 then (s, .fail .badParam 1)
  else if len = 0 then (s, .fail .badParam 4)
  else if 268435456 < len ∨ (s.staging.any fun g => g.kind == 2) = true then (s, .fail .noResource)
  else
    match s.stagePlace (deepBase 0) (deepBase 0 + 0xC0000000) len with
    | some (base, t) => t.newStage d 2 base len
    | none => (s, .fail .noResource)

/-- RECOVER_LOAD COMMIT: the image checked, written, and booted 100 ms later. -/
def State.recoverCommit (s : State) (d : Datagram) (written : Bool) : State × Answer :=
  let late := fun (t : State) (st : Status) (detail : Nat) =>
    (t, ({ status := .pending, final := some (st, [], 0xFFFFFFFF, detail) } : Answer))
  if d.params.length ≠ 8 then (s, .fail .badParam)
  else if beAt d.params 1 3 ≠ 0 then (s, .fail .badParam 1)
  else
    match s.stageOf 2 (beAt d.params 4 4) with
    | none => (s, .fail .badParam 4)
    | some g =>
      let img := s.stagedBytes g
      let r := if s.bootResult = 6 then 6 else s.imageCheck 0 img
      if r ≠ 0 then late s .authFail r
      else if !written then late ({ s with flash := { s.flash with broken := true } }.dropStage g.id) .timeout 0
      else
        let s1 : State := { s with flash := { s.flash with image := img, broken := false }, rebootAt := some (s.gts + 10 ^ 8) }
        late (((s1.raiseRollback img).installAllow img).dropStage g.id) .ok 0

/-- RECOVER_LOAD by PHASE. -/
def State.recoverLoad (s : State) (d : Datagram) (written : Bool) : State × Answer :=
  match beAt d.params 0 1 with
  | 0 => s.recoverStage d
  | 1 => s.recoverCommit d written
  | _ => (s, .fail .badParam 0)

/-- RECOVER_LOAD STAGE. -/
def execRecoverLoadStage (d : Datagram) (s : State) : Host.Outcome State Fault Refusal :=
  .next (s.serve d 0x0091 true none none fun _ t => t.recoverLoad d false)

/-- RECOVER_LOAD COMMIT. -/
def execRecoverLoadCommit (d : Datagram) (written : Bool) (s : State) : Host.Outcome State Fault Refusal :=
  .next (s.serve d 0x0091 true none none fun _ t => t.recoverLoad d written)

end Sys2Proof.Machine
end

