-- ==== Sys2Proof/Machine/Power.lean ====
section
/-! DEFINITION. Power and thermal control (15 R352, R353; 20 R441, R449 to R453): the power controller of a die, class gating, the
VDD_CORE target and the thermal trip. -/

namespace Sys2Proof.Machine

/-- The sensor word's temperature in 1/16 °C, none while VALID is 0 (15 R345). -/
def sensorTemp (w : Word) : Option Int := if bit w.toNat 16 then some (signed 16 w.toNat) else none

/-- The hottest valid sensor: its number and temperature (15 R353). -/
def hottest (ws : List Word) : Option (Nat × Int) :=
  ws.zipIdx.foldl (fun best p =>
    match sensorTemp p.1, best with
    | some t, some b => if b.2 < t then some (p.2, t) else best
    | some t, none => some (p.2, t)
    | none, _ => best) none

/-- Whether 10 µs have passed since a region's latest change of frequency (01 R24). -/
def Region.mayStep (r : Region) (now : Nat) : Bool :=
  !r.quiesced && r.hul == 0 && (r.stepAt == 0 || r.stepAt + 10000 ≤ now)

/-- One evaluation's lowering of a region: past its limit (20 R449), or above its CAP (15 R352). -/
def Region.lower (r : Region) (pastLimit : Bool) (now : Nat) : Region :=
  if 0 < r.step ∧ (pastLimit ∨ r.cap.toNat < r.step) ∧ r.mayStep now then
    { r with step := r.step - 1, stepAt := now, raiseWait := none }
  else if pastLimit then { r with raiseWait := none }
  else r

/-- Whether a region may rise by one step (20 R449). -/
def Region.mayRaise (r : Region) (now : Nat) : Bool := r.mayStep now && r.step < r.cap.toNat

/-- Raising by one step where the measured VDD_CORE supports it, otherwise waiting for it (20 R441). -/
def Region.raise (r : Region) (die : Nat) (vcore now : Nat) : Region :=
  if !r.mayRaise now then r
  else if Config.stepVoltage die (r.step + 1) ≤ vcore then { r with step := r.step + 1, stepAt := now, raiseWait := none }
  else if r.raiseWait.isSome then r
  else { r with raiseWait := some now }

/-- The highest STEP any region of a die runs or is about to run (20 R441). -/
def Die.topStep (d : Die) : Nat :=
  d.regions.foldl (fun m r => max m (if r.raiseWait.isSome then r.step + 1 else r.step)) 0

/-- The die with its VDD_CORE target published: the fused value of the highest STEP plus 15 mV, in units of 5 mV (20 R441). -/
def Die.publishVcore (d : Die) (i : Nat) : Die :=
  { d with vcoreTarget := some (roundUp (Config.stepVoltage i d.topStep + 15) 5) }

/-- Whether the raise keeps the power at most PWR_LIMIT less 2 W, for every region that would rise (20 R449; frequency
1,200 + 50 × STEP MHz). -/
def Die.powerAllows (d : Die) (power10 now : Nat) : Bool :=
  d.regions.all fun r => !r.mayRaise now ||
    power10 * (1250 + 50 * r.step) + 32 * (1200 + 50 * r.step) ≤ d.pwrLimit.toNat * (1200 + 50 * r.step)

/-- Whether the die may consider raising (20 R449, R450): not past a limit for 1 ms, PWR_TJ below 97 °C, no class gated, 1 ms after
the last raise. -/
def Die.mayConsider (d : Die) (tj : Int) (now : Nat) : Bool :=
  (match d.lastOver with
   | some t => t + 1000000 ≤ now
   | none => true) && tj < 1552 && d.gated.isEmpty && (d.lastRaise == 0 || d.lastRaise + 1000000 ≤ now)

/-- The power controller's evaluation on one die (20 R449, R450, R452; 15 R353). -/
def Die.evaluate (d : Die) (i power10 power1ms : Nat) (sensors : List Word) (now : Nat) : Die :=
  let tj := match hottest sensors with
    | some p => p.2
    | none => signed 16 d.pwrTj.toNat
  let pastLimit := d.pwrLimit.toNat < power10 || 1600 ≤ tj
  let atFloor := pastLimit && d.regions.all (·.step == 0)
  let lowered := d.regions.map fun r => r.lower pastLimit now
  let d1 := { d with
    sensors := sensors, pwrPower := BitVec.ofNat 16 power1ms, pwrTj := BitVec.ofInt 16 tj, regions := lowered
    lastOver := if pastLimit then some now else d.lastOver
    floorSince := if atFloor then some (d.floorSince.getD now) else none
    coolSince := if tj < 1632 then some (d.coolSince.getD now) else none }
  let rises := !pastLimit && d1.mayConsider tj now && d1.powerAllows power10 now && d1.regions.any (·.mayRaise now)
  let d2 := if rises then
      { d1 with regions := d1.regions.map fun r => r.raise i d1.vcore.toNat now, lastRaise := now }
    else d1
  let below := d2.regions.any fun r => r.step < r.cap.toNat
  let throttling := (pastLimit || bit d.pwrStatus.toNat 0) && below
  let hot := 1600 ≤ tj || (bit d.pwrStatus.toNat 2 && 1552 ≤ tj)
  let st := b01 throttling + 2 * b01 atFloor + 4 * b01 hot + 8 * b01 (1680 ≤ tj)
  let newly := fun (k : Nat) => bit st k && !bit d.pwrStatus.toNat k
  let d3 := { d2 with pwrStatus := BitVec.ofNat 4 st }
  let d4 := if newly 0 then d3.stick .throttle else d3
  let d5 := if newly 2 then d4.stick .tj100 else d4
  let d6 := if newly 3 then d5.stick .tj105 else d5
  d6.publishVcore i

/-- The gated classes as the mask of 0x0C01 (20 R451). -/
def gateMask (g : List Nat) : Nat := (g.map fun c => 2 ^ c).sum

/-- Gated classes replaced, with event 0x0C01 when they change (20 R450, R451). -/
def State.setGated (s : State) (die : Nat) (g : List Nat) : State :=
  if (s.die die).gated = g then s
  else
    ((s.onDie die fun d => { d with gated := g, gateAt := s.gts }).event 0 srcService 0x0C01
      (die * 2 ^ 24 + gateMask g)).serveDie die

/-- PWR_TJ at 105 °C or higher: classes 1 to 3 gated at once, event 0x0C02 once until PWR_TJ falls below 102 °C (20 R450,
R451). -/
def State.hotGate (s : State) (die : Nat) : State :=
  let d := s.die die
  match hottest d.sensors with
  | some (k, t) =>
    if 1680 ≤ t then
      let s1 := s.setGated die [1, 2, 3]
      if d.tj105Noted then s1
      else (s1.onDie die fun e => { e with tj105Noted := true }).event 0 srcService 0x0C02
        (die * 2 ^ 24 + k * 2 ^ 16 + unsigned 16 t)
    else if t < 1632 then s.onDie die fun e => { e with tj105Noted := false }
    else s
  | none => s

/-- POWER_CONTROLLER_TICK: the evaluation of every 10 µs (20 R449). -/
def execPowerControllerTick (die power10 power1ms : Nat) (sensors : List Word) (s : State) : Host.Outcome State Fault Refusal :=
  if s.dieCount ≤ die then .fault .absentElement
  else if s.phase ≠ .running then .next s
  else .next ((s.onDie die fun d => d.evaluate die power10 power1ms sensors s.gts).hotGate die)

/-- The class the next gating adds: 3, then 2, then 1 (20 R450). -/
def nextGated (g : List Nat) : List Nat :=
  if !g.contains 3 then [3] else if !g.contains 2 then [2, 3] else [1, 2, 3]

/-- CLASS_GATE_TIMER (20 R450): one class more after each 1 ms at the floor; one class fewer, class 1 first, after each 10 ms
in which the die is not over. -/
def execClassGateTimer (die : Nat) (s : State) : Host.Outcome State Fault Refusal :=
  if s.dieCount ≤ die then .fault .absentElement
  else if s.phase ≠ .running then .next s
  else
    let d := s.die die
    match d.floorSince with
    | some t =>
      if max t d.gateAt + 1000000 ≤ s.gts then .next (s.setGated die (nextGated d.gated)) else .next s
    | none =>
      let quiet := match d.lastOver with
        | some t => t + 10000000 ≤ s.gts
        | none => true
      let cool := match d.coolSince with
        | some t => t + 10000000 ≤ s.gts
        | none => false
      if quiet && cool && d.gateAt + 10000000 ≤ s.gts then .next (s.setGated die (d.gated.drop 1)) else .next s

/-- A region's raise that waited for VDD_CORE: it goes through, or is given up after 10 ms (20 R441). -/
def Region.vcoreArrives (r : Region) (die : Nat) (vcore now : Nat) : Region :=
  match r.raiseWait with
  | some t =>
    if Config.stepVoltage die (r.step + 1) ≤ vcore ∧ r.mayRaise now then
      { r with step := r.step + 1, stepAt := now, raiseWait := none }
    else if t + 10000000 ≤ now then { r with raiseWait := none }
    else r
  | none => r

/-- VCORE_TARGET_WAIT: PWR_VCORE is measured, and waiting regions rise or stay (20 R441). -/
def execVcoreTargetWait (die vcore : Nat) (s : State) : Host.Outcome State Fault Refusal :=
  if s.dieCount ≤ die then .fault .absentElement
  else if s.phase ≠ .running then .next s
  else .next (s.onDie die fun d =>
    ({ d with vcore := BitVec.ofNat 12 vcore
              regions := d.regions.map fun (r : Region) => r.vcoreArrives die vcore s.gts }).publishVcore die)

/-- THERMAL_TRIP: a sensor at 115 °C asserts THERMTRIP_N and stops every clock (20 R453). -/
def execThermalTrip (die sensor : Nat) (temp : Int) (s : State) : Host.Outcome State Fault Refusal :=
  if s.dieCount ≤ die ∨ 16 ≤ sensor then .fault .absentElement
  else if temp < 1840 ∨ s.phase = .tripped then .next s
  else .next (({ s with phase := .tripped, thermTrip := true } : State).emit (.pin "THERMTRIP_N" false))

end Sys2Proof.Machine
end

