-- ==== Sys2Proof/Machine/Twin.lean ====
section
/-! DEFINITION. What a twin part hears of archive streams, and how long it waits (14 R332, R334). -/

namespace Sys2Proof.Machine

/-- Whether a picture's digest is still to be compared: a later copy of one already compared is not (14 R332). -/
def Stream.awaits (x : Stream) (t : Nat) : Bool :=
  !(x.twin.peer.any (·.1 == t)) && match x.twin.own.head?, x.lastPicture with
    | some o, _ => o.1 ≤ t
    | none, some l => l < t
    | none, none => true

/-- A message of the peer about a pair: `picture` is none for CONFIG. A pair not open here yet keeps the first copy. -/
def State.twinHeard (s : State) (pair : Nat) (picture : Option Nat) (digest : List Byte) : State :=
  match s.streams.find? fun y => y.params.archive == pair && y.state != .stopped with
  | none =>
    if s.twin.early.any fun e => e.1 == pair && e.2.1 == picture then s
    else { s with twin := { s.twin with early := s.twin.early ++ [(pair, picture, digest)] } }
  | some x =>
    let a := x.twin
    match picture with
    | none =>
      if a.peerConfig.isSome then s
      else ((s.setStream { x with twin := { a with peerConfig := some digest } }).twinSettle x.number 64).settleClose x.number
    | some t =>
      if x.awaits t = false then s
      else ((s.setStream { x with twin := { a with peer := a.peer ++ [(t, digest)] } }).twinSettle x.number 64).settleClose x.number

/-- Whether a port carries twin messages for a pair. -/
def State.twinPort (s : State) (port pair : Nat) : Bool :=
  s.twin.on && (s.die port).plk.twin && 1 ≤ pair && pair ≤ 255 && s.firmwareRuns

/-- CONFIG (14 R334): the peer's digest of a pair's profile and open parameters. -/
def execConfig (port pair : Nat) (digest : List Byte) (s : State) : Host.Outcome State Fault Refusal :=
  onMsg s port fun t => if t.twinPort port pair then t.twinHeard pair none digest else t

/-- DIGEST (14 R334): the peer's digest of a picture; on equality the primary emits the picture, else both parts stop. -/
def execDigest (port pair picture : Nat) (digest : List Byte) (s : State) : Host.Outcome State Fault Refusal :=
  onMsg s port fun t => if t.twinPort port pair then t.twinHeard pair (some picture) digest else t

/-- TWIN_DIGEST_TIMEOUT (14 R334): 30 s after this part's own digest without the peer's. -/
def execTwinDigestTimeout (stream : Nat) (s : State) : Host.Outcome State Fault Refusal :=
  match s.stream stream with
  | none => .next s
  | some x =>
    .next (match x.twin.own.head? with
      | some o =>
        if s.firmwareRuns ∧ x.state ≠ .stopped ∧ o.2.2 + 30 * 10 ^ 9 ≤ s.gts ∧
            (x.twin.peerConfig.isNone ∨ (x.twin.peer.any (·.1 == o.1)) = false) then
          (s.haltStream stream .timeout).settleClose stream
        else s
      | none => s)

end Sys2Proof.Machine
end

