-- ==== Sys2Proof/Machine/Units.lean ====
section
/-! DEFINITION. The units a decoding stream reads: their checks in the order of 12 R284, the damage of 12 R285, and what each gives to
the picture it belongs to (09 R206, R211, R215; 10 R233, R234, R242, R243; 12 R264 to R285). -/

namespace Sys2Proof.Machine

/-! ### Where a stream stands -/

/-- The picture whose units are arriving. -/
def Stream.current (x : Stream) : Option Pic := x.pics.find? fun p => !p.ended

/-- The counter of the latest picture whose header has been read. -/
def Stream.lastRead (x : Stream) : Option Nat :=
  x.pics.foldl (fun m p => some (max p.picture (m.getD 0))) x.lastPicture

/-- The counter the next picture header must carry: one more than the last, and at the start that of the first header, or 0. -/
def Stream.expected (x : Stream) : Nat :=
  match x.lastRead with
  | some t => t + 1
  | none => x.firstPicture.getD 0

/-- A stream that will stop before a picture, once the pictures before it are complete: the picture whose units are arriving, else
the one that follows. -/
def Stream.doomed (x : Stream) (st : Status) (damage : List Damage) : Stream :=
  match x.current with
  | some p => { x.onPic p.picture fun q => { q with doom := some st, damage := damage } with inBytes := [] }
  | none => { x with inBytes := [], pics := x.pics ++ [{ picture := x.expected, doom := some st, damage := damage }] }

/-- Picture-level damage (10 R242, R243); `at_`: the counter it is reported against when no picture is in hand. -/
def Stream.hurt (x : Stream) (at_ : Option Nat) (cause detail : Nat) : Stream :=
  let t := match x.current with
    | some p => p.picture
    | none => at_.getD x.expected
  x.doomed .streamDamaged [⟨t, none, cause, detail⟩]

/-- A syntax bound broken (12 R285). -/
def Stream.syntaxHurt (x : Stream) (detail : Nat) : Stream := x.hurt none 0x20 detail

/-- A unit of the types of `mine` at the front of a decoding stream's input: it is framed and checked (12 R265 to R267), and `k`
takes its body without the CRC. A unit of another type, or one that has not wholly arrived, is left where it is. -/
def State.takeUnit (s : State) (n : Nat) (mine : Nat → Bool) (k : Stream → List Byte → Stream) : State :=
  match s.stream n with
  | none => s
  | some x =>
    let type := leAt x.inBytes 0 1
    let len := beAt x.inBytes 4 4
    if x.state = .stopped ∨ s.firmwareRuns = false ∨ x.unitReady = false ∨ mine type = false then s
    else
      let y :=
        if x.endSeen then x.syntaxHurt 0x11
        else if len < 4 ∨ 0x7FFFFFFF < len then x.syntaxHurt 2
        else
          let u := x.inBytes.take (8 + len)
          let z := { x with inBytes := x.inBytes.drop (8 + len) }
          if crc32c (u.take (4 + len)) ≠ beAt u (4 + len) 4 then z.hurt none 1 0
          else if beAt u 1 3 ≠ 0 then z.syntaxHurt 2
          else k (match z.current with
            | some p => z.onPic p.picture fun q => { q with bytes := q.bytes + u.length }
            | none => z) (slice u 8 (len - 4))
      ((s.setStream y).settleDoom n).settleClose n

/-- The first condition of a list that fails gives its detail. -/
def firstFault (l : List (Nat × Bool)) : Option Nat := (l.find? (! ·.2)).map (·.1)

/-! ### STREAM_HEADER (12 R270 to R272) -/

/-- The parameters a stream header's body gives. -/
def StreamParams.ofHeader (p : StreamParams) (media : Nat) (b : List Byte) : StreamParams :=
  let at_ := beAt b
  let q := { p with refreshN := at_ 38 2, reconDigest := at_ 36 2 % 4 }
  match media with
  | 0 => { q with width := at_ 44 2, height := at_ 46 2, bitDepth := at_ 48 1, sampling := at_ 49 1, tileSize := at_ 50 2 }
  | 1 => { q with sampleRate := at_ 44 4, channels := at_ 48 1, bitDepth := at_ 49 1 }
  | _ => { q with azimuth := at_ 44 2, beams := at_ 46 2, returnPlane := at_ 48 1 % 2, tileSize := at_ 50 2 }

/-- Whether a stream header's fields lie in their ranges, its derived and unused bytes as their rules give (12 R270, R271). -/
def headerFieldsOk (k : Kind) (b : List Byte) : Bool :=
  let p := ({} : StreamParams).ofHeader k.media b
  let ids := match k.media with
    | 0 => [(1, p.width), (2, p.height), (3, p.bitDepth), (4, p.sampling), (5, p.tileSize)]
    | 1 => [(0x0A, p.sampleRate), (0x0B, p.channels), (3, p.bitDepth)]
    | _ => [(0x0C, p.azimuth), (0x0D, p.beams), (5, p.tileSize)]
  beAt b 36 2 / 8 == 0 && beAt b 36 2 % 4 != 3 && k.valueOk 6 p.refreshN && beAt b 40 1 == 0 &&
    (ids.all fun i => k.valueOk i.1 i.2) && !k.disagrees { p with maxInput := 0 } &&
    slice b 44 16 == p.mediaPart k.media k.geo.stride

/-- A stream header's body (12 R272; 09 R206; 10 R234). -/
def Stream.readHeader (x : Stream) (k : Kind) (b : List Byte) : Stream :=
  let first := beAt b 41 3
  let bad := x.hurt (some first) 0x20
  if b.length ≠ 60 then bad 3
  else if beAt b 0 2 ≠ 0x5A42 ∨ beAt b 2 1 ≠ 1 ∨ beAt b 3 1 ≠ k.media then bad 4
  else if slice b 4 32 ≠ x.digest then x.doomed .profileMismatch []
  else if headerFieldsOk k b = false then bad 4
  else if x.header = [] then
    if headerBefore first (beAt b 38 2) = false then x.hurt (some first) 0x31 0
    else { x with header := b, headerPending := some b, firstPicture := some first, params := x.params.ofHeader x.media b }
  else if b.take 40 ++ b.drop 44 ≠ x.header.take 40 ++ x.header.drop 44 ∨ headerBefore first x.params.refreshN = false then bad 4
  else if x.current.isSome ∨ x.headerPending.isSome ∨ headerBefore x.expected x.params.refreshN = false then bad 5
  else { x with headerPending := some b }

/-- STREAM_HEADER. -/
def execStreamHeader (stream : Nat) (s : State) : Host.Outcome State Fault Refusal :=
  .next (s.takeUnit stream (· == 1) fun x b => x.readHeader (s.kindOf x) b)

/-! ### PICTURE_HEADER (12 R273, R274) -/

/-- Whether a picture header's fields lie in their ranges and are what the counter and the stream header give. -/
def pictureFieldsOk (p : StreamParams) (media stride : Nat) (b : List Byte) : Bool :=
  let t := beAt b 1 3
  let flags := beAt b 7 1
  let range := beAt b 16 8
  beAt b 4 1 ≤ 63 && (!whollyIntra t p.refreshN (p.cols media stride) || beAt b 5 1 == 0) && beAt b 6 1 / 16 == 0 && (media == 0 || beAt b 6 1 == 0) &&
    flags / 32 == 0 && bit flags 0 == refreshComplete t p.refreshN && beAt b 8 2 == refreshPos t p.refreshN &&
    beAt b 10 2 ≤ 64 && (bit flags 2 || beAt b 10 2 == 0) && beAt b 12 2 == p.tiles media stride && beAt b 14 2 == 0 &&
    if media = 2 then
      beAt b 17 1 ≤ 1 && (beAt b 17 1 == 1 || beAt b 18 1 == 0) && beAt b 19 1 == 0 && 1 ≤ beAt b 20 2 && beAt b 20 2 ≤ 256 &&
        beAt b 22 2 == 0
    else range == 0

/-- A picture header taken. -/
def Stream.startPicture (x : Stream) (b : List Byte) (t : Nat) : Stream :=
  { x with
    headerPending := none
    pics := x.pics ++ [{
      picture := t, qi := beAt b 4 1, header := b, marks := beAt b 6 1, bytes := 36 + (if x.headerPending.isSome then 72 else 0)
      params := if x.media = 2 then
          { x.params with rangeE := beAt b 16 1, imode := beAt b 17 1, ei := beAt b 18 1, resDepth := beAt b 20 2 }
        else x.params }] }

/-- A picture header's body: the bounds of 12 R285, then the order of 12 R268 (12 R284). -/
def Stream.readPicture (x : Stream) (stride : Nat) (b : List Byte) : Stream :=
  let t := beAt b 1 3
  let bad := x.hurt (some t) 0x20
  if b.length ≠ 24 then x.syntaxHurt 3
  else if x.header = [] then bad 5
  else if beAt b 0 1 ≠ 0 then bad 6
  else if x.lastRead = some (2 ^ 24 - 1) then bad 0x12
  else if (match x.headerPending with | some h => beAt h 41 3 != t | none => false) then bad 5
  else if t ≠ x.expected then bad 6
  else if x.headerPending.isNone && headerBefore t x.params.refreshN then bad 5
  else if pictureFieldsOk x.params x.media stride b = false then bad 7
  else if x.current.isSome then bad 8
  else x.startPicture b t

/-- PICTURE_HEADER. -/
def execPictureHeader (stream : Nat) (s : State) : Host.Outcome State Fault Refusal :=
  .next (s.takeUnit stream (· == 2) fun x b => x.readPicture (s.strideOf x) b)

/-! ### Side data (12 R275 to R277) -/

/-- NDELTA and FLAGS of a picture. -/
def Pic.ndelta (p : Pic) : Nat := beAt p.header 10 2
def Pic.flags (p : Pic) : Nat := beAt p.header 7 1

/-- How far a picture's units have come in the order of 12 R268: every DELTA, then the ROI unit, then METADATA, then TILE units. -/
def Pic.deltasIn (p : Pic) : Bool := p.deltas.length == p.ndelta && (bit p.flags 2 == (p.ndelta != 0))
def Pic.roiIn (p : Pic) : Bool := p.deltasIn && (p.hasRoi == bit p.flags 1)
def Pic.metaIn (p : Pic) : Bool := p.roiIn && (p.hasMeta == bit p.flags 3)

/-- A unit of the picture in hand: none in hand is out of order (12 R268). -/
def Stream.inPicture (x : Stream) (k : Pic → Stream) : Stream :=
  match x.current with
  | some p => k p
  | none => x.syntaxHurt 8

/-- A DELTA unit's body (12 R275; 09 R211, R215). -/
def Stream.readDelta (x : Stream) (img b : List Byte) : Stream :=
  let layer := leAt b 0 1
  if deltaLengthOk b = false then x.syntaxHurt 3
  else if bit (beAt x.header 36 2) 2 = false then x.syntaxHurt 0x0B
  else if x.params.adapt = 0 then x.doomed .noResource []
  else if deltaFieldsOk img b = false then x.syntaxHurt 0x0B
  else x.inPicture fun p =>
    if p.deltas.any fun d => leAt d 0 1 == layer then x.syntaxHurt 0x0B
    else if p.ndelta ≤ p.deltas.length ∨ p.hasRoi ∨ p.hasMeta ∨ p.tiles ≠ [] ∨ (p.deltas.any fun d => decide (layer < leAt d 0 1)) then
      x.syntaxHurt 8
    else x.onPic p.picture fun q => { q with deltas := q.deltas ++ [b] }

/-- DELTA. -/
def execDelta (stream : Nat) (s : State) : Host.Outcome State Fault Refusal :=
  .next (s.takeUnit stream (· == 3) fun x b => x.readDelta ((s.slotImage x.slot).getD []) b)

/-- Whether an ROI rectangle of a unit stands (12 R276). -/
def roiRectOk (p : StreamParams) (b : List Byte) (i : Nat) : Bool :=
  let r := (roiOf b (4 + 10 * i) 1).getD 0 ⟨0, 0, 0, 0, 0⟩
  r.x0 < r.x1 && r.x1 ≤ p.width && r.y0 < r.y1 && r.y1 ≤ p.height && -64 ≤ r.dq && r.dq ≤ 63 && beAt b (13 + 10 * i) 1 == 0

/-- An ROI unit's body. -/
def Stream.readRoi (x : Stream) (b : List Byte) : Stream :=
  let n := beAt b 0 1
  if b.length < 4 ∨ b.length ≠ 4 + 10 * n then x.syntaxHurt 3
  else if x.media ≠ 0 ∨ n = 0 ∨ 16 < n ∨ beAt b 1 3 ≠ 0 ∨ ((List.range n).all (roiRectOk x.params b)) = false then x.syntaxHurt 0x0C
  else x.inPicture fun p =>
    if p.deltasIn = false ∨ bit p.flags 1 = false ∨ p.hasRoi ∨ p.hasMeta ∨ p.tiles ≠ [] then x.syntaxHurt 8
    else x.onPic p.picture fun q => { q with hasRoi := true, roi := roiOf b 4 n }

/-- ROI. -/
def execRoi (stream : Nat) (s : State) : Host.Outcome State Fault Refusal :=
  .next (s.takeUnit stream (· == 4) fun x b => x.readRoi b)

/-- A METADATA unit's body (12 R277). -/
def Stream.readMetadata (x : Stream) (b : List Byte) : Stream :=
  match lzAll b with
  | none => x.syntaxHurt 0x0D
  | some m =>
    if m = [] ∨ 65536 < m.length then x.syntaxHurt 0x0D
    else x.inPicture fun p =>
      if p.roiIn = false ∨ bit p.flags 3 = false ∨ p.hasMeta ∨ p.tiles ≠ [] then x.syntaxHurt 8
      else x.onPic p.picture fun q => { q with hasMeta := true, metadata := m }

/-- METADATA. -/
def execMetadata (stream : Nat) (s : State) : Host.Outcome State Fault Refusal :=
  .next (s.takeUnit stream (· == 5) fun x b => x.readMetadata b)

/-! ### TILE (12 R278, R279) -/

/-- The bytes of `k` sub-units from an offset. -/
def subsEnd (b : List Byte) : Nat → Nat → Nat
  | 0, o => o
  | k + 1, o => subsEnd b k (o + 8 + beAt b (o + 4) 4)

/-- The body length, without the CRC, that 12 R278 gives a TILE unit. -/
def tileLength (b : List Byte) : Nat :=
  let lens := (List.range (leAt b 2 1)).map fun i => beAt b (8 + 4 * i) 4
  subsEnd b (b01 (bit (leAt b 3 1) 0) + b01 (bit (leAt b 3 1) 1)) (8 + 4 * leAt b 2 1 + lens.sum + ceilDiv (beAt b 4 4) 8)

/-- A TILE unit's body, as it arrives. -/
def Stream.readTile (x : Stream) (stride : Nat) (b : List Byte) : Stream :=
  let k := beAt b 0 2
  if b.length < 8 ∨ b.length ≠ tileLength b then x.syntaxHurt 3
  else x.inPicture fun p =>
    if p.params.tiles x.media stride ≤ k ∨ (p.tiles.any fun w => w.tile == k) then x.syntaxHurt 9
    else if p.metaIn = false then x.syntaxHurt 8
    else x.onPic p.picture fun q => { q with tiles := q.tiles ++ [{ tile := k, unit := b }] }

/-- TILE. -/
def execTile (stream : Nat) (s : State) : Host.Outcome State Fault Refusal :=
  .next (s.takeUnit stream (· == 6) fun x b => x.readTile (s.strideOf x) b)

/-! ### PICTURE_END and the checks of each tile before its first step (12 R279 to R281, R284) -/

/-- Whether a tile's header fields are what the profile and the picture give. -/
def tileHeaderOk (p : StreamParams) (media stride nsteps t : Nat) (w : TileWork) : Bool :=
  let b := w.unit
  let motion := hasMotion p media stride t w.tile
  let kinds := (if motion then [1] else []) ++ if media = 2 then [2] else []
  let subs := subsFrom b
  let second := subs + 8 + beAt b (subs + 4) 4
  leAt b 2 1 == nsteps && leAt b 3 1 == b01 motion + 2 * b01 (media == 2) && (tileSubs b 2 subs).map (·.1) == kinds &&
    (kinds.isEmpty || beAt b (subs + 1) 3 == 0) && (kinds.length < 2 || beAt b (second + 1) 3 == 0)

/-- What is wrong with a motion entry (12 R280; 10 R233); `refreshed`: its column, `late`: the decoder did not begin at picture 0,
`slots`: what each slot holds. -/
def entryDamage (n t used : Nat) (refreshed late : Bool) (slots : List (Option Nat)) (e : List Byte) : Option (Nat × Nat) :=
  let mx := signed 16 (leAt e 0 2)
  let my := signed 16 (leAt e 2 2)
  let r := leAt e 4 1
  if mx < -2048 ∨ 2048 < mx ∨ my < -1024 ∨ 1024 < my ∨ (7 < r ∧ r ≠ 0xFF) ∨ 1 < leAt e 5 1 ∨ leAt e 6 2 ≠ 0 ∨
      (r = 0xFF ∧ (mx ≠ 0 ∨ my ≠ 0)) then some (0x20, 0x0E)
  else if r ≠ 0xFF ∧ (bit used r = false ∨ refAllowed t n refreshed late (slots.getD r none) = false) then some (0x30, 0)
  else none

/-- What is wrong with a tile's motion field. -/
def motionDamage (x : Stream) (p : Pic) (stride : Nat) (w : TileWork) (field : Option (List Byte)) : Option (Nat × Nat) :=
  let (_, _, bw, bh) := p.params.tileBox x.media stride w.tile
  match field with
  | none => some (0x20, 0x0E)
  | some m =>
    if m.length ≠ 8 * (ceilDiv bw 8 * ceilDiv bh 8) then some (0x20, 0x0E)
    else
      let n := p.params.refreshN
      let nc := p.params.cols x.media stride
      let fresh := decide (w.tile % max 1 nc < endColumn p.picture n nc)
      (List.range (m.length / 8)).findSome? fun i =>
        entryDamage n p.picture (beAt p.header 5 1) fresh (x.firstPicture.getD 0 != 0) (x.slotsAt p.picture) (slice m (8 * i) 8)

/-- A tile before its first step: its motion field, and what is wrong with it. -/
def checkTile (x : Stream) (p : Pic) (stride nsteps : Nat) (w : TileWork) : TileWork × Option (Nat × Nat) :=
  if tileHeaderOk p.params x.media stride nsteps p.picture w = false then (w, some (0x20, 0x0A))
  else if hasMotion p.params x.media stride p.picture w.tile then
    let m := lzAll (tileSub w.unit 1)
    ({ w with motion := m.getD [] }, motionDamage x p stride w m)
  else (w, none)

/-- A picture all of whose units have arrived: its input is complete, and every tile is checked. -/
def State.endPicture (s : State) (x : Stream) (stride nsteps : Nat) (p : Pic) (digest : Option (List Byte)) : Stream :=
  let checked := p.tiles.map (checkTile x p stride nsteps)
  let hurts := checked.filterMap fun c => c.2.map fun d => (⟨p.picture, some c.1.tile, d.1, d.2⟩ : Damage)
  let inp : InputPic := {
    picture := p.picture, metadata := [], samples := [], complete := true, arrivedAt := s.gts, bounded := s.inputBounded x p.bytes }
  { x.onPic p.picture fun q => { q with
      tiles := checked.map (·.1), damage := hurts, digestIn := digest, ended := true, input := some inp } with
    lastArrival := some s.gts }

/-- A PICTURE_END unit's body. -/
def State.readEnd (s : State) (stride nsteps : Nat) (x : Stream) (b : List Byte) : Stream :=
  let flag := beAt b 4 1
  if b.length < 8 ∨ b.length ≠ 8 + 16 * (flag % 2) then x.syntaxHurt 3
  else x.inPicture fun p =>
    if beAt b 0 4 ≠ p.picture ∨ flag ≠ b01 (bit p.flags 4) ∨ beAt b 5 3 ≠ 0 then x.syntaxHurt 0x10
    else if p.metaIn = false ∨ p.tiles.length ≠ p.params.tiles x.media stride then x.syntaxHurt 8
    else s.endPicture x stride nsteps p (if flag = 1 then some (b.drop 8) else none)

/-- PICTURE_END. -/
def execPictureEnd (stream : Nat) (s : State) : Host.Outcome State Fault Refusal :=
  .next (s.takeUnit stream (· == 7) fun x b =>
    s.readEnd (s.strideOf x) (imageLoop ((s.slotImage x.slot).getD [])).steps.length x b)

/-! ### STREAM_END and other types (12 R283, R266) -/

/-- A STREAM_END unit's body. -/
def Stream.readStreamEnd (x : Stream) (b : List Byte) : Stream :=
  if b.length ≠ 4 then x.syntaxHurt 3
  else if beAt b 0 4 ≠ x.lastRead.getD 0xFFFFFFFF then x.syntaxHurt 0x11
  else if x.current.isSome ∨ x.headerPending.isSome then x.syntaxHurt 8
  else { x with endSeen := true }

/-- STREAM_END. -/
def execStreamEnd (stream : Nat) (s : State) : Host.Outcome State Fault Refusal :=
  .next (s.takeUnit stream (· == 0x0F) fun x b => x.readStreamEnd b)

/-- UNKNOWN_UNIT: a TYPE that 12 R266 does not list. -/
def execUnknownUnit (stream : Nat) (s : State) : Host.Outcome State Fault Refusal :=
  .next (s.takeUnit stream (fun t => t == 0 || (7 < t && t != 0x0F)) fun x _ => x.syntaxHurt 1)

end Sys2Proof.Machine
end

