-- ==== Sys2Proof/Machine/Dispatch.lean ====
section
/-! DEFINITION. The dispatch of commands: one arm per constructor of Instr. -/

namespace Sys2Proof.Machine

/-- The effect of a command on everything but the queue. -/
def exec (i : Instr) (s : State) : Host.Outcome State Fault Refusal :=
  match i with
  | .hello d => Sys2Proof.Machine.execHello d s
  | .sessionOpen d => Sys2Proof.Machine.execSessionOpen d s
  | .sessionClose d => Sys2Proof.Machine.execSessionClose d s
  | .capsQuery d => Sys2Proof.Machine.execCapsQuery d s
  | .profileLoadStage d => Sys2Proof.Machine.execProfileLoadStage d s
  | .profileLoadCommit d => Sys2Proof.Machine.execProfileLoadCommit d s
  | .profileLoadAbandon d => Sys2Proof.Machine.execProfileLoadAbandon d s
  | .bankSwitch => Sys2Proof.Machine.execBankSwitch s
  | .profileUnload d => Sys2Proof.Machine.execProfileUnload d s
  | .profileQuery d => Sys2Proof.Machine.execProfileQuery d s
  | .admitReq d => Sys2Proof.Machine.execAdmitReq d s
  | .streamOpen d => Sys2Proof.Machine.execStreamOpen d s
  | .streamConfig d => Sys2Proof.Machine.execStreamConfig d s
  | .streamClose d => Sys2Proof.Machine.execStreamClose d s
  | .streamStatus d => Sys2Proof.Machine.execStreamStatus d s
  | .rateSet d => Sys2Proof.Machine.execRateSet d s
  | .roiSet d => Sys2Proof.Machine.execRoiSet d s
  | .refMark d => Sys2Proof.Machine.execRefMark d s
  | .jobSubmitList d => Sys2Proof.Machine.execJobSubmitList d s
  | .jobSubmitTrain d => Sys2Proof.Machine.execJobSubmitTrain d s
  | .jobStatus d => Sys2Proof.Machine.execJobStatus d s
  | .jobCancel d => Sys2Proof.Machine.execJobCancel d s
  | .lzJob d => Sys2Proof.Machine.execLzJob d s
  | .lzResume d => Sys2Proof.Machine.execLzResume d s
  | .regRead d => Sys2Proof.Machine.execRegRead d s
  | .regWrite d => Sys2Proof.Machine.execRegWrite d s
  | .eventRead d => Sys2Proof.Machine.execEventRead d s
  | .stickyClear d => Sys2Proof.Machine.execStickyClear d s
  | .counterRead d => Sys2Proof.Machine.execCounterRead d s
  | .lifelogRead d => Sys2Proof.Machine.execLifelogRead d s
  | .crashRead d => Sys2Proof.Machine.execCrashRead d s
  | .fwStage d => Sys2Proof.Machine.execFwStage d s
  | .fwVerify d => Sys2Proof.Machine.execFwVerify d s
  | .fwActivate d => Sys2Proof.Machine.execFwActivate d s
  | .fwFlashWriteDone ok => Sys2Proof.Machine.execFwFlashWriteDone ok s
  | .spareQuery d => Sys2Proof.Machine.execSpareQuery d s
  | .spareEngage d => Sys2Proof.Machine.execSpareEngage d s
  | .spareEngaged die kind target => Sys2Proof.Machine.execSpareEngaged die kind target s
  | .islandQuiesce d => Sys2Proof.Machine.execIslandQuiesce d s
  | .islandQuiesceComplete die => Sys2Proof.Machine.execIslandQuiesceComplete die s
  | .quiesceTileReturn die moved => Sys2Proof.Machine.execQuiesceTileReturn die moved s
  | .islandResume d => Sys2Proof.Machine.execIslandResume d s
  | .channelAutoResume die => Sys2Proof.Machine.execChannelAutoResume die s
  | .recal d => Sys2Proof.Machine.execRecal d s
  | .attest d => Sys2Proof.Machine.execAttest d s
  | .recover d => Sys2Proof.Machine.execRecover d s
  | .recoverLoadStage d => Sys2Proof.Machine.execRecoverLoadStage d s
  | .recoverLoadCommit d written => Sys2Proof.Machine.execRecoverLoadCommit d written s
  | .recoverReboot => Sys2Proof.Machine.execRecoverReboot s
  | .partnerConfig d => Sys2Proof.Machine.execPartnerConfig d s
  | .twinConfigEnable d => Sys2Proof.Machine.execTwinConfigEnable d s
  | .twinConfigDisable d => Sys2Proof.Machine.execTwinConfigDisable d s
  | .twinEnableTimeout => Sys2Proof.Machine.execTwinEnableTimeout s
  | .timeSyncRead d => Sys2Proof.Machine.execTimeSyncRead d s
  | .timeSyncAlign d => Sys2Proof.Machine.execTimeSyncAlign d s
  | .timeSyncTrack x => Sys2Proof.Machine.execTimeSyncTrack x s
  | .vcoreTarget => Sys2Proof.Machine.execVcoreTarget s
  | .vcoreMeasured => Sys2Proof.Machine.execVcoreMeasured s
  | .temperature => Sys2Proof.Machine.execTemperature s
  | .power => Sys2Proof.Machine.execPower s
  | .status => Sys2Proof.Machine.execStatus s
  | .clkRgn a region => Sys2Proof.Machine.execClkRgn a region s
  | .pwrLimit a => Sys2Proof.Machine.execPwrLimit a s
  | .sprSvcMode a => Sys2Proof.Machine.execSprSvcMode a s
  | .sprThresh a kind => Sys2Proof.Machine.execSprThresh a kind s
  | .hulLimits a => Sys2Proof.Machine.execHulLimits a s
  | .hulMode a => Sys2Proof.Machine.execHulMode a s
  | .indData a write => Sys2Proof.Machine.execIndData a write s
  | .evtSticky a half value => Sys2Proof.Machine.execEvtSticky a half value s
  | .evtAlert a half value => Sys2Proof.Machine.execEvtAlert a half value s
  | .ethMode a => Sys2Proof.Machine.execEthMode a s
  | .ethCfgApply a => Sys2Proof.Machine.execEthCfgApply a s
  | .ethCfgSave a => Sys2Proof.Machine.execEthCfgSave a s
  | .lifCtrlSave a => Sys2Proof.Machine.execLifCtrlSave a s
  | .hulEvtOut a => Sys2Proof.Machine.execHulEvtOut a s
  | .hulT7 a => Sys2Proof.Machine.execHulT7 a s
  | .matmul t => Sys2Proof.Machine.execMatmul t s
  | .conv t => Sys2Proof.Machine.execConv t s
  | .dwconv t => Sys2Proof.Machine.execDwconv t s
  | .gconv t => Sys2Proof.Machine.execGconv t s
  | .splitkReduce t => Sys2Proof.Machine.execSplitkReduce t s
  | .eltwise t => Sys2Proof.Machine.execEltwise t s
  | .reduce t => Sys2Proof.Machine.execReduce t s
  | .poolMax t => Sys2Proof.Machine.execPoolMax t s
  | .poolAvg t => Sys2Proof.Machine.execPoolAvg t s
  | .s2d t => Sys2Proof.Machine.execS2d t s
  | .d2s t => Sys2Proof.Machine.execD2s t s
  | .upsample t => Sys2Proof.Machine.execUpsample t s
  | .copy t => Sys2Proof.Machine.execCopy t s
  | .transpose t => Sys2Proof.Machine.execTranspose t s
  | .concat t => Sys2Proof.Machine.execConcat t s
  | .sfu t => Sys2Proof.Machine.execSfu t s
  | .gate t => Sys2Proof.Machine.execGate t s
  | .norm t => Sys2Proof.Machine.execNorm t s
  | .softmax t => Sys2Proof.Machine.execSoftmax t s
  | .qscan t => Sys2Proof.Machine.execQscan t s
  | .qconv t => Sys2Proof.Machine.execQconv t s
  | .requant t => Sys2Proof.Machine.execRequant t s
  | .rng t => Sys2Proof.Machine.execRng t s
  | .enc t => Sys2Proof.Machine.execEnc t s
  | .dec t => Sys2Proof.Machine.execDec t s
  | .lzPack t => Sys2Proof.Machine.execLzPack t s
  | .lzUnpack t => Sys2Proof.Machine.execLzUnpack t s
  | .msearch t => Sys2Proof.Machine.execMsearch t s
  | .warp t => Sys2Proof.Machine.execWarp t s
  | .load t => Sys2Proof.Machine.execLoad t s
  | .store t => Sys2Proof.Machine.execStore t s
  | .prefetch t => Sys2Proof.Machine.execPrefetch t s
  | .atomicAdd t => Sys2Proof.Machine.execAtomicAdd t s
  | .fence t => Sys2Proof.Machine.execFence t s
  | .barrier t => Sys2Proof.Machine.execBarrier t s
  | .wait t => Sys2Proof.Machine.execWait t s
  | .waitSatisfied t => Sys2Proof.Machine.execWaitSatisfied t s
  | .waitTimeout t => Sys2Proof.Machine.execWaitTimeout t s
  | .signal t => Sys2Proof.Machine.execSignal t s
  | .checkpoint t => Sys2Proof.Machine.execCheckpoint t s
  | .listQueued t addr => Sys2Proof.Machine.execListQueued t addr s
  | .chunkComplete die e place last => Sys2Proof.Machine.execChunkComplete die e place last s
  | .operationComplete t e => Sys2Proof.Machine.execOperationComplete t e s
  | .chunkLimitExpiry die e place => Sys2Proof.Machine.execChunkLimitExpiry die e place s
  | .threadWaitExpiry t => Sys2Proof.Machine.execThreadWaitExpiry t s
  | .progressMonitor die region => Sys2Proof.Machine.execProgressMonitor die region s
  | .poolStall die pool => Sys2Proof.Machine.execPoolStall die pool s
  | .uncorrectableError kind addr reader => Sys2Proof.Machine.execUncorrectableError kind addr reader s
  | .correctableError die e target => Sys2Proof.Machine.execCorrectableError die e target s
  | .bridgeError die index double => Sys2Proof.Machine.execBridgeError die index double s
  | .fenceDrainComplete dom => Sys2Proof.Machine.execFenceDrainComplete dom s
  | .sampleComplete dom => Sys2Proof.Machine.execSampleComplete dom s
  | .resetSelftestComplete dom failed => Sys2Proof.Machine.execResetSelftestComplete dom failed s
  | .retrainComplete dom => Sys2Proof.Machine.execRetrainComplete dom s
  | .restoreComplete dom badCopies => Sys2Proof.Machine.execRestoreComplete dom badCopies s
  | .replayRoundEnd dom => Sys2Proof.Machine.execReplayRoundEnd dom s
  | .recoveryStepTimeout dom => Sys2Proof.Machine.execRecoveryStepTimeout dom s
  | .watchdogExpiry => Sys2Proof.Machine.execWatchdogExpiry s
  | .pacerTick => Sys2Proof.Machine.execPacerTick s
  | .pictureStart stream places => Sys2Proof.Machine.execPictureStart stream places s
  | .adaptMerge stream run => Sys2Proof.Machine.execAdaptMerge stream run s
  | .tileComplete stream picture tile t => Sys2Proof.Machine.execTileComplete stream picture tile t s
  | .pictureComplete stream => Sys2Proof.Machine.execPictureComplete stream s
  | .trainIterationEnd job run => Sys2Proof.Machine.execTrainIterationEnd job run s
  | .ingestDecode stream => Sys2Proof.Machine.execIngestDecode stream s
  | .inputRecord stream bytes => Sys2Proof.Machine.execInputRecord stream bytes s
  | .streamHeader stream => Sys2Proof.Machine.execStreamHeader stream s
  | .pictureHeader stream => Sys2Proof.Machine.execPictureHeader stream s
  | .delta stream => Sys2Proof.Machine.execDelta stream s
  | .roi stream => Sys2Proof.Machine.execRoi stream s
  | .metadata stream => Sys2Proof.Machine.execMetadata stream s
  | .tile stream => Sys2Proof.Machine.execTile stream s
  | .pictureEnd stream => Sys2Proof.Machine.execPictureEnd stream s
  | .streamEnd stream => Sys2Proof.Machine.execStreamEnd stream s
  | .rdmaWrite qpn addr rkey bytes => Sys2Proof.Machine.execRdmaWrite qpn addr rkey bytes s
  | .cmReq qpn serviceId mtu altGid peer => Sys2Proof.Machine.execCmReq qpn serviceId mtu altGid peer s
  | .rnrNak qpn => Sys2Proof.Machine.execRnrNak qpn s
  | .ceMarkedPacket qpn => Sys2Proof.Machine.execCeMarkedPacket qpn s
  | .cnp qpn => Sys2Proof.Machine.execCnp qpn s
  | .cnpRateIncrease qpn => Sys2Proof.Machine.execCnpRateIncrease qpn s
  | .pfcFrame port pause => Sys2Proof.Machine.execPfcFrame port pause s
  | .arp port senderMac senderIp targetIp => Sys2Proof.Machine.execArp port senderMac senderIp targetIp s
  | .neighbourDiscovery port senderMac senderIp targetIp => Sys2Proof.Machine.execNeighbourDiscovery port senderMac senderIp targetIp s
  | .icmpEcho port v6 senderMac senderIp targetIp payload => Sys2Proof.Machine.execIcmpEcho port v6 senderMac senderIp targetIp payload s
  | .sync port domain seqId => Sys2Proof.Machine.execSync port domain seqId s
  | .followUp port domain seqId origin => Sys2Proof.Machine.execFollowUp port domain seqId origin s
  | .delayReq port => Sys2Proof.Machine.execDelayReq port s
  | .delayResp port domain seqId receive => Sys2Proof.Machine.execDelayResp port domain seqId receive s
  | .ethPortDown port => Sys2Proof.Machine.execEthPortDown port s
  | .ethPortUp port => Sys2Proof.Machine.execEthPortUp port s
  | .networkDownTimeout network => Sys2Proof.Machine.execNetworkDownTimeout network s
  | .badFlit port flit => Sys2Proof.Machine.execBadFlit port flit s
  | .retryReq port number => Sys2Proof.Machine.execRetryReq port number s
  | .retryMark port => Sys2Proof.Machine.execRetryMark port s
  | .retryReqResend port => Sys2Proof.Machine.execRetryReqResend port s
  | .laneMap port lane => Sys2Proof.Machine.execLaneMap port lane s
  | .rdReq p => Sys2Proof.Machine.execRdReq p s
  | .rdResp p => Sys2Proof.Machine.execRdResp p s
  | .wr p => Sys2Proof.Machine.execWr p s
  | .wrAck p => Sys2Proof.Machine.execWrAck p s
  | .err p => Sys2Proof.Machine.execErr p s
  | .ident port key digest nonce signature => Sys2Proof.Machine.execIdent port key digest nonce signature s
  | .linkTrained port ok => Sys2Proof.Machine.execLinkTrained port ok s
  | .align port x => Sys2Proof.Machine.execAlign port x s
  | .twin port role => Sys2Proof.Machine.execTwin port role s
  | .config port pair digest => Sys2Proof.Machine.execConfig port pair digest s
  | .digest port pair picture digest => Sys2Proof.Machine.execDigest port pair picture digest s
  | .twinDigestTimeout stream => Sys2Proof.Machine.execTwinDigestTimeout stream s
  | .partnerAccessTimeout port tag => Sys2Proof.Machine.execPartnerAccessTimeout port tag s
  | .provisionalSessionExpiry session => Sys2Proof.Machine.execProvisionalSessionExpiry session s
  | .sessionIdleExpiry session => Sys2Proof.Machine.execSessionIdleExpiry session s
  | .ticketExpiry ticket => Sys2Proof.Machine.execTicketExpiry ticket s
  | .powerControllerTick die power10 power1ms sensors => Sys2Proof.Machine.execPowerControllerTick die power10 power1ms sensors s
  | .classGateTimer die => Sys2Proof.Machine.execClassGateTimer die s
  | .vcoreTargetWait die vcore => Sys2Proof.Machine.execVcoreTargetWait die vcore s
  | .thermalTrip die sensor temp => Sys2Proof.Machine.execThermalTrip die sensor temp s
  | .pwrGoodFall => Sys2Proof.Machine.execPwrGoodFall s
  | .resetNAssert widthNs => Sys2Proof.Machine.execResetNAssert widthNs s
  | .resetNRelease bootMode => Sys2Proof.Machine.execResetNRelease bootMode s
  | .lpddr5xTrained die ok => Sys2Proof.Machine.execLpddr5xTrained die ok s
  | .ppsIn => Sys2Proof.Machine.execPpsIn s
  | .ppsOutput => Sys2Proof.Machine.execPpsOutput s
  | .lifelogSample deviations => Sys2Proof.Machine.execLifelogSample deviations s
  | .lifelogSaveTimer => Sys2Proof.Machine.execLifelogSaveTimer s
  | .lifelogSaveComplete ok => Sys2Proof.Machine.execLifelogSaveComplete ok s
  | .unknownOpcode opcode d => Sys2Proof.Machine.execUnknownOpcode opcode d s
  | .unsupportedFrame port why => Sys2Proof.Machine.execUnsupportedFrame port why s
  | .ethCfgSaveComplete die => Sys2Proof.Machine.execEthCfgSaveComplete die s
  | .recalComplete die pass => Sys2Proof.Machine.execRecalComplete die pass s
  | .islandResumeComplete die => Sys2Proof.Machine.execIslandResumeComplete die s
  | .partnerLaneFailure port lane => Sys2Proof.Machine.execPartnerLaneFailure port lane s
  | .idleFlit port ack crdVc crd => Sys2Proof.Machine.execIdleFlit port ack crdVc crd s
  | .unknownUnit stream => Sys2Proof.Machine.execUnknownUnit stream s
  | .imageCheckComplete die flashOk selfTestOk => Sys2Proof.Machine.execImageCheckComplete die flashOk selfTestOk s

end Sys2Proof.Machine
end

