-- ==== Sys2Proof/Safety.lean ====
section
/-! DEFINITION. What a good state is, and when a request, a register write, an operation or an event is one the part acts on: the terms
the claims use. -/

namespace Sys2Proof.Machine

open Sys2Proof (Instr Byte Word Datagram Master Domain ThreadId Engine)

/-- Memory is in canonical form. -/
abbrev State.memOk (s : State) : Prop := Memory.wf s.mem = true

/-- The part's dies are all described. -/
abbrev State.diesOk (s : State) : Prop := s.dies.length = 8

/-- What every step keeps: memory in canonical form, eight dies described, a 64-bit GTS (16 R366), two table banks of which one is
active (07 R163). -/
structure State.Sound (s : State) : Prop where
  mem : s.memOk
  dies : s.diesOk
  gts : s.gts < 2 ^ 64
  banks : s.banks.length = 2
  active : s.activeBank < 2

/-- A step that neither faults nor refuses. -/
def runsOn (s : State) : Prop := ∃ t, step s = .next t

/-- A request that every check of 13 R299 passes on open session `x`: its port answers, it is framed, its tag is the session's, its
sequence number is new, its header is clean, its opcode is allowed, its session is privileged where the opcode asks it and owns the
object the request would change, and what it addresses is not under recovery. -/
structure Accepted (s : State) (d : Datagram) (opcode : Nat) (priv : Bool) (owner : Option (List Byte)) (target : Option Nat)
    (x : Session) : Prop where
  port : s.answersOn d.port = true
  framed : dgFramed d = true
  known : s.session d.session.toNat = some x
  tag : cmdTag x.keyIn (dgHeader d opcode ++ d.params) = d.tag
  fresh : x.h < d.sequence.toNat
  room : ∀ c ∈ x.cache, c.pending = true → d.sequence.toNat ≤ c.sequence + 63
  clean : dgClean d = true
  allowed : s.opcodeAllowed opcode = true
  isOpen : x.isOpen = true
  rank : priv = true → x.privileged = true
  owns : ∀ k, owner = some k → k = x.hostKey ∨ x.privileged = true
  package : s.packageRecovering = false
  die : ∀ t, target = some t → s.dieRecovering t = false

/-- The session after a request passed its tag check: its idle time runs from now (13 R292). -/
def Session.heard (x : Session) (s : State) : Session := { x with lastAt := s.gts }

/-- The state that a request's handler starts from. -/
def State.heard (s : State) (x : Session) : State := s.setSession (x.heard s)

/-- The datagram of a request row, and its opcode (13 R301). -/
def request (c : Instr) : Option (Datagram × Nat) :=
  match c with
  | .hello d => some (d, 0x0001)
  | .sessionOpen d => some (d, 0x0002)
  | .sessionClose d => some (d, 0x0003)
  | .capsQuery d => some (d, 0x0004)
  | .profileLoadStage d => some (d, 0x0010)
  | .profileLoadCommit d => some (d, 0x0010)
  | .profileLoadAbandon d => some (d, 0x0010)
  | .profileUnload d => some (d, 0x0011)
  | .profileQuery d => some (d, 0x0012)
  | .admitReq d => some (d, 0x0020)
  | .streamOpen d => some (d, 0x0021)
  | .streamConfig d => some (d, 0x0022)
  | .streamClose d => some (d, 0x0023)
  | .streamStatus d => some (d, 0x0024)
  | .rateSet d => some (d, 0x0025)
  | .roiSet d => some (d, 0x0026)
  | .refMark d => some (d, 0x0027)
  | .jobSubmitList d => some (d, 0x0030)
  | .jobSubmitTrain d => some (d, 0x0030)
  | .jobStatus d => some (d, 0x0031)
  | .jobCancel d => some (d, 0x0032)
  | .lzJob d => some (d, 0x0033)
  | .lzResume d => some (d, 0x0034)
  | .regRead d => some (d, 0x0040)
  | .regWrite d => some (d, 0x0041)
  | .eventRead d => some (d, 0x0050)
  | .stickyClear d => some (d, 0x0051)
  | .counterRead d => some (d, 0x0052)
  | .lifelogRead d => some (d, 0x0053)
  | .crashRead d => some (d, 0x0054)
  | .fwStage d => some (d, 0x0060)
  | .fwVerify d => some (d, 0x0061)
  | .fwActivate d => some (d, 0x0062)
  | .spareQuery d => some (d, 0x0070)
  | .spareEngage d => some (d, 0x0071)
  | .islandQuiesce d => some (d, 0x0072)
  | .islandResume d => some (d, 0x0073)
  | .recal d => some (d, 0x0074)
  | .attest d => some (d, 0x0080)
  | .recover d => some (d, 0x0090)
  | .recoverLoadStage d => some (d, 0x0091)
  | .partnerConfig d => some (d, 0x00A0)
  | .twinConfigEnable d => some (d, 0x00A1)
  | .twinConfigDisable d => some (d, 0x00A1)
  | .timeSyncRead d => some (d, 0x00B0)
  | .timeSyncAlign d => some (d, 0x00B0)
  | .recoverLoadCommit d _ => some (d, 0x0091)
  | .unknownOpcode op d => some (d, op.toNat)
  | _ => none

/-- No thread waits for a buffer of a pool, so that what one thread does begins no other thread's list (06 R116, R141). -/
def State.noneWaits (s : State) : Prop := ∀ t ∈ s.threads, ∀ g, t.waiting ≠ some (.pool, g)

/-- Every lane operation of a region has begun: it is bound to a bank (07 R164). -/
def State.lanesBegun (s : State) (die region : Nat) : Prop :=
  ∀ t ∈ s.threads, t.at die .lane region = true → ∀ q ∈ t.out, q.engine = .lane → q.bank.isSome = true

/-- Every lane operation of a region has begun, and its chunk runs or it is done, so that its lanes take none. -/
def State.lanesStand (s : State) (die region : Nat) : Prop :=
  s.lanesBegun die region ∧ ∀ t ∈ s.threads, t.at die .lane region = true → ∀ q ∈ t.out, q.engine = .lane →
    q.taken.isSome = true ∨ q.done = true

/-- When a thread's next operation executes normally (02 R57; 05 R94, R97, R100; 06 R116, R118, R122; 17 R387, R392): the part runs, the
thread is READY at an operation of the row, its descriptor reads well and meets the row's rules, its output stands where it may, the list's
domain allows it, every byte it touches may be accessed and lies in no domain under recovery and no quiesced region, no outstanding
operation meets it and its engine has room. -/
structure MayRun (s : State) (t : ThreadId) (row : OpRow) (f : OpFn) (th : Thread) (cl : CurList) (o : Op) (w : Work) : Prop where
  runs : s.phase = .running
  thread : s.thread t = some th
  ready : th.state = .ready
  list : th.cur = some cl
  inside : cl.opIndex < cl.opCount
  code : s.opCode t cl = row.code
  parsed : parseOp t row (s.opBytes t cl) = .ok o
  rules : f { s := s, th := th, cur := cl, op := o } = .ok w
  place : overlapOk row.code o w = true ∧ meetsCheckpoint th w.writes = false
  own : row.code ∈ moverCodes ∨ ∀ sp ∈ w.reads ++ w.writes, s.inOtherScratch t sp = false
  domain : cl.exact = true → w.vary = false ∧ o.fp32 = false
  access : ∀ sp ∈ w.reads ++ w.writes, s.accessOk sp = true ∧ touchesRegisters sp = false
  calm : ∀ sp ∈ w.reads ++ w.writes, s.fencedAt (some t) (locate s.dieCount sp.base) = false ∧ s.shutAt t (locate s.dieCount sp.base) = false
  clear : ∀ q ∈ th.out, spansMeet q.writes w.reads = false ∧ spansMeet q.writes w.writes = false ∧ spansMeet q.reads w.writes = false
  room : ∀ e, row.engine = some e → (th.out.filter (·.engine == e)).length < 4

/-- The operation rows that an engine takes: the command, its row, its engine and its rules. -/
def engineRows (t : ThreadId) : List (Instr × OpRow × Engine × OpFn) :=
  [(.matmul t, rowMatmul, .tensor, matmulWork), (.conv t, rowConv, .tensor, convFn), (.dwconv t, rowDwconv, .vector, dwconvFn),
   (.gconv t, rowGconv, .vector, gconvFn), (.splitkReduce t, rowSplitk, .vector, splitkWork),
   (.eltwise t, rowEltwise, .vector, eltwiseWork), (.reduce t, rowReduce, .vector, reduceWork),
   (.poolMax t, rowPoolMax, .vector, poolMaxWork), (.poolAvg t, rowPoolAvg, .vector, poolAvgWork),
   (.s2d t, rowS2d, .agen, s2dWork), (.d2s t, rowD2s, .agen, d2sWork), (.upsample t, rowUpsample, .agen, upsampleWork),
   (.copy t, rowCopy, .vector, copyWork), (.transpose t, rowTranspose, .agen, transposeWork),
   (.concat t, rowConcat, .agen, concatWork), (.sfu t, rowSfu, .sfu, sfuWork), (.gate t, rowGate, .sfu, gateWork),
   (.norm t, rowNorm, .sfu, normWork), (.softmax t, rowSoftmax, .sfu, softmaxWork), (.qscan t, rowQscan, .vector, qscanWork),
   (.qconv t, rowQconv, .vector, qconvWork), (.requant t, rowRequant, .vector, requantWork),
   (.rng t, rowRng, .vector, rngWork), (.enc t, rowEnc, .lane, encWork), (.dec t, rowDec, .lane, decWork),
   (.lzPack t, rowLzPack, .match_, lzPackWork), (.lzUnpack t, rowLzUnpack, .match_, lzUnpackWork),
   (.msearch t, rowMsearch, .motion, msearchWork), (.warp t, rowWarp, .vector, warpWork), (.load t, rowLoad, .agen, loadWork),
   (.store t, rowStore, .agen, storeWork), (.prefetch t, rowPrefetch, .agen, prefetchWork),
   (.atomicAdd t, rowAtomicAdd, .fabric, atomicAddWork)]

/-- A register of die `d` that a master may write now. -/
structure Writable (s : State) (m : Master) (d : Nat) : Prop where
  runs : s.phase = .running
  present : d < s.dieCount
  calm : s.dieRecovering d = false
  reach : s.reaches m = true

/-- Every region of a domain reads an HUL state. -/
def hulReads (s t : State) (x : Domain) (v : Nat) : Prop :=
  ∀ q ∈ s.domainRegions x, ∀ g, (t.die q.1).regions[q.2]? = some g → g.hul = v

/-- A recovery of a domain that has just begun, at Fence, with a trigger (17 R386, R387): it is listed, the count of recoveries rose,
no context of the domain runs, each that ran is kept with it, its regions read FENCED, sticky RECOVERY is set and memory stands. -/
structure FencedBy (s t : State) (x : Domain) (trigger : Nat) : Prop where
  listed : ∃ r ∈ t.recoveries, r.dom = x ∧ r.trigger = trigger ∧ r.step = 0 ∧ r.beganAt = s.gts ∧
    ∀ h ∈ s.threads, domainHas x h.id = true → ∃ p ∈ r.suspects, p.thread.id = h.id
  counted : t.recoverySeq = s.recoverySeq + 1
  empty : ∀ h ∈ t.threads, domainHas x h.id = false
  hul : hulReads s t x 1
  sticky : (t.die (domainDie x)).sticky &&& 0x4000 = 0x4000
  memory : t.mem = s.mem

/-- The recovery of a domain has just entered a step; time and sessions stand. -/
structure StepEnds (s t : State) (x : Domain) (step : Nat) : Prop where
  entered : ∃ r ∈ t.recoveries, r.dom = x ∧ r.step = step ∧ r.stepAt = s.gts
  time : t.gts = s.gts
  sessions : t.sessions = s.sessions

/-- The final reply of a request that was pending has left (13 R296): a reply to it with FLAGS bit 0, the status and the parameters. -/
def finalReply (s t : State) (r : Req) (st : Status) (ps : List Byte) : Prop :=
  ∀ x c, s.session r.session = some x → x.cache.find? (fun (e : CacheEntry) => e.sequence == r.sequence && e.pending) = some c →
    ∃ rep, Out.reply rep ∈ t.out ∧ rep.session = c.reply.session ∧ rep.sequence = c.reply.sequence ∧ rep.flags = 1 ∧
      rep.status = st ∧ rep.params = ps

/-- Addresses in the scratchpads and the pod memory of a domain (17 R388). -/
def clearedByReset (s : State) (x : Domain) (a : Nat) : Bool :=
  (s.domainRegions x).any fun q =>
    (decide (scratchBase q.1 (q.2 * 32) ≤ a) && decide (a < scratchBase q.1 (q.2 * 32) + 32 * 0x80000)) ||
      (decide (podBase q.1 (q.2 * 4) ≤ a) && decide (a < podBase q.1 (q.2 * 4) + 4 * 0x400000))

/-- The bytes an effect writes in this part's memory. -/
def State.nearRuns (s : State) (e : Eff) : List (Nat × List Byte) := e.runs.filter fun r => (s.partnerOf ⟨r.1, r.2.length⟩).isNone

/-- Whether an address lies outside runs of bytes. -/
def outsideRuns (a : Nat) (l : List (Nat × List Byte)) : Prop := ∀ r ∈ l, a < r.1 ∨ r.1 + r.2.length ≤ a

end Sys2Proof.Machine
end

