-- ==== Sys2Proof/WellFormed.lean ====
section
/-! DEFINITION. When a command is well formed: every element it names is one the largest part can have (00 R1, R4; 06 R116, R121),
and every field fits its width in the layouts of the spec. A command that is not well formed spells nothing the part can receive. -/

namespace Sys2Proof

/-- A datagram: one of eight ports, addresses and port numbers of their widths, and 16 tag bytes unless the payload is too short
to hold them (13 R286, R288). -/
def Datagram.wf (d : Datagram) : Bool :=
  d.port < 8 && d.srcAddr < 2 ^ 128 && d.srcPort < 2 ^ 16 && (d.tag.length == 16 || (d.tag.length < 16 && d.params.isEmpty))

/-- A master: a session number is 32 bits and not 0 (13 R287, R292). -/
def Master.wf : Master → Bool
  | .session n => 0 < n && n < 2 ^ 32
  | .shell | .firmware => true

/-- A register access names one of eight dies. -/
def Access.wf (a : Access) : Bool := a.die < 8 && a.master.wf

/-- A hardware thread: 256 units a die, 16 contexts a unit (06 R116, R121). -/
def ThreadId.wf (t : ThreadId) : Bool := t.die < 8 && t.unit < 256 && t.ctx < 16

/-- A reset domain (17 R382). -/
def Domain.wf : Domain → Bool
  | .region d r => d < 8 && r < 8
  | .die d => d < 8
  | .package => true

/-- An element with an instance record (15 R347). -/
def Element.wf : Element → Bool
  | .d2d i => i < 4
  | .memCh i => i < 16
  | .dsr i => i < 2
  | .ent i => i < 40
  | .lze i => i < 8
  | .mse i => i < 10
  | .rgn r i => r < 8 && i < 36

/-- A tile's placement: TILE is 32 bits (06 R117). -/
def Placement.wf (p : Placement) : Bool :=
  p.tile < 2 ^ 32 && ThreadId.wf p.thread && p.addr < 2 ^ 64 && p.net < 256 && p.list < 2 ^ 16 &&
    p.buffers.all (fun b => b.1 < 2 ^ 16 && b.2 < 2 ^ 64) &&
    p.refs.all (fun r => r.1 < 2 ^ 16 && r.2.1 < 8 && r.2.2 < 258) && p.inputs.all (· < 2 ^ 16)

/-- A training run: 64-bit addresses and kind-0 buffer identifiers (09 R195). -/
def TrainRun.wf (r : TrainRun) : Bool :=
  ThreadId.wf r.thread && r.addr < 2 ^ 64 && r.buffers.all (fun b => b.1 < 2 ^ 16 && b.2 < 2 ^ 64) && r.input < 2 ^ 16 &&
    r.lambda < 2 ^ 16 && r.factors.all (· < 2 ^ 16) && r.grads.all (· < 2 ^ 16)

/-- The four stamps of an ALIGN exchange are 64-bit GTS values (16 R369). -/
def AlignStamps.wf (x : AlignStamps) : Bool := x.t1 < 2 ^ 64 && x.t2 < 2 ^ 64 && x.t3 < 2 ^ 64 && x.t4 < 2 ^ 64

/-- A partner packet: its virtual channel, and the widths of its header fields (14 R324, R327). -/
def PartnerPacket.wf (p : PartnerPacket) : Bool :=
  p.port < 8 && p.vc < 4 && p.tag < 2 ^ 16 && p.length < 2 ^ 16 && p.addr < 2 ^ 64

/-- A well-formed command. -/
def wellFormed : Instr → Bool
  | .hello d => Datagram.wf d
  | .sessionOpen d => Datagram.wf d
  | .sessionClose d => Datagram.wf d
  | .capsQuery d => Datagram.wf d
  | .profileLoadStage d => Datagram.wf d
  | .profileLoadCommit d => Datagram.wf d
  | .profileLoadAbandon d => Datagram.wf d
  | .bankSwitch => true
  | .profileUnload d => Datagram.wf d
  | .profileQuery d => Datagram.wf d
  | .admitReq d => Datagram.wf d
  | .streamOpen d => Datagram.wf d
  | .streamConfig d => Datagram.wf d
  | .streamClose d => Datagram.wf d
  | .streamStatus d => Datagram.wf d
  | .rateSet d => Datagram.wf d
  | .roiSet d => Datagram.wf d
  | .refMark d => Datagram.wf d
  | .jobSubmitList d => Datagram.wf d
  | .jobSubmitTrain d => Datagram.wf d
  | .jobStatus d => Datagram.wf d
  | .jobCancel d => Datagram.wf d
  | .lzJob d => Datagram.wf d
  | .lzResume d => Datagram.wf d
  | .regRead d => Datagram.wf d
  | .regWrite d => Datagram.wf d
  | .eventRead d => Datagram.wf d
  | .stickyClear d => Datagram.wf d
  | .counterRead d => Datagram.wf d
  | .lifelogRead d => Datagram.wf d
  | .crashRead d => Datagram.wf d
  | .fwStage d => Datagram.wf d
  | .fwVerify d => Datagram.wf d
  | .fwActivate d => Datagram.wf d
  | .fwFlashWriteDone _ => true
  | .spareQuery d => Datagram.wf d
  | .spareEngage d => Datagram.wf d
  | .spareEngaged die kind _ => die < 8 && kind < 5
  | .islandQuiesce d => Datagram.wf d
  | .islandQuiesceComplete die => die < 8
  | .quiesceTileReturn die moved => die < 8 && (moved.all fun p => ThreadId.wf p.1 && ThreadId.wf p.2)
  | .islandResume d => Datagram.wf d
  | .channelAutoResume die => die < 8
  | .recal d => Datagram.wf d
  | .attest d => Datagram.wf d
  | .recover d => Datagram.wf d
  | .recoverLoadStage d => Datagram.wf d
  | .recoverLoadCommit d _ => Datagram.wf d
  | .recoverReboot => true
  | .partnerConfig d => Datagram.wf d
  | .twinConfigEnable d => Datagram.wf d
  | .twinConfigDisable d => Datagram.wf d
  | .twinEnableTimeout => true
  | .timeSyncRead d => Datagram.wf d
  | .timeSyncAlign d => Datagram.wf d
  | .timeSyncTrack x => AlignStamps.wf x
  | .vcoreTarget => true
  | .vcoreMeasured => true
  | .temperature => true
  | .power => true
  | .status => true
  | .clkRgn a region => Access.wf a && region < 8
  | .pwrLimit a => Access.wf a
  | .sprSvcMode a => Access.wf a
  | .sprThresh a kind => Access.wf a && kind < 5
  | .hulLimits a => Access.wf a
  | .hulMode a => Access.wf a
  | .indData a _ => Access.wf a
  | .evtSticky a _ _ => Access.wf a
  | .evtAlert a _ _ => Access.wf a
  | .ethMode a => Access.wf a
  | .ethCfgApply a => Access.wf a
  | .ethCfgSave a => Access.wf a
  | .lifCtrlSave a => Access.wf a
  | .hulEvtOut a => Access.wf a
  | .hulT7 a => Access.wf a
  | .matmul t => ThreadId.wf t
  | .conv t => ThreadId.wf t
  | .dwconv t => ThreadId.wf t
  | .gconv t => ThreadId.wf t
  | .splitkReduce t => ThreadId.wf t
  | .eltwise t => ThreadId.wf t
  | .reduce t => ThreadId.wf t
  | .poolMax t => ThreadId.wf t
  | .poolAvg t => ThreadId.wf t
  | .s2d t => ThreadId.wf t
  | .d2s t => ThreadId.wf t
  | .upsample t => ThreadId.wf t
  | .copy t => ThreadId.wf t
  | .transpose t => ThreadId.wf t
  | .concat t => ThreadId.wf t
  | .sfu t => ThreadId.wf t
  | .gate t => ThreadId.wf t
  | .norm t => ThreadId.wf t
  | .softmax t => ThreadId.wf t
  | .qscan t => ThreadId.wf t
  | .qconv t => ThreadId.wf t
  | .requant t => ThreadId.wf t
  | .rng t => ThreadId.wf t
  | .enc t => ThreadId.wf t
  | .dec t => ThreadId.wf t
  | .lzPack t => ThreadId.wf t
  | .lzUnpack t => ThreadId.wf t
  | .msearch t => ThreadId.wf t
  | .warp t => ThreadId.wf t
  | .load t => ThreadId.wf t
  | .store t => ThreadId.wf t
  | .prefetch t => ThreadId.wf t
  | .atomicAdd t => ThreadId.wf t
  | .fence t => ThreadId.wf t
  | .barrier t => ThreadId.wf t
  | .wait t => ThreadId.wf t
  | .waitSatisfied t => ThreadId.wf t
  | .waitTimeout t => ThreadId.wf t
  | .signal t => ThreadId.wf t
  | .checkpoint t => ThreadId.wf t
  | .listQueued t addr => ThreadId.wf t && addr < 2 ^ 64
  | .chunkComplete die _ _ _ => die < 8
  | .operationComplete t _ => ThreadId.wf t
  | .chunkLimitExpiry die _ _ => die < 8
  | .threadWaitExpiry t => ThreadId.wf t
  | .progressMonitor die region => die < 8 && region < 8
  | .poolStall die pool => die < 8 && pool < 2
  | .uncorrectableError _ addr reader => addr < 2 ^ 64 && reader.all ThreadId.wf
  | .correctableError die e _ => die < 8 && Element.wf e
  | .bridgeError die index _ => die < 8 && index < 4
  | .fenceDrainComplete dom => Domain.wf dom
  | .sampleComplete dom => Domain.wf dom
  | .resetSelftestComplete dom failed => Domain.wf dom && (failed.all fun p => p.1 < 8 && Element.wf p.2)
  | .retrainComplete dom => Domain.wf dom
  | .restoreComplete dom badCopies => Domain.wf dom && (badCopies.all fun p => p.1 < 8 && p.2 < 4)
  | .replayRoundEnd dom => Domain.wf dom
  | .recoveryStepTimeout dom => Domain.wf dom
  | .watchdogExpiry => true
  | .pacerTick => true
  | .pictureStart stream places => stream < 2 ^ 32 && places.all Placement.wf
  | .adaptMerge stream run => stream < 2 ^ 32 && run.bases.all fun b => b.1 < 8 && b.2.all (· < 2 ^ 64)
  | .tileComplete stream picture tile t => stream < 2 ^ 32 && picture < 2 ^ 24 && tile < 2 ^ 32 && ThreadId.wf t
  | .pictureComplete stream => stream < 2 ^ 32
  | .trainIterationEnd job run => job < 2 ^ 32 && run.wf
  | .ingestDecode stream => stream < 2 ^ 32
  | .inputRecord stream _ => stream < 2 ^ 32
  | .streamHeader stream => stream < 2 ^ 32
  | .pictureHeader stream => stream < 2 ^ 32
  | .delta stream => stream < 2 ^ 32
  | .roi stream => stream < 2 ^ 32
  | .metadata stream => stream < 2 ^ 32
  | .tile stream => stream < 2 ^ 32
  | .pictureEnd stream => stream < 2 ^ 32
  | .streamEnd stream => stream < 2 ^ 32
  | .rdmaWrite qpn addr rkey _ => qpn < 2 ^ 24 && addr < 2 ^ 64 && rkey < 2 ^ 32
  | .cmReq qpn serviceId _ altGid peer => qpn < 2 ^ 24 && serviceId < 2 ^ 64 && altGid.all (· < 2 ^ 128) && peer < 2 ^ 128
  | .rnrNak qpn => qpn < 2 ^ 24
  | .ceMarkedPacket qpn => qpn < 2 ^ 24
  | .cnp qpn => qpn < 2 ^ 24
  | .cnpRateIncrease qpn => qpn < 2 ^ 24
  | .pfcFrame port pause => port < 8 && pause.length == 8
  | .arp port senderMac senderIp targetIp => port < 8 && senderMac < 2 ^ 48 && senderIp < 2 ^ 128 && targetIp < 2 ^ 128
  | .neighbourDiscovery port senderMac senderIp targetIp => port < 8 && senderMac < 2 ^ 48 && senderIp < 2 ^ 128 && targetIp < 2 ^ 128
  | .icmpEcho port _ senderMac senderIp targetIp _ => port < 8 && senderMac < 2 ^ 48 && senderIp < 2 ^ 128 && targetIp < 2 ^ 128
  | .sync port domain seqId => port < 8 && domain < 128 && seqId < 2 ^ 16
  | .followUp port domain seqId origin => port < 8 && domain < 128 && seqId < 2 ^ 16 && origin.ns.toNat < 10 ^ 9
  | .delayReq port => port < 8
  | .delayResp port domain seqId receive => port < 8 && domain < 128 && seqId < 2 ^ 16 && receive.ns.toNat < 10 ^ 9
  | .ethPortDown port => port < 8
  | .ethPortUp port => port < 8
  | .networkDownTimeout network => network < 2
  | .badFlit port flit => port < 8 && flit.length == 256
  | .retryReq port number => port < 8 && number < 4096
  | .retryMark port => port < 8
  | .retryReqResend port => port < 8
  | .laneMap port lane => port < 8 && lane < 8
  | .rdReq p => PartnerPacket.wf p
  | .rdResp p => PartnerPacket.wf p
  | .wr p => PartnerPacket.wf p
  | .wrAck p => PartnerPacket.wf p
  | .err p => PartnerPacket.wf p
  | .ident port key digest nonce signature => port < 8 && key.length == 57 && digest.length == 32 && nonce.length == 32 && signature.length == 114
  | .linkTrained port _ => port < 8
  | .align port x => port < 8 && AlignStamps.wf x
  | .twin port _ => port < 8
  | .config port _ digest => port < 8 && digest.length == 32
  | .digest port _ _ digest => port < 8 && digest.length == 32
  | .twinDigestTimeout stream => stream < 2 ^ 32
  | .partnerAccessTimeout port tag => port < 8 && tag < 2 ^ 16
  | .provisionalSessionExpiry session => session < 2 ^ 32
  | .sessionIdleExpiry session => session < 2 ^ 32
  | .ticketExpiry ticket => ticket < 2 ^ 32
  | .powerControllerTick die _ _ sensors => die < 8 && sensors.length == 16
  | .classGateTimer die => die < 8
  | .vcoreTargetWait die _ => die < 8
  | .thermalTrip die sensor _ => die < 8 && sensor < 16
  | .pwrGoodFall => true
  | .resetNAssert _ => true
  | .resetNRelease _ => true
  | .lpddr5xTrained die _ => die < 8
  | .ppsIn => true
  | .ppsOutput => true
  | .lifelogSample deviations => deviations.length == 16
  | .lifelogSaveTimer => true
  | .lifelogSaveComplete _ => true
  | .unknownOpcode _ d => Datagram.wf d
  | .unsupportedFrame port _ => port < 8
  | .ethCfgSaveComplete die => die < 8
  | .recalComplete die _ => die < 8
  | .islandResumeComplete die => die < 8
  | .partnerLaneFailure port lane => port < 8 && lane < 8
  | .idleFlit port ack crdVc crd => port < 8 && ack < 4096 && crdVc < 4 && crd < 16
  | .unknownUnit stream => stream < 2 ^ 32
  | .imageCheckComplete die _ _ => die < 8

end Sys2Proof
end

