-- ==== Sys2Proof/Certificates/Slice0/Obligations.lean ====
section
/-! DEFINITION. The statements for the provers. -/

open Sys2Proof Sys2Proof.Machine

/-- For every command c and state s whose queue is c followed by rest, step s is exec of c on s with the queue's rest. -/
def Obligations.StepRunsFrontCommand : Prop :=
  ∀ (c : Instr) (s : State) (rest : List Instr), s.pending = c :: rest → step s = exec c { s with pending := rest }

/-- At reset GTS, GTS_PPS and GTS_ALIGN read 0, and on every die of the part EVT_LEVEL, the sticky bits and the alert mask read
0, CLK_RGNr reads 0x00010400, PWR_LIMIT 0x4B0, SPR_SVC_MODE 3, SPR_THRESHk 0x0E100010, HUL_DIE and HUL_RGNr 0, HUL_LIMITS
0x00320064, HUL_MODE 0, RGN_OWNER 0xFFFFFFFF, ETH_MODE 0, and every CNT counter 0; on D0 HUL_EVT_OUT reads 0x6401 and HUL_T7
0x00271001. That the reset state describes a ZLK-208 is the model's choice (log 4). -/
def Obligations.ResetRegisters : Prop :=
  ∀ m : Master, ∀ d < 8,
      (∀ off ∈ [0x010000, 0x010004, 0x010008, 0x01000C, 0x010010, 0x020000, 0x020010, 0x020014, 0x020018, 0x02001C, 0x020020, 0x020024,
          0x050000, 0x050004, 0x05000C, 0x080004, 0x200000, 0x200038],
        State.reset.regValue m d off = 0) ∧
      (∀ r < 8, State.reset.regValue m d (0x040000 + 4 * r) = 0x00010400 ∧ State.reset.regValue m d (0x200010 + 4 * r) = 0 ∧
        State.reset.regValue m d (0x100200 + 0x10000 * r) = 0xFFFFFFFF) ∧
      (∀ k < 5, State.reset.regValue m d (0x060010 + 4 * k) = 0x0E100010) ∧
      (∀ i < 28, State.reset.regValue m d (0x220000 + 4 * i) = 0) ∧
      State.reset.regValue m d 0x050008 = 0x4B0 ∧ State.reset.regValue m d 0x060000 = 3 ∧
      State.reset.regValue m d 0x200030 = 0x00320064 ∧
      State.reset.regValue m 0 0x200040 = 0x6401 ∧ State.reset.regValue m 0 0x200044 = 0x00271001

/-- For a master that reaches guarded registers and a die present and not recovering, a write of SPR_SVC_MODE, of an in-range
HUL_LIMITS or of HUL_MODE completes: it is answered OK, every die's copy becomes the value written (so that every die reads
it), and nothing else changes; the reading of any other register of any die is as before. -/
def Obligations.PackageWideWritesReachEveryDie : Prop :=
  ∀ (s : State) (a : Access), Writable s a.master a.die → s.diesOk →
      (exec (.sprSvcMode a) s =
          .next ((s.onDies fun e => { e with svcMode := BitVec.ofNat 2 a.value.toNat }).emit (.regStatus a.master .ok))) ∧
      (1 ≤ a.value.toNat % 65536 → a.value.toNat % 65536 ≤ 10000 → 1 ≤ a.value.toNat / 65536 → a.value.toNat / 65536 ≤ 1000 →
        exec (.hulLimits a) s = .next ((s.onDies fun e => { e with hulLimits := a.value }).emit (.regStatus a.master .ok))) ∧
      (exec (.hulMode a) s =
          .next ((s.onDies fun e => { e with hulMode := BitVec.ofNat 1 a.value.toNat }).emit (.regStatus a.master .ok))) ∧
      (∀ (m : Master) (d off : Nat) (t : State), d < 8 →
        (exec (.sprSvcMode a) s = .next t →
          t.regValue m d 0x060000 = a.value.toNat % 4 ∧ (off ≠ 0x060000 → t.regValue m d off = s.regValue m d off)) ∧
        (1 ≤ a.value.toNat % 65536 → a.value.toNat % 65536 ≤ 10000 → 1 ≤ a.value.toNat / 65536 → a.value.toNat / 65536 ≤ 1000 →
          exec (.hulLimits a) s = .next t →
          t.regValue m d 0x200030 = a.value.toNat ∧ (off ≠ 0x200030 → t.regValue m d off = s.regValue m d off)) ∧
        (exec (.hulMode a) s = .next t →
          t.regValue m d 0x200038 = a.value.toNat % 2 ∧ (off ≠ 0x200038 → t.regValue m d off = s.regValue m d off)))

/-- For a master that reaches guarded registers and a die present and not recovering, a write of CLK_RGNr with CAP 0 to 4, of
PWR_LIMIT in 480 to 1,200, of SPR_THRESHk with COUNT and WINDOW not 0, of either half or both halves of EVT_STICKY, and of
EVT_ALERT completes, is answered OK and changes that one register of that one die: the CAP field alone; the limit; the
threshold; exactly the sticky bits written 1 cleared, but for a bit set in the same nanosecond (the model's cycle, log 92),
which stays; the alert mask committed by a write to its high half alone or by both halves, and not by its low half alone,
which is staged and discarded. -/
def Obligations.DieRegisterWritesTakeEffect : Prop :=
  ∀ (s : State) (a : Access), Writable s a.master a.die →
      (∀ r < 8, a.value.toNat / 256 % 8 ≤ 4 →
        exec (.clkRgn a r) s = .next ((s.onDie a.die fun e =>
          { e with regions := modifyAt e.regions r fun x => { x with cap := BitVec.ofNat 3 (a.value.toNat / 256 % 8) } }).emit
            (.regStatus a.master .ok))) ∧
      (480 ≤ a.value.toNat % 65536 → a.value.toNat % 65536 ≤ 1200 →
        exec (.pwrLimit a) s = .next ((s.onDie a.die fun e => { e with pwrLimit := BitVec.ofNat 16 a.value.toNat }).emit
          (.regStatus a.master .ok))) ∧
      (∀ k < 5, a.value.toNat % 65536 ≠ 0 → a.value.toNat / 65536 ≠ 0 →
        exec (.sprThresh a k) s = .next ((s.onDie a.die fun e =>
          { e with thresh := modifyAt e.thresh k fun _ => a.value }).emit (.regStatus a.master .ok))) ∧
      (∀ v : DWord,
        (exec (.evtSticky a .lo v) s = .next ((s.onDie a.die fun e =>
          { e with sticky := e.sticky &&& ~~~ (v &&& 0xFFFFFFFF &&& ~~~ e.fresh) }).emit (.regStatus a.master .ok))) ∧
        (exec (.evtSticky a .hi v) s = .next ((s.onDie a.die fun e =>
          { e with sticky := e.sticky &&& ~~~ (v &&& 0xFFFFFFFF00000000 &&& ~~~ e.fresh) }).emit (.regStatus a.master .ok))) ∧
        (a.die < s.dies.length → exec (.evtAlert a .both v) s =
          .next ((s.onDie a.die fun e => { e with alert := v }).emit (.regStatus a.master .ok))) ∧
        (a.die < s.dies.length → exec (.evtAlert a .hi v) s = .next ((s.onDie a.die fun e =>
          { e with alert := (v &&& 0xFFFFFFFF00000000) ||| (e.alert &&& 0xFFFFFFFF) }).emit (.regStatus a.master .ok))) ∧
        (exec (.evtAlert a .lo v) s = .next (s.emit (.regStatus a.master .ok))) ∧
        (∀ t, a.die < s.dies.length → exec (.evtSticky a .both v) s = .next t → ∀ d < 8,
          (t.die d).sticky = if d = a.die then (s.die d).sticky &&& ~~~ (v &&& ~~~ (s.die d).fresh) else (s.die d).sticky))

/-- For a master that reaches guarded registers: ETH_MODE repeating the present mode changes nothing, and another mode 0 to 2 is
stored, an up port going down; APPLY makes the pending record current unless it would change an address or the VID while a
queue pair is connected on the port, which is answered RESOURCE_BUSY; SAVE starts a save of the current record, or marks
that one more is due while one runs; LIF_CTRL.SAVE starts a life-log save; HUL_EVT_OUT with FUNC 0 or the present FUNC and a
width not 0 is stored, and a claim over another owner is RESOURCE_BUSY with nothing applied; so is HUL_T7, whose period in
range is stored. -/
def Obligations.PortAndTimerRegisterWrites : Prop :=
  ∀ (s : State) (a : Access), Writable s a.master a.die →
      (BitVec.ofNat 2 a.value.toNat = (s.die a.die).eth.mode → a.value.toNat % 4 ≠ 3 →
        exec (.ethMode a) s = .next (s.emit (.regStatus a.master .ok))) ∧
      (BitVec.ofNat 2 a.value.toNat ≠ (s.die a.die).eth.mode → a.value.toNat % 4 ≠ 3 → (s.die a.die).eth.up = false →
        exec (.ethMode a) s = .next ((s.onDie a.die fun e =>
          { e with eth := { e.eth with mode := BitVec.ofNat 2 a.value.toNat } }).emit (.regStatus a.master .ok))) ∧
      ((s.qps.any fun q => q.connected && (q.port == a.die)) = false →
        exec (.ethCfgApply a) s = .next ((s.onDie a.die fun e =>
          { e with eth := { e.eth with current := e.eth.pendingCfg } }).emit (.regStatus a.master .ok))) ∧
      ((s.qps.any fun q => q.connected && (q.port == a.die)) = true →
        (s.die a.die).eth.pendingCfg.addresses ≠ (s.die a.die).eth.current.addresses →
        exec (.ethCfgApply a) s = .next (s.emit (.regStatus a.master .resourceBusy))) ∧
      (exec (.ethCfgSave a) s = .next ((s.onDie a.die fun e => { e with eth := e.eth.save }).emit (.regStatus a.master .ok))) ∧
      (a.die = 0 → exec (.lifCtrlSave a) s = .next (s.startLifSave.emit (.regStatus a.master .ok))) ∧
      (a.die = 0 → a.value.toNat % 4 ≠ 3 → a.value.toNat / 256 % 256 ≠ 0 →
        ((a.value.toNat % 4 = 0 ∨ a.value.toNat % 4 = s.hulEvtOut.toNat % 4 ∨ s.hulEvtOut.toNat % 4 = 0) →
          exec (.hulEvtOut a) s = .next
            ({ s with hulEvtOut := BitVec.ofNat 32 (a.value.toNat % 4 + 256 * (a.value.toNat / 256 % 256)) }.emit
              (.regStatus a.master .ok))) ∧
        ((a.value.toNat % 4 ≠ 0 ∧ a.value.toNat % 4 ≠ s.hulEvtOut.toNat % 4 ∧ s.hulEvtOut.toNat % 4 ≠ 0) →
          exec (.hulEvtOut a) s = .next (s.emit (.regStatus a.master .resourceBusy)))) ∧
      (a.die = 0 → a.value.toNat % 4 = 1 → s.hulT7.toNat % 4 = 1 → 1000 ≤ a.value.toNat / 256 → a.value.toNat / 256 ≤ 600000 →
        exec (.hulT7 a) s = .next
          ({ s with hulT7 := BitVec.ofNat 32 (1 + 256 * (a.value.toNat / 256)), t7At := s.gts }.emit (.regStatus a.master .ok))) ∧
      (a.die = 0 → a.value.toNat % 4 = 2 → s.hulT7.toNat % 4 = 0 → 100 ≤ a.value.toNat / 256 → a.value.toNat / 256 ≤ 1000000 →
        exec (.hulT7 a) s = .next (if s.class0Held then s.emit (.regStatus a.master .resourceBusy)
          else { s with hulT7 := BitVec.ofNat 32 (2 + 256 * (a.value.toNat / 256)), t7At := 0 }.emit (.regStatus a.master .ok))) ∧
      (a.die = 0 → a.value.toNat % 4 = 2 → s.hulT7.toNat % 4 = 1 → 100 ≤ a.value.toNat / 256 → a.value.toNat / 256 ≤ 1000000 →
        exec (.hulT7 a) s = .next (s.emit (.regStatus a.master .resourceBusy)))

/-- For a master that reaches guarded registers and a die present and not recovering: reading IND_DATA answers 0 and sets
IND_STATUS.ERR when IND_ADDR names a reserved space or an absent instance; otherwise it answers the location's word; writing
a training, SerDes or flash word stores it, so that the next read of that location gives it; with AUTOINC the OFFSET
advances by one word modulo 2^24 bytes, setting WRAP when it passes the end; the windows of other masters and all memory
stay as they are. -/
def Obligations.IndirectWindowAccess : Prop :=
  ∀ (s : State) (a : Access), Writable s a.master a.die →
      (let w := (s.indOf a.master a.die).1.toNat
       let space := w / 2 ^ 28 % 8
       let inst := w / 2 ^ 24 % 16
       let word := w / 4 % 2 ^ 22
       (indInstances space ≤ inst →
         (∃ t : State, exec (.indData a false) s = .next (t.emit (.regValue a.master 0)) ∧ (t.indOf a.master a.die).2.toNat % 2 = 1) ∧
         (∃ t : State, exec (.indData a true) s = .next (t.emit (.regStatus a.master .ok)) ∧ t.dies = s.dies ∧
           (t.indOf a.master a.die).2.toNat % 2 = 1)) ∧
       (inst < indInstances space →
         (∃ t : State, exec (.indData a false) s = .next (t.emit (.regValue a.master (BitVec.ofNat 32 (s.indRead a.master a.die space inst word)))) ∧
           t.dies = s.dies ∧ t.mem = s.mem ∧
           (2 ^ 31 ≤ w → (t.indOf a.master a.die).1.toNat = w / 2 ^ 24 * 2 ^ 24 + (word + 1) % 2 ^ 22 * 4) ∧
           (w < 2 ^ 31 → t.indOf a.master a.die = s.indOf a.master a.die) ∧
           (2 ^ 31 ≤ w → word + 1 = 2 ^ 22 → (t.indOf a.master a.die).2.toNat / 2 % 2 = 1) ∧
           (∀ m d, (m, d) ≠ (a.master, a.die) → t.indOf m d = s.indOf m d)) ∧
         (a.die < s.dies.length → space = 1 ∨ space = 2 ∨ space = 4 →
           ∃ t : State, exec (.indData a true) s = .next (t.emit (.regStatus a.master .ok)) ∧
             t.indRead a.master a.die space inst word = a.value.toNat ∧ t.mem = s.mem ∧
             (∀ m d, (m, d) ≠ (a.master, a.die) → t.indOf m d = s.indOf m d))))

/-- On a running part, for a die present and not recovering: a write of PWR_LIMIT, SPR_SVC_MODE, SPR_THRESHk, HUL_LIMITS,
HUL_MODE, ETH_MODE, ETH_CFG_CTRL or EVT_ALERT by an open session that is not privileged is answered OK and changes nothing
but the violation's traces, whatever its value: sticky ACCESS_VIOLATION on D0, one event 0x0901 with the session's number
and one count; for a master that reaches guarded registers an out-of-range value of CLK_RGN, PWR_LIMIT, SPR_THRESHk,
HUL_LIMITS, ETH_MODE, HUL_EVT_OUT or HUL_T7 is answered BAD_PARAM and nothing is applied. -/
def Obligations.UnreachableOrOutOfRangeWritesApplyNothing : Prop :=
  (∀ (s : State) (a : Access) (n : Nat), a.master = .session n → s.phase = .running → a.die < s.dieCount →
        s.dieRecovering a.die = false → s.reaches a.master = false →
        ∀ c ∈ [Instr.pwrLimit a, .sprSvcMode a, .sprThresh a 0, .sprThresh a 1, .sprThresh a 2, .sprThresh a 3, .sprThresh a 4, .hulLimits a, .hulMode a, .ethMode a, .ethCfgApply a,
          .ethCfgSave a],
        exec c s = .next ((((s.stick 0 .accessViolation).event 0 0x1000 0x0901 n).onDie 0 fun d =>
          { d with cnt := modifyAt d.cnt 13 (· + 1) }).emit (.regStatus a.master .ok))) ∧
    (∀ (s : State) (a : Access), Writable s a.master a.die →
        (∀ r < 8, 4 < a.value.toNat / 256 % 8 → exec (.clkRgn a r) s = .next (s.emit (.regStatus a.master .badParam))) ∧
        ((a.value.toNat % 65536 < 480 ∨ 1200 < a.value.toNat % 65536) →
          exec (.pwrLimit a) s = .next (s.emit (.regStatus a.master .badParam))) ∧
        (∀ k < 5, (a.value.toNat % 65536 = 0 ∨ a.value.toNat / 65536 = 0) →
          exec (.sprThresh a k) s = .next (s.emit (.regStatus a.master .badParam))) ∧
        ((a.value.toNat % 65536 < 1 ∨ 10000 < a.value.toNat % 65536 ∨ a.value.toNat / 65536 < 1 ∨ 1000 < a.value.toNat / 65536) →
          exec (.hulLimits a) s = .next (s.emit (.regStatus a.master .badParam))) ∧
        (a.value.toNat % 4 = 3 → exec (.ethMode a) s = .next (s.emit (.regStatus a.master .badParam))) ∧
        (a.die = 0 → (a.value.toNat % 4 = 3 ∨ a.value.toNat / 256 % 256 = 0) →
          exec (.hulEvtOut a) s = .next (s.emit (.regStatus a.master .badParam))) ∧
        (a.die = 0 → (a.value.toNat % 4 = 3 ∨ (a.value.toNat % 4 = 1 ∧ a.value.toNat / 256 < 1000) ∨
            (a.value.toNat % 4 = 2 ∧ a.value.toNat / 256 < 100)) →
          exec (.hulT7 a) s = .next (s.emit (.regStatus a.master .badParam))))

/-- While the firmware runs, VCORE_TARGET, VCORE_MEASURED, TEMPERATURE, POWER and STATUS each return eight words, die d's word
being its target with bit 15 VALID, its PWR_VCORE, PWR_TJ, PWR_POWER, or PWR_STATUS with bit 8 for the latched trip, and 0
for an absent die; nothing else changes. While it does not run, nothing is returned. -/
def Obligations.ManagementBusReads : Prop :=
  ∀ s : State,
      (s.firmwareRuns = false →
        ∀ c ∈ [Instr.vcoreTarget, .vcoreMeasured, .temperature, .power, .status], exec c s = .next s) ∧
      (s.firmwareRuns = true →
        (let words := fun (f : Die → Nat) => State.emit s (.smbus ((List.range 8).map fun d =>
           if d < s.dieCount then BitVec.ofNat 16 (f (s.die d)) else 0))
         exec .vcoreTarget s = .next (words fun d => match d.vcoreTarget with
           | some v => 0x8000 + v
           | none => 0) ∧
         exec .vcoreMeasured s = .next (words fun d => d.vcore.toNat) ∧
         exec .temperature s = .next (words fun d => d.pwrTj.toNat) ∧
         exec .power s = .next (words fun d => d.pwrPower.toNat) ∧
         exec .status s = .next (words fun d => d.pwrStatus.toNat + 256 * (if s.thermTrip then 1 else 0))))

/-- For every request row on an answering port: a datagram that is a fragment, too short for its tag, of a length other than its
PARAM_LEN, of a wrong MAGIC or VERSION, with FLAGS bit 2 against its session number, or that finds 1,024 waiting, changes
nothing but CMD_DROP of the die of its port. A framed one naming a session that exists, or HELLO on session 0 under the zero
key, whose tag is not KMAC256 of its header and parameters under the host-to-part key does the same, is not answered and
consumes no sequence number. One naming a session number that no session has is answered AUTH_FAIL with FLAGS bit 2, at most
100 times in a second on one port, and nothing else changes but the port's count of such replies; the 101st is dropped. -/
def Obligations.FramingAndTagAreCheckedFirst : Prop :=
  (∀ (s : State) (c : Instr) (d : Datagram) (op : Nat), request c = some (d, op) → s.answersOn d.port = true → dgFramed d = false →
      exec c s = .next (s.onDie d.port fun e => { e with cnt := modifyAt e.cnt 0 (· + 1) })) ∧
    (∀ (s : State) (c : Instr) (d : Datagram) (op : Nat) (x : Session), request c = some (d, op) → s.answersOn d.port = true →
        dgFramed d = true → d.session ≠ 0 → s.session d.session.toNat = some x → cmdTag x.keyIn (dgHeader d op ++ d.params) ≠ d.tag →
        exec c s = .next (s.cmdDrop d.port)) ∧
    (∀ (s : State) (d : Datagram), s.answersOn d.port = true → dgFramed d = true → d.session = 0 →
        cmdTag (zeros 32) (dgHeader d 0x0001 ++ d.params) ≠ d.tag → exec (.hello d) s = .next (s.cmdDrop d.port)) ∧
    (∀ (s : State) (c : Instr) (d : Datagram) (op : Nat), request c = some (d, op) → s.answersOn d.port = true → dgFramed d = true →
      d.session ≠ 0 → s.session d.session.toNat = none →
      (let e := (s.die d.port).eth
       let reply := Out.reply (mkReply d op (zeros 32) true .authFail [] s.gts)
       (s.gts < e.authSecond + 10 ^ 9 → 100 ≤ e.authCount → exec c s = .next s) ∧
       (s.gts < e.authSecond + 10 ^ 9 → e.authCount < 100 → exec c s = .next ((s.onDie d.port fun y =>
          { y with eth := { y.eth with authCount := e.authCount + 1 } }).emit reply)) ∧
       (e.authSecond + 10 ^ 9 ≤ s.gts → exec c s = .next ((s.onDie d.port fun y =>
          { y with eth := { y.eth with authSecond := s.gts, authCount := 1 } }).emit reply))))

/-- For every request row on an open session with a right tag and a clean header: a number below the window is answered STALE; a
number in the window that is cached resends the cached reply to this copy's source when the tags are equal and is answered
SEQ_CONFLICT when they differ; a new number that would push a pending entry out of the window is answered RESOURCE_BUSY; in
each case nothing executes, and but for where a resent reply and a later final reply go, only the session's idle clock
restarts and the answer leaves. -/
def Obligations.SequenceNumberCases : Prop :=
  ∀ (s : State) (c : Instr) (d : Datagram) (op : Nat) (x : Session), request c = some (d, op) → s.answersOn d.port = true →
      dgFramed d = true → d.session ≠ 0 → s.session d.session.toNat = some x → x.isOpen = true →
      cmdTag x.keyIn (dgHeader d op ++ d.params) = d.tag → dgClean d = true →
      (d.sequence.toNat + 63 < x.h → exec c s = .next ((s.heard x).answerOnly d op (x.heard s) .stale)) ∧
      (d.sequence.toNat ≤ x.h → x.h ≤ d.sequence.toNat + 63 →
        ∀ e, x.cache.find? (·.sequence == d.sequence.toNat) = some e →
          (e.tag = d.tag → exec c s = .next ((s.heard x).resend d (x.heard s) e)) ∧
          (e.tag ≠ d.tag → exec c s = .next ((s.heard x).answerOnly d op (x.heard s) .seqConflict))) ∧
      (x.h < d.sequence.toNat → (∃ e ∈ x.cache, e.pending = true ∧ e.sequence + 63 < d.sequence.toNat) →
        exec c s = .next ((s.heard x).answerOnly d op (x.heard s) .resourceBusy))

/-- A request that is new, framed, rightly tagged and clean on an open session, with an opcode of the running part: from an
ordinary session every P opcode is answered NOT_PRIVILEGED whatever its parameters; from a privileged session, while the
package recovers, each of them is answered RECOVERING; the reply is cached, and nothing else changes. -/
def Obligations.ChecksOfRankAndRecovery : Prop :=
  ∀ (s : State) (d : Datagram) (op : Nat) (x : Session) (c : Instr),
      (c, op) ∈ [(Instr.profileLoadStage d, 0x0010), (.profileLoadCommit d, 0x0010), (.profileLoadAbandon d, 0x0010),
        (.profileUnload d, 0x0011), (.stickyClear d, 0x0051), (.crashRead d, 0x0054), (.fwStage d, 0x0060), (.fwVerify d, 0x0061),
        (.fwActivate d, 0x0062), (.spareEngage d, 0x0071), (.recover d, 0x0090), (.partnerConfig d, 0x00A0),
        (.twinConfigEnable d, 0x00A1), (.twinConfigDisable d, 0x00A1)] →
      s.answersOn d.port = true → dgFramed d = true → s.session d.session.toNat = some x → x.isOpen = true →
      cmdTag x.keyIn (dgHeader d op ++ d.params) = d.tag → dgClean d = true → x.h < d.sequence.toNat →
      (∀ e ∈ x.cache, e.pending = true → d.sequence.toNat ≤ e.sequence + 63) → s.phase = .running →
      (x.privileged = false → exec c s = .next ((s.heard x).answer d op (.fail .notPrivileged))) ∧
      (x.privileged = true → s.packageRecovering = true → exec c s = .next ((s.heard x).answer d op (.fail .recovering)))

/-- Answering a request of a session sends exactly one reply to the port, address and UDP port it came from, with its SESSION,
SEQUENCE and OPCODE, the status and GTS, tagged under the part-to-host key, carrying 8 bytes FIELD and DETAIL unless the
status is OK or PENDING; the session caches that reply with the request's tag; H becomes the greater of H and the number;
and every entry left in the cache lies in the window of 64 numbers. -/
def Obligations.AnswerIsSentAndCached : Prop :=
  ∀ (s : State) (d : Datagram) (op : Nat) (st : Status) (ps : List Byte) (f dt : Nat) (x : Session),
      s.session d.session.toNat = some x →
      (let t := s.answer d op { status := st, params := ps, field := f, detail := dt }
       ∃ (r : Reply) (y : Session), t.out = s.out ++ [.reply r] ∧ t = { s with sessions := t.sessions, out := t.out } ∧
         r.port = d.port ∧ r.addr = d.srcAddr ∧ r.udp = d.srcPort ∧ r.session = d.session.toNat ∧ r.sequence = d.sequence.toNat ∧
         r.opcode = op ∧ r.status = st ∧ r.gts = s.gts ∧
         ((st = .ok ∨ st = .pending) → r.params = ps) ∧
         (st ≠ .ok → st ≠ .pending → r.params = beBytes 4 f ++ beBytes 4 dt ∧ r.params.length = 8) ∧
         r.tag = cmdTag x.keyOut (headerBytes r.flags r.session r.sequence r.opcode r.params.length (statusCode st) s.gts ++ r.params) ∧
         t.session d.session.toNat = some y ∧ y.h = max x.h d.sequence.toNat ∧
         (x.h ≤ d.sequence.toNat + 63 → ∃ e ∈ y.cache, e.sequence = d.sequence.toNat ∧ e.tag = d.tag ∧ e.reply = r) ∧
         (∀ e ∈ y.cache, e.sequence = d.sequence.toNat ∨ (e ∈ x.cache ∧ y.h ≤ e.sequence + 63)) ∧
         (∀ n, n ≠ d.session.toNat → t.session n = s.session n))

/-- A framed, clean and rightly tagged HELLO on session 0 with 148 parameter bytes, outside package recovery and with fewer than
16 provisional sessions: with the part's fresh key, nonce and number (free values), Z is X448 of the private key and
HOST_X448; when Z is 0 the answer is AUTH_FAIL and no session is kept; otherwise one provisional session is added that holds
the host's Ed448 key, the transcript and the two keys KMAC256 derives from Z and it, and the reply carries the part's key,
nonce, number, identity and its signature over the transcript. Nothing but sessions, the number counter, the draws and the
reply changes. With 16 provisional sessions the answer is NO_RESOURCE and nothing is created. With fewer than 128 sessions
(the part holds at most 80) a new number is below 2^32, not 0 and no session's. -/
def Obligations.HelloCreatesAProvisionalSession : Prop :=
  (∀ (s : State) (d : Datagram), s.answersOn d.port = true → dgFramed d = true → d.session = 0 →
      cmdTag (zeros 32) (dgHeader d 0x0001 ++ d.params) = d.tag → dgClean { d with flags := d.flags &&& 0xFB } = true →
      s.packageRecovering = false → d.params.length = 148 → beAt d.params 113 3 = 0 →
      (let priv := s.drawBytes 56
       let z := x448 priv.1 (d.params.take 56)
       let nonce := priv.2.drawBytes 32
       let num := nonce.2.newSession
       let body := num.2.helloReply (x448 priv.1 x448Base) nonce.1 num.1
       let tr := ascii "ZLK-HELLO" ++ d.params ++ body
       let keys := kmac256 z tr 64 "ZLK-KEYS"
       (16 ≤ (s.sessions.filter fun x => !x.isOpen).length → exec (.hello d) s =
          .next (s.emit (.reply (mkReply d 0x0001 (zeros 32) true .noResource (beBytes 4 0xFFFFFFFF ++ beBytes 4 0) s.gts)))) ∧
       ((s.sessions.filter fun x => !x.isOpen).length < 16 → leNat z = 0 → ∃ r, exec (.hello d) s = .next (priv.2.emit (.reply r)) ∧
          r.status = .authFail ∧ r.session = 0) ∧
       ((s.sessions.filter fun x => !x.isOpen).length < 16 → leNat z ≠ 0 →
          ∃ (y : Session) (r : Reply), exec (.hello d) s = .next ({ num.2 with sessions := num.2.sessions ++ [y] }.emit (.reply r)) ∧
          y.number = num.1 ∧ y.isOpen = false ∧ y.privileged = false ∧ y.hostKey = slice d.params 56 57 ∧ y.transcript = tr ∧
          y.keyIn = keys.take 32 ∧ y.keyOut = keys.drop 32 ∧ y.lastAt = s.gts ∧ y.h = 0 ∧ y.cache = [] ∧
          r.status = .ok ∧ r.params = body ++ ed448Sign (deviceSecret 0) tr "ZLK-PART" ++ zeros 2))) ∧
    (∀ s : State, s.sessions.length < 128 →
      s.newSession.1 ≠ 0 ∧ s.newSession.1 < 2 ^ 32 ∧ s.session s.newSession.1 = none ∧
      s.newSession.2.sessionCtr = some ((s.newSession.1 + 1) % 2 ^ 32) ∧
      s.newSession.2 = { s with sessionCtr := s.newSession.2.sessionCtr, freeCtr := s.newSession.2.freeCtr })

/-- A framed, clean and rightly tagged SESSION_OPEN with SEQUENCE 0, not seen before, and well-formed parameters on a
provisional session, outside package recovery: a signature that fails is answered AUTH_FAIL and a privileged request of a
host key neither on the allow-list nor the owner's NOT_PRIVILEGED, and the provisional session is gone; with 64 open
sessions (4 in network recovery) the answer is NO_RESOURCE, cached, and the provisional session stays; otherwise the session
is open with H 0, its idle time, the privilege asked for and its OK reply cached, PRIVILEGED telling which. -/
def Obligations.SessionOpenOutcomes : Prop :=
  ∀ (s : State) (d : Datagram) (x : Session), s.answersOn d.port = true → dgFramed d = true →
      s.session d.session.toNat = some x → x.isOpen = false → cmdTag x.keyIn (dgHeader d 0x0002 ++ d.params) = d.tag →
      dgClean d = true → s.packageRecovering = false → d.params.length = 120 → d.sequence = 0 → x.h ≤ 63 → (∀ e ∈ x.cache, e.sequence ≠ 0) →
      beAt d.params 0 1 ≤ 1 →
      beAt d.params 1 1 = 0 → beAt d.params 2 2 ≤ 3600 → beAt d.params 118 2 = 0 →
      (let sig := ed448Verify x.hostKey x.transcript (slice d.params 4 114) "ZLK-HOST"
       let wants := beAt d.params 0 1 = 1
       let gone := { s with sessions := s.sessions.filter (·.number != x.number) }
       let limit := if s.phase = .netRecovery then 4 else 64
       (sig = false → ∃ r, exec (.sessionOpen d) s = .next (gone.emit (.reply r)) ∧ r.status = .authFail) ∧
       (sig = true → wants → s.keyAllowed x.hostKey = false →
          ∃ r, exec (.sessionOpen d) s = .next (gone.emit (.reply r)) ∧ r.status = .notPrivileged) ∧
       (sig = true → (wants → s.keyAllowed x.hostKey = true) → limit ≤ (s.sessions.filter (·.isOpen)).length →
          exec (.sessionOpen d) s = .next (s.answer d 0x0002 (.fail .noResource))) ∧
       (sig = true → (wants → s.keyAllowed x.hostKey = true) → (s.sessions.filter (·.isOpen)).length < limit →
          ∃ (y : Session) (r : Reply), exec (.sessionOpen d) s = .next ((s.setSession y).emit (.reply r)) ∧ r.status = .ok ∧
            r.params = [byte (beAt d.params 0 1), 0, 0, 0] ∧ y.number = x.number ∧ y.isOpen = true ∧
            (y.privileged = true ↔ wants) ∧ y.hostKey = x.hostKey ∧ y.keyIn = x.keyIn ∧ y.keyOut = x.keyOut ∧ y.h = 0 ∧
            y.idle = (if beAt d.params 2 2 = 0 then 60 else beAt d.params 2 2) ∧ y.lastAt = s.gts ∧
            y.cache = [{ sequence := 0, tag := d.tag, opcode := 0x0002, reply := r, pending := false }]))

/-- An accepted SESSION_CLOSE without parameters answers OK and then ends the session: it and its indirect windows are gone. A
provisional session 5 s after its HELLO reply, and an open session IDLE seconds after its latest request outside package
recovery, are removed; before that, or for a number that no session has, nothing changes. -/
def Obligations.SessionsAndTicketsEnd : Prop :=
  (∀ (s : State) (d : Datagram) (x : Session), Accepted s d 0x0003 false none none x → d.params = [] →
        exec (.sessionClose d) s = .next ((s.heard x).answer d 0x0003 { close := true }) ∧
        ∀ t, exec (.sessionClose d) s = .next t → t.session d.session.toNat = none ∧
          (∀ n, n ≠ d.session.toNat → t.session n = s.session n)) ∧
    (∀ (s : State) (n : Nat) (x : Session), s.session n = some x → x.isOpen = false →
        (x.lastAt + 5 * 10 ^ 9 ≤ s.gts →
          exec (.provisionalSessionExpiry n) s = .next { s with sessions := s.sessions.filter (·.number != n) }) ∧
        (s.gts < x.lastAt + 5 * 10 ^ 9 → exec (.provisionalSessionExpiry n) s = .next s)) ∧
    (∀ (s : State) (n : Nat) (x : Session), s.session n = some x → x.isOpen = true →
        (x.lastAt + x.idle * 10 ^ 9 ≤ s.gts → s.packageRecovering = false →
          exec (.sessionIdleExpiry n) s = .next (s.endSession n)) ∧
        ((s.gts < x.lastAt + x.idle * 10 ^ 9 ∨ s.packageRecovering = true) → exec (.sessionIdleExpiry n) s = .next s)) ∧
    (∀ (s : State) (n : Nat), s.session n = none →
        exec (.provisionalSessionExpiry n) s = .next s ∧ exec (.sessionIdleExpiry n) s = .next s)

/-- For accepted requests with well-formed parameters on a present die: REG_READ of registers other than IND_DATA that the
session reaches answers their values as big-endian words in the order of the access and changes nothing; REG_WRITE, with the
writes made one after another in ascending order, answers OK with all of them applied and one violation when any met a
guarded register out of reach, or BAD_PARAM or RESOURCE_BUSY with the byte offset of the first value refused and none of
them applied. A REG_READ of one guarded register by a session that is not privileged is answered OK with the value 0, and
the violation leaves its traces: sticky ACCESS_VIOLATION on D0, one event 0x0901 with the session number and one count. -/
def Obligations.RegisterCommands : Prop :=
  (∀ (s : State) (d : Datagram) (x : Session), Accepted s d 0x0040 false none (some (beAt d.params 0 1)) x →
        d.params.length = 8 → regParamFault s d.params 1024 = none →
        (let die := beAt d.params 0 1
         let offs := regOffsets (beAt d.params 1 3) (beAt d.params 4 2) (beAt d.params 6 2 == 1)
         (∀ o ∈ offs, o ≠ 0x030004 ∧ (guarded die o = true → x.privileged = true)) →
         exec (.regRead d) s = .next ((s.heard x).answer d 0x0040
           (.good (offs.flatMap fun o => beBytes 4 (s.regValue (.session x.number) die o)))))) ∧
    (∀ (s : State) (d : Datagram) (x : Session), Accepted s d 0x0041 false none (some (beAt d.params 0 1)) x →
        regParamFault s d.params 1021 = none → d.params.length = 8 + 4 * beAt d.params 4 2 →
        (let die := beAt d.params 0 1
         let m := Master.session x.number
         let offs := regOffsets (beAt d.params 1 3) (beAt d.params 4 2) (beAt d.params 6 2 == 1)
         let vals := (List.range (beAt d.params 4 2)).map fun i => beAt d.params (8 + 4 * i) 4
         (∀ o ∈ offs, o ≠ 0x030004) →
         exec (.regWrite d) s = .next (match regWrites m die (offs.zip vals) 0 false none (s.heard x) with
           | .ok (g, u) => (if g then u.violation m else u).answer d 0x0041 (.good [])
           | .error (i, .range, g) =>
             (if g then (s.heard x).violation m else s.heard x).answer d 0x0041 (.fail .badParam (8 + 4 * i))
           | .error (i, .busy, g) =>
             (if g then (s.heard x).violation m else s.heard x).answer d 0x0041 (.fail .resourceBusy (8 + 4 * i))))) ∧
    (∀ (s : State) (d : Datagram) (x : Session), Accepted s d 0x0040 false none (some (beAt d.params 0 1)) x →
      d.params.length = 8 → regParamFault s d.params 1024 = none → beAt d.params 4 2 = 1 → x.privileged = false →
      guarded (beAt d.params 0 1) (beAt d.params 1 3) = true →
      exec (.regRead d) s = .next (((((s.heard x).stick 0 .accessViolation).event 0 0x1000 0x0901 x.number).onDie 0 fun e =>
        { e with cnt := modifyAt e.cnt 13 (· + 1) }).answer d 0x0040 (.good [0, 0, 0, 0])))

/-- A record put into a queue that stands in order and holds fewer than 4,096 records with none discarded since stands in it
once, the queue stays in the order of GTS and then SRC and keeps its other records in their order; into any other queue it
is not put: the discarded count rises by one and EVQ_OVERFLOW is set. Only that die changes. -/
def Obligations.EventQueueTakesOrDiscards : Prop :=
  ∀ (s : State) (d blk code arg : Nat), d < s.dies.length →
      (let e := s.die d
       let r := s.mkEvent d blk code arg
       let t := s.event d blk code arg
       (∀ i, i ≠ d → t.die i = s.die i) ∧
       (e.events.length < 4096 → e.discarded = 0 →
         (t.die d) = { e with events := (t.die d).events } ∧ (t.die d).events.Perm (r :: e.events) ∧
         (e.events.Pairwise (fun a b => EventRec.le a b = true) →
           (t.die d).events.Pairwise (fun a b => EventRec.le a b = true)) ∧
         e.events.Sublist (t.die d).events) ∧
       ((4096 ≤ e.events.length ∨ e.discarded ≠ 0) →
         t.die d = { e with discarded := e.discarded + 1, sticky := e.sticky ||| 1, fresh := e.fresh ||| 1 }))

/-- For accepted requests with well-formed parameters: EVENT_READ of one die returns up to MAX of its oldest records, whether
any are left, and removes exactly these, other dies keeping theirs, and an overflow ends with one record 0x0102 as the first
written; STICKY_CLEAR clears exactly the mask's sticky bits of the die, but for one set in the same nanosecond (the model's
cycle, log 92); COUNTER_READ returns the counters named as 64-bit values and changes nothing; CAPS_QUERY returns part, dies,
stepping, firmware version, ABI range, recovery flag and the sessions left; an opcode outside the table is answered
BAD_OPCODE. CRASH_READ of a record held, of at most 4,080 bytes from an offset inside it, answers the number of records, the
length and those bytes, and changes nothing; a record begins with MAGIC, VERSION, DOMAIN, DIE, REGION, TRIGGER and MODE; a
number that no record has is BAD_PARAM. -/
def Obligations.RecordCommands : Prop :=
  (∀ (s : State) (d : Datagram) (x : Session) (die : Nat), Accepted s d 0x0050 false none (some die) x → d.params.length = 4 →
        die = beAt d.params 0 1 → die < s.dieCount → s.diesOk → beAt d.params 1 1 ≠ 0 → beAt d.params 2 2 = 0 →
        (let recs := sortBy EventRec.le (s.die die).events
         let out := recs.take (beAt d.params 1 1)
         ∃ u : State, exec (.eventRead d) s = .next (u.answer d 0x0050 (.good
             ([byte out.length, byte (if (u.die die).events = [] then 0 else 1), 0, 0] ++ out.flatMap EventRec.bytes))) ∧
           (∀ i, i ≠ die → u.die i = s.die i) ∧
           ((s.die die).discarded = 0 → u.die die = { s.die die with events := (s.die die).events.drop out.length }) ∧
           ((s.die die).discarded ≠ 0 → out ≠ [] → (u.die die).discarded = 0 ∧ (u.die die).events = EventRec.insert
             (s.mkEvent die 0x1000 0x0102 (min (s.die die).discarded 0xFFFFFFFF)) ((s.die die).events.drop out.length)))) ∧
    (∀ (s : State) (d : Datagram) (x : Session), Accepted s d 0x0051 true none (some (beAt d.params 0 1)) x →
        d.params.length = 12 → beAt d.params 0 1 < s.dieCount → beAt d.params 1 3 = 0 →
        exec (.stickyClear d) s = .next (((s.heard x).onDie (beAt d.params 0 1) fun e =>
          { e with sticky := e.sticky &&& ~~~ (BitVec.ofNat 64 (beAt d.params 4 8) &&& ~~~ e.fresh) }).answer d 0x0051 (.good []))) ∧
    (∀ (s : State) (d : Datagram) (x : Session), Accepted s d 0x0052 false none (some (beAt d.params 0 1)) x →
        d.params.length = 8 → beAt d.params 0 1 < s.dieCount → 0x220000 ≤ beAt d.params 1 3 → beAt d.params 1 3 % 8 = 0 →
        0 < beAt d.params 4 2 → beAt d.params 4 2 ≤ 512 → beAt d.params 1 3 + 8 * beAt d.params 4 2 ≤ 0x230000 →
        beAt d.params 6 2 = 0 →
        exec (.counterRead d) s = .next ((s.heard x).answer d 0x0052 (.good ((List.range (beAt d.params 4 2)).flatMap fun k =>
          beBytes 8 ((s.die (beAt d.params 0 1)).cnt.getD ((beAt d.params 1 3 - 0x220000) / 8 + k) 0).toNat)))) ∧
    (∀ (s : State) (d : Datagram) (x : Session), Accepted s d 0x0004 false none none x → d.params = [] →
        exec (.capsQuery d) s = .next ((s.heard x).answer d 0x0004 (.good (beBytes 2 s.part.number ++ [byte s.dieCount, 0xA0] ++
          beBytes 4 s.fwVersion ++ [byte s.abiMin, byte s.abiMax, byte (if s.phase = .netRecovery then 1 else 0),
            byte ((if s.phase = .netRecovery then 4 else 64) - ((s.heard x).sessions.filter (·.isOpen)).length)])))) ∧
    (∀ (s : State) (d : Datagram) (x : Session) (op : BitVec 16), s.answersOn d.port = true → dgFramed d = true →
        s.session d.session.toNat = some x → x.isOpen = true → cmdTag x.keyIn (dgHeader d op.toNat ++ d.params) = d.tag →
        dgClean d = true → x.h < d.sequence.toNat → (∀ e ∈ x.cache, e.pending = true → d.sequence.toNat ≤ e.sequence + 63) →
        op.toNat ∉ knownOpcodes →
        exec (.unknownOpcode op d) s = .next ((s.heard x).answer d op.toNat (.fail .badOpcode))) ∧
    (∀ (s : State) (d : Datagram) (x : Session), Accepted s d 0x0054 true none none x → d.params.length = 12 →
      (s.crash.length ≤ beAt d.params 0 4 → exec (.crashRead d) s = .next ((s.heard x).answer d 0x0054 (.fail .badParam 0))) ∧
      (∀ c, s.crash[beAt d.params 0 4]? = some c → (∀ r ∈ s.recoveries, r.seq ≠ c.seq) → beAt d.params 4 4 < s.crashLength c →
        0 < beAt d.params 8 2 → beAt d.params 8 2 ≤ 4080 → beAt d.params 10 2 = 0 →
        exec (.crashRead d) s = .next ((s.heard x).answer d 0x0054 (.good (beBytes 4 s.crash.length ++ beBytes 4 (s.crashLength c) ++
          zeros 8 ++ slice (s.crashBytes c) (beAt d.params 4 4) (beAt d.params 8 2)))) ∧
        (s.crashBytes c).take 8 = leBytes 2 0x5A58 ++ [1, byte (domainCode c.dom), byte (domainDie c.dom), byte (domainRegion c.dom),
          byte c.trigger, byte (if c.compat then 1 else 0)]))

/-- For accepted requests with well-formed parameters: SPARE_QUERY answers spares left and engaged for the five kinds and
changes nothing; SPARE_ENGAGE of an element in place, of a kind with a spare left, that does not complete at once is PENDING
and the die gains one engagement that waits with the request, a page being marked pending, while every other die keeps its
engagements; of a kind with no spare left it is NO_RESOURCE and of a row or page already replaced BAD_PARAM. An engagement
that is due completes, and where no operation of the die's threads waits for a lane that a lane or unit engagement could
start: the die no longer lists it, counts the spare as engaged, sets sticky SPARE_ENGAGED and writes 0x0B01, and a unit or
lane number is in service with its spare's record absent. -/
def Obligations.SpareCommands : Prop :=
  (∀ (s : State) (d : Datagram) (x : Session), Accepted s d 0x0070 false none (some (beAt d.params 0 1)) x → d.params.length = 4 →
        beAt d.params 0 1 < s.dieCount → beAt d.params 1 3 = 0 →
        exec (.spareQuery d) s = .next ((s.heard x).answer d 0x0070 (.good ((List.range 5).flatMap fun k =>
          beBytes 4 (spareTotal k - (s.die (beAt d.params 0 1)).spareEngaged k) ++ beBytes 4 ((s.die (beAt d.params 0 1)).spareEngaged k))))) ∧
    (∀ (s : State) (d : Datagram) (x : Session) (die kind target : Nat), Accepted s d 0x0071 true none (some die) x →
        d.params.length = 8 → die = beAt d.params 0 1 → kind = beAt d.params 1 1 → target = beAt d.params 4 4 → die < s.dieCount →
        s.diesOk → kind ≤ 4 → beAt d.params 2 2 = 0 → spareTargetOk kind target = true →
        (kind < 2 → s.regionRecovering die (targetRegion kind target) = false) → (s.die die).isEngaging kind target = false →
        ((s.die die).alreadyRetired kind target = true →
          exec (.spareEngage d) s = .next ((s.heard x).answer d 0x0071 (.fail .badParam 4))) ∧
        ((s.die die).alreadyRetired kind target = false → (kind = 2 → (s.die die).plk.up = true) →
          ((s.die die).spareLeft kind target = false →
            exec (.spareEngage d) s = .next ((s.heard x).answer d 0x0071 (.fail .noResource))) ∧
          ((s.die die).spareLeft kind target = true → s.engagesAtOnce die kind target = false →
            ∃ u : State, exec (.spareEngage d) s = .next (u.answer d 0x0071 .wait) ∧
              (u.die die).engaging = (s.die die).engaging ++ [⟨kind, target, s.gts, [dgReq d]⟩] ∧
              (∀ i, i ≠ die → u.die i = s.die i) ∧ u.mem = s.mem ∧
              (u.die die).pendingPages = (if kind = 4 then (s.die die).pendingPages ++ [target] else (s.die die).pendingPages)))) ∧
    (∀ (s : State) (die kind target : Nat) (e : Engagement), die < s.dieCount → s.diesOk → kind ≤ 4 → spareTargetOk kind target = true →
        (s.die die).engaging.find? (fun y => y.kind == kind && y.target == target) = some e → s.firmwareRuns = true →
        s.engageDue die kind target = true →
        ∃ t : State, exec (.spareEngaged die kind target) s = .next t ∧
          ((kind < 2 → ∀ y ∈ s.threads, y.id.die = die → ∀ o ∈ y.out, o.engine ≠ .lane) → (t.die die).isEngaging kind target = false ∧
          (t.die die).events = ((s.die die).record (s.mkEvent die srcService 0x0B01 (spareArg kind target))).events ∧
          (t.die die).engaged = (s.die die).engaged ++ [(kind, target)] ∧ (t.die die).sticky &&& 0x8000 = 0x8000 ∧
          (∀ i, i ≠ die → t.die i = s.die i) ∧
          (kind = 0 → (s.die die).rgn.length = 288 → ((t.die die).rgn.getD (unitRecord target) {}).up = true ∧
            ((t.die die).rgn.getD (unitCluster target * 9 + 8) {}).present = false) ∧
          (kind = 1 → (s.die die).ent.length = 40 → ((t.die die).ent.getD (target / 4 * 5 + target % 4) {}).up = true ∧
            ((t.die die).ent.getD (target / 4 * 5 + 4) {}).present = false)))

/-- On a running part a correctable error of a present element raises that record's CE_COUNT by one up to 0xFFFF, and MEM_CE,
DSR_CE or D2D_CORRECTED of the die for a channel, a tier or a bridge; no other die changes. A single failing partner lane of
a port at 8 lanes with its spare free and no engagement under way begins the spare's engagement with SPARE_AUTO, and
otherwise writes 0x0B08. The LPDDR5X channel of an address is its 4 KiB page modulo 16, eight channels to a device, and its
channel address is its 64 KiB block times 4 KiB and its offset in the page. On a running part, for a bridge that is present
and up: a single-bit error raises D2D_CORRECTED and the record's CE_COUNT and ends the run of replays; a double-bit error
raises D2D_REPLAY and that run; at sixteen the bridge is down on both dies with sticky BRIDGE_DOWN and both dies are in
recovery with trigger 5. A bridge the part does not have faults. -/
def Obligations.MemoryErrorsAreCounted : Prop :=
  (∀ (s : State) (die i target : Nat), s.phase = .running → die < s.dieCount → s.diesOk →
        (i < 16 → target % 16 = i → target < 50331648 → (s.die die).memCh.length = 16 → (s.die die).cnt.length = 14 →
          ∃ t : State, exec (.correctableError die (.memCh i) target) s = .next t ∧
            ((t.die die).memCh.getD i {}).ceCount.toNat = min 0xFFFF (((s.die die).memCh.getD i {}).ceCount.toNat + 1) ∧
            (t.die die).cnt.getD 11 0 = (s.die die).cnt.getD 11 0 + 1 ∧ t.mem = s.mem ∧ ∀ k, k ≠ die → t.die k = s.die k) ∧
        (i < 8 → (s.die die).lze.length = 8 →
          ∃ t : State, exec (.correctableError die (.lze i) target) s = .next t ∧
            ((t.die die).lze.getD i {}).ceCount.toNat = min 0xFFFF (((s.die die).lze.getD i {}).ceCount.toNat + 1) ∧
            t.mem = s.mem ∧ ∀ k, k ≠ die → t.die k = s.die k)) ∧
    (∀ (s : State) (port lane : Nat), s.phase = .running → port < s.dieCount → s.diesOk → lane < 8 → (s.die port).plk.lanes = 8 →
        (s.die port).plk.up = true → (s.die port).spareLeft 2 lane = true → (s.die port).isEngaging 2 lane = false →
        (bit (s.die port).svcMode.toNat 0 = true → ∃ t : State, exec (.partnerLaneFailure port lane) s = .next t ∧
          (t.die port).engaging = (s.die port).engaging ++ [⟨2, lane, s.gts, []⟩]) ∧
        (bit (s.die port).svcMode.toNat 0 = false → exec (.partnerLaneFailure port lane) s =
          .next (s.event port 0x1003 0x0B08 (0x20000000 + lane)))) ∧
    (∀ off, lpChannel off = off / 2 ^ 12 % 16 ∧ lpDevice off = lpChannel off / 8 ∧ lpChannelAddr off % 2 ^ 12 = off % 2 ^ 12 ∧
      lpChannelAddr off / 2 ^ 12 = off / 2 ^ 16) ∧
    (∀ (s : State) (d i e : Nat), s.phase = .running → s.diesOk → d < s.dieCount → s.part.bridgeTo d i = some e →
        (s.die d).d2d.length = 4 → (s.die d).cnt.length = 14 → (s.die d).replays.length = 4 → ((s.die d).d2d.getD i {}).up = true →
        (∃ t : State, exec (.bridgeError d i false) s = .next t ∧ (t.die d).cnt.getD 9 0 = (s.die d).cnt.getD 9 0 + 1 ∧
          (t.die d).replays.getD i 0 = 0 ∧ t.mem = s.mem ∧ ∀ k, k ≠ d → t.die k = s.die k) ∧
        ((s.die d).replays.getD i 0 + 1 < 16 → ∃ t : State, exec (.bridgeError d i true) s = .next t ∧
          (t.die d).cnt.getD 10 0 = (s.die d).cnt.getD 10 0 + 1 ∧ (t.die d).replays.getD i 0 = (s.die d).replays.getD i 0 + 1 ∧
          t.mem = s.mem ∧ ∀ k, k ≠ d → t.die k = s.die k) ∧
        (16 ≤ (s.die d).replays.getD i 0 + 1 → s.recoveries = [] → ∃ t : State, exec (.bridgeError d i true) s = .next t ∧
          ((t.die d).d2d.getD i {}).up = false ∧ ((t.die d).sticky &&& 0x400) = 0x400 ∧ ((t.die e).sticky &&& 0x400) = 0x400 ∧
          (∃ r ∈ t.recoveries, r.dom = .die d ∧ r.trigger = 5) ∧ (∃ r ∈ t.recoveries, r.dom = .die e ∧ r.trigger = 5))) ∧
    (∀ (s : State) (d i : Nat) (b : Bool), s.dieCount ≤ d ∨ s.part.bridgeTo d i = none → exec (.bridgeError d i b) s = .fault .absentElement)

/-- For accepted requests in LIVE_SERVICE with a well-formed island not in recovery, no activation pending: ISLAND_QUIESCE or
RECAL of an island in service that may leave is PENDING and begins the die's service of that island; a region then takes no
new list (HUL QUIESCING). When it has drained, ISLAND_QUIESCE_COMPLETE makes it quiesced (or recalibrating) with event
0x0B03. ISLAND_RESUME of a quiesced island is PENDING and it resumes; RECAL of it is PENDING and it recalibrates, and at
RECAL_COMPLETE stays quiesced. A resuming island that is ready is back in service at ISLAND_RESUME_COMPLETE with event
0x0B04. An LPDDR5X channel resumes by itself 30 ms after it quiesced. Other dies' services do not change. -/
def Obligations.IslandsLeaveAndReturn : Prop :=
  (∀ (s : State) (d : Datagram) (x : Session) (die : Nat), die = beAt d.params 0 1 → d.params.length = 4 → s.diesOk →
        s.islandFault d.params = none → s.islandRecovering die (islandOf d.params) = false → s.activation = none →
        (Accepted s d 0x0072 true none (some die) x → (s.die die).service = none → s.islandBusy die (islandOf d.params) = false →
          ∃ u : State, exec (.islandQuiesce d) s = .next (u.answer d 0x0072 .wait) ∧
            (u.die die).service = some { island := islandOf d.params, stage := 0, since := s.gts, quiesceReq := [dgReq d] } ∧
            (∀ i, i ≠ die → (u.die i).service = (s.die i).service) ∧
            ((islandOf d.params).kind = 0 → ∀ r, (s.die die).regions[(islandOf d.params).index]? = some r → r.owner = 0xFFFFFFFF →
              ((u.die die).regions.getD (islandOf d.params).index {}).hul = 6)) ∧
        (Accepted s d 0x0074 true none (some die) x → (s.die die).service = none → s.islandBusy die (islandOf d.params) = false →
          ∃ u : State, exec (.recal d) s = .next (u.answer d 0x0074 .wait) ∧
            (u.die die).service =
              some { island := islandOf d.params, stage := 0, since := s.gts, recal := true, recalReq := [dgReq d] }) ∧
        (∀ v, (s.die die).service = some v → v.island = islandOf d.params → v.stage = 1 →
          (Accepted s d 0x0073 true none (some die) x → ∃ u : State, exec (.islandResume d) s = .next (u.answer d 0x0073 .wait) ∧
            (u.die die).service = some { v with stage := 3, resumeReq := v.resumeReq ++ [dgReq d] }) ∧
          (Accepted s d 0x0074 true none (some die) x → exec (.recal d) s = .next (((s.heard x).onDie die fun e =>
            { e with service := some { v with stage := 2, recalReq := v.recalReq ++ [dgReq d] } }).answer d 0x0074 .wait)))) ∧
    (∀ (s : State) (die : Nat) (v : IslandService), die < s.dieCount → s.diesOk → (s.die die).service = some v → s.firmwareRuns = true →
        (v.stage = 0 → s.islandDrained die v.island = true → v.activation = false → ∃ t : State,
          exec (.islandQuiesceComplete die) s = .next t ∧ (t.die die).service =
            some { v with stage := if v.recal then 2 else 1, since := s.gts, quiesceReq := [] } ∧
          (v.island.kind = 0 → ∀ r, (s.die die).regions[v.island.index]? = some r →
            ((t.die die).regions.getD v.island.index {}).hul = 7 ∧ ((t.die die).regions.getD v.island.index {}).quiesced = true)) ∧
        (v.stage = 2 → v.recal = false → s.islandRecovering die v.island = false → ∀ pass, ∃ t : State,
          exec (.recalComplete die pass) s = .next t ∧ (t.die die).service = some { v with stage := 1, recalReq := [] }) ∧
        (v.stage = 3 → s.islandReady die v.island = true → s.islandRecovering die v.island = false → ∃ t : State,
          exec (.islandResumeComplete die) s = .next t ∧ (t.die die).service = none ∧
          (v.island.kind = 0 → ∀ r, (s.die die).regions[v.island.index]? = some r →
            ((t.die die).regions.getD v.island.index {}).hul = 0 ∧ ((t.die die).regions.getD v.island.index {}).step = 0)) ∧
        (v.island.kind = 3 → v.stage = 1 → v.since + 30000000 ≤ s.gts →
          exec (.channelAutoResume die) s = .next (s.onDie die fun e => { e with service := some { v with stage := 3 } })) ∧
        (v.stage = 1 → s.gts < v.since + 30000000 → exec (.channelAutoResume die) s = .next s))

/-- While firmware serves a region's quiesce that began at least 40 ms ago, QUIESCE_TILE_RETURN of one context of the region, of
a class above 0, at a chunk boundary, to a FREE context of a unit that takes lists, its replay point standing at an
operation of a listed opcode of a list that its cluster fetches: the old context is free, the new one is bound to the same
stream or job at that replay point, with the same queued lists and the adds it had completed since still to skip, and memory
is unchanged; before 40 ms nothing changes. -/
def Obligations.TileReturnsFromQuiescingRegion : Prop :=
  (∀ (s : State) (die : Nat) (v : IslandService) (m : ThreadId × ThreadId) (th : Thread), die < s.dieCount →
        (s.die die).service = some v → v.island.kind = 0 → v.stage = 0 → s.firmwareRuns = true → v.since + 40000000 ≤ s.gts →
        s.islandRecovering die v.island = false → s.mayReturn die v.island.index m = true → s.thread m.1 = some th → m.1 ≠ m.2 →
        (∃ c, (th.rewind s.gts).cur = some c ∧ c.opIndex < c.opCount ∧ s.listShut m.2 c.addr = false ∧ (∀ f ∈ s.istore, f.holds m.2 c.addr = false) ∧
          c.here < c.addr + s.numAt (c.addr + 4) 4 ∧ c.addr ≤ c.here ∧ (rowOf (s.byteAt c.here).toNat).isSome = true) → s.noneWaits → s.memOk →
        ∃ t : State, exec (.quiesceTileReturn die [m]) s = .next t ∧ t.thread m.1 = none ∧ t.mem = s.mem ∧
          t.thread m.2 = some { (th.rewind s.gts) with id := m.2 }) ∧
    (∀ (s : State) (die : Nat) (v : IslandService) (l : List (ThreadId × ThreadId)), die < s.dieCount →
        (s.die die).service = some v → s.gts < v.since + 40000000 → exec (.quiesceTileReturn die l) s = .next s)

/-- On a running part where neither the domain nor a larger one is in recovery, each trigger begins the recovery of its domain
with its code: the package watchdog's expiry (6), an uncorrectable error in a scratchpad or pod memory (3, the region) or in
deep SRAM or LPDDR5X (4, the die, the 4 KiB range being retired), the progress monitor of a stuck region (2), a chunk beyond
the limit on a region engine outside a replay (1), and an accepted RECOVER (7, PENDING). Fence: the recovery stands at step
0 since now, no context of the domain runs, every region of the domain reads FENCED, and memory is untouched. -/
def Obligations.RecoveryTriggers : Prop :=
  ∀ s : State, s.phase = .running → s.diesOk →
      ((∀ r ∈ s.recoveries, r.dom ≠ .package) → s.activation = none → s.hulT7.toNat % 4 = 1 →
        s.t7At + s.hulT7.toNat / 256 * 1000000 ≤ s.gts → ∃ t : State, exec .watchdogExpiry s = .next t ∧ FencedBy s t .package 6) ∧
      (∀ (addr : Nat) (reader : Option ThreadId) (d u off : Nat), locate s.dieCount addr = .scratch d u off →
        s.regionRecovering d (u / 32) = false →
        ∃ t : State, exec (.uncorrectableError .scratchpad addr reader) s = .next t ∧ FencedBy s t (.region d (u / 32)) 3) ∧
      (∀ (addr : Nat) (reader : Option ThreadId) (d q off : Nat), locate s.dieCount addr = .pod d q off →
        s.regionRecovering d (q / 4) = false →
        ∃ t : State, exec (.uncorrectableError .pod addr reader) s = .next t ∧ FencedBy s t (.region d (q / 4)) 3) ∧
      (∀ (addr : Nat) (reader : Option ThreadId) (d off : Nat), locate s.dieCount addr = .deepSram d off → s.dieRecovering d = false →
        ∃ t : State, exec (.uncorrectableError .deepSram addr reader) s = .next t ∧ FencedBy s t (.die d) 4 ∧
          off / 4096 ∈ (t.die d).retiredDs) ∧
      (∀ (addr : Nat) (reader : Option ThreadId) (d off : Nat), locate s.dieCount addr = .lpddr d off → s.dieRecovering d = false →
        (s.die d).retired.length < 786432 →
        ∃ t : State, exec (.uncorrectableError .lpddr addr reader) s = .next t ∧ FencedBy s t (.die d) 4 ∧ off / 4096 ∈ (t.die d).retired) ∧
      (∀ d r : Nat, d < s.dieCount → r < 8 → s.regionRecovering d r = false → s.stuck d r = true →
        ∃ t : State, exec (.progressMonitor d r) s = .next t ∧ FencedBy s t (.region d r) 2) ∧
      (∀ (d place taken : Nat) (e : Engine) (id : ThreadId) (th : Thread) (o : Outst), d < s.dieCount →
        placePresent e (limitPlace e place) = true → s.oldestChunk d e (limitPlace e place) = some (id, taken) →
        s.thread id = some th → th.out.find? (fun q => q.engine == e && !q.done && q.taken.isSome) = some o →
        fabricCode o.opcode = false → taken + s.opLimit ≤ s.gts → s.regionRecovering id.die (id.unit / 32) = false →
        ∃ t : State, exec (.chunkLimitExpiry d e place) s = .next t ∧ FencedBy s t (.region id.die (id.unit / 32)) 1) ∧
      (∀ (d : Datagram) (x : Session), Accepted s d 0x0090 true none none x → d.params.length = 4 → beAt d.params 0 1 < s.dieCount →
        beAt d.params 1 1 ≤ 2 → (beAt d.params 1 1 = 0 → beAt d.params 2 1 < 8) → beAt d.params 3 1 = 0 → s.recoveries = [] →
        ∃ u : State, exec (.recover d) s = .next (u.answer d 0x0090 .wait) ∧ FencedBy s u (recoverDomain d.params) 7)

/-- On a running part, for a present domain whose recovery stands at the step named: the end of the drain makes it SAMPLE; the
end of the sample writes its crash record, clears scratchpads and pod memory of the domain to 0, keeps every other byte, and
makes it RESET; the end of self-test with no failure makes it RETRAIN with the domain's regions at STEP 0 and out of lock
(for the package when the image verifies); the end of retraining locks them; the end of restoring a recovery in native mode
begins round 0 of REPLAY. At each end GTS is as before and no session is lost. Where no recovery stands at the step, nothing
changes; a domain the part does not have faults. -/
def Obligations.RecoveryStepsInOrder : Prop :=
  (∀ (s : State) (x : Domain) (r : Recovery), s.phase = .running → s.domainPresent x = true → s.diesOk → s.memOk →
        (s.recoveryAt x 0 = some r → ∃ t : State, exec (.fenceDrainComplete x) s = .next t ∧ StepEnds s t x 1 ∧ hulReads s t x 2 ∧ t.mem = s.mem) ∧
        (s.recoveryAt x 1 = some r → ∃ t : State, exec (.sampleComplete x) s = .next t ∧ StepEnds s t x 2 ∧ hulReads s t x 3 ∧
          (∀ a, t.byteAt a = if clearedByReset s x a then 0 else s.byteAt a) ∧ ∃ c ∈ t.crash.head?, c.seq = r.seq ∧ c.dom = r.dom) ∧
        (s.recoveryAt x 2 = some r → (x = .package → s.activation = none ∧ s.imageCheck 0 s.image = 0) →
          ∃ t : State, exec (.resetSelftestComplete x []) s = .next t ∧ StepEnds s t x 3 ∧ hulReads s t x 4 ∧ t.mem = s.mem ∧
            ∀ q ∈ s.domainRegions x, ∀ g, (t.die q.1).regions[q.2]? = some g → g.step = 0 ∧ g.locked = false) ∧
        (s.recoveryAt x 3 = some r → ∃ t : State, exec (.retrainComplete x) s = .next t ∧ StepEnds s t x 4 ∧ t.mem = s.mem ∧
            ∀ q ∈ s.domainRegions x, ∀ g, (t.die q.1).regions[q.2]? = some g → g.locked = true) ∧
        (s.recoveryAt x 4 = some r → r.compat = false → r.fromStaged = false → (x ≠ .package) →
          ∃ t : State, exec (.restoreComplete x []) s = .next t ∧ StepEnds s t x 5 ∧ hulReads s t x 5 ∧ t.mem = s.mem)) ∧
    (∀ (s : State) (x : Domain), s.domainPresent x = true →
        (s.recoveryAt x 0 = none → exec (.fenceDrainComplete x) s = .next s) ∧
        (s.recoveryAt x 1 = none → exec (.sampleComplete x) s = .next s) ∧
        (∀ l, s.recoveryAt x 2 = none → exec (.resetSelftestComplete x l) s = .next s) ∧
        (s.recoveryAt x 3 = none → exec (.retrainComplete x) s = .next s) ∧
        (∀ l, s.recoveryAt x 4 = none → exec (.restoreComplete x l) s = .next s) ∧
        (s.recoveryAt x 5 = none → exec (.replayRoundEnd x) s = .next s)) ∧
    (∀ (s : State) (x : Domain), s.domainPresent x = false → ∀ c ∈ [Instr.fenceDrainComplete x, .sampleComplete x,
        .resetSelftestComplete x [], .retrainComplete x, .restoreComplete x [], .replayRoundEnd x, .recoveryStepTimeout x],
        exec c s = .fault .absentElement)

/-- On a running part: after round 15, with every context of the round decided and none waiting for the extra round,
REPLAY_ROUND_END ends the recovery: it is gone, and the regions of its domain read RUN, QUIESCED or QUIESCING; before round
15 the next round begins. A region or die recovery whose step has taken longer than its maximum becomes one of the next
larger domain at Fence with trigger 8; a package recovery leaves the part in the failed state with no recovery and every
region reading RESET. -/
def Obligations.RecoveryEndsOrEscalates : Prop :=
  (∀ (s : State) (x : Domain) (r : Recovery), s.phase = .running → s.domainPresent x = true → s.diesOk →
        s.recoveryAt x 5 = some r → (∀ p ∈ r.running, p.outcome ≠ 0 ∨ (s.replayOutcome p.thread.id).isSome = true) →
        (∀ q ∈ s.recoveries, q.dom = x → q = r) →
        (r.round < 15 → ∃ t : State, exec (.replayRoundEnd x) s = .next t ∧ ∃ q ∈ t.recoveries, q.dom = x ∧ q.round = r.round + 1) ∧
        (r.round = 15 → (∀ p ∈ r.suspects, p.round ≠ 16) → ∃ t : State, exec (.replayRoundEnd x) s = .next t ∧
          (∀ q ∈ t.recoveries, q.dom ≠ x) ∧
          ∀ q ∈ s.domainRegions x, ∀ g, (t.die q.1).regions[q.2]? = some g → g.hul = 0 ∨ g.hul = 6 ∨ g.hul = 7)) ∧
    (∀ (s : State) (x y : Domain) (r : Recovery), s.phase = .running → s.domainPresent x = true → s.diesOk →
        s.recoveries.find? (·.dom == x) = some r → r.step < 5 → r.stepAt + stepMax x r.step * 1000000 < s.gts →
        largerDomain x = some y → ∃ t : State, exec (.recoveryStepTimeout x) s = .next t ∧ FencedBy s t y 8) ∧
    (∀ (s : State) (r : Recovery), s.phase = .running → s.recoveries.find? (·.dom == .package) = some r → r.step < 5 → s.diesOk →
        r.stepAt + stepMax .package r.step * 1000000 < s.gts → ∃ t : State, exec (.recoveryStepTimeout .package) s = .next t ∧
          t.phase = .failed ∧ t.recoveries = [] ∧ t.mem = s.mem ∧
          ∀ d < s.dieCount, ∀ k g, k < 8 → (t.die d).regions[k]? = some g → g.hul = 3)

/-- For each operation row that an engine takes (the 29 of chapters 02 to 11 but ENC and DEC, PREFETCH at its own position,
ATOMIC_ADD): when the thread's next operation is of the row and every condition for its execution is met (MayRun), no
earlier add is to be skipped, it reads no partner, its result stops nothing and no other thread waits for a buffer, the
command answers a next state in which memory is the old memory with exactly the result's bytes for this part's addresses
written, so that every address outside them reads as before; the thread stands at the next operation and the operation is
outstanding on its engine; sessions, profiles and table banks are unchanged, and, where the result writes no event and no
partner and the thread goes on (the next opcode is a listed one), dies and jobs too. ENC and DEC answer a next state: where
no lane has room they wait with memory unchanged; where a lane of an idle region takes the operation it is bound to the
active bank and has run, unless its effect stopped the thread. -/
def Obligations.OperationLaunches : Prop :=
  (∀ (s : State) (t : ThreadId) (row : OpRow) (e : Engine) (f : OpFn) (c : Instr) (th : Thread) (cl : CurList) (o : Op) (w : Work),
      (c, row, e, f) ∈ [(Instr.matmul t, rowMatmul, Engine.tensor, matmulWork), (.conv t, rowConv, .tensor, convFn),
        (.dwconv t, rowDwconv, .vector, dwconvFn), (.gconv t, rowGconv, .vector, gconvFn), (.splitkReduce t, rowSplitk, .vector, splitkWork),
        (.eltwise t, rowEltwise, .vector, eltwiseWork), (.reduce t, rowReduce, .vector, reduceWork),
        (.poolMax t, rowPoolMax, .vector, poolMaxWork), (.poolAvg t, rowPoolAvg, .vector, poolAvgWork), (.s2d t, rowS2d, .agen, s2dWork),
        (.d2s t, rowD2s, .agen, d2sWork), (.upsample t, rowUpsample, .agen, upsampleWork), (.copy t, rowCopy, .vector, copyWork),
        (.transpose t, rowTranspose, .agen, transposeWork), (.concat t, rowConcat, .agen, concatWork), (.sfu t, rowSfu, .sfu, sfuWork),
        (.gate t, rowGate, .sfu, gateWork), (.norm t, rowNorm, .sfu, normWork), (.softmax t, rowSoftmax, .sfu, softmaxWork),
        (.qscan t, rowQscan, .vector, qscanWork), (.qconv t, rowQconv, .vector, qconvWork), (.requant t, rowRequant, .vector, requantWork),
        (.rng t, rowRng, .vector, rngWork), (.lzPack t, rowLzPack, .match_, lzPackWork), (.lzUnpack t, rowLzUnpack, .match_, lzUnpackWork),
        (.msearch t, rowMsearch, .motion, msearchWork), (.warp t, rowWarp, .vector, warpWork), (.load t, rowLoad, .agen, loadWork),
        (.store t, rowStore, .agen, storeWork), (.prefetch t, rowPrefetch, .agen, prefetchWork),
        (.atomicAdd t, rowAtomicAdd, .fabric, atomicAddWork)] →
      s.memOk → s.noneWaits → threadPresent s t = true → MayRun s t row f th cl o w →
      (c = .prefetch t → ∀ x ∈ th.early, ¬ (x.1 = cl.addr ∧ x.2.1 = cl.opIndex)) → (c = .atomicAdd t → th.skip = 0) →
      s.readsFar w.reads = false → (w.run s).stop = none →
      ∃ u : State, exec c s = .next u ∧ u.mem = Memory.writeRuns s.mem (s.nearRuns (w.run s)) ∧
        (∀ a, outsideRuns a (s.nearRuns (w.run s)) → u.byteAt a = s.byteAt a) ∧
        (∃ y, u.thread t = some y ∧ y.cur = some { cl with opIndex := cl.opIndex + 1, offset := cl.offset + 16 * o.size } ∧
          y.state ≠ .blocked ∧ y.out.length = th.out.length + 1 ∧ ∃ q ∈ y.out, q.engine = e ∧ q.opcode = row.code ∧
            q.reads = w.reads ∧ q.writes = w.writes ∧ q.opIndex = cl.opIndex ∧ q.done = false ∧ q.ran = true) ∧
        u.sessions = s.sessions ∧ u.profiles = s.profiles ∧ u.banks = s.banks ∧ u.gts = s.gts ∧
        ((w.run s).events = [] → (∀ r ∈ (w.run s).runs, s.partnerOf ⟨r.1, r.2.length⟩ = none) →
          (∀ y, u.thread t = some y → y.state = .ready) → u.dies = s.dies ∧ u.jobs = s.jobs)) ∧
    (∀ (s : State) (t : ThreadId) (row : OpRow) (f : OpFn) (c : Instr) (th : Thread) (cl : CurList) (o : Op) (w : Work),
      (c, row, f) ∈ [(Instr.enc t, rowEnc, encWork), (.dec t, rowDec, decWork)] → s.noneWaits → threadPresent s t = true →
      MayRun s t row f th cl o w → s.readsFar w.reads = false →
      (s.lanesStand t.die (unitRegion t.unit) → s.hasRoom t.die .lane (unitRegion t.unit) = false → ∃ (u : State) (y : Thread) (q : Outst),
        exec c s = .next u ∧ u.mem = s.mem ∧ u.thread t = some y ∧ q ∈ y.out ∧ q.engine = .lane ∧ q.opIndex = cl.opIndex ∧ q.opcode = row.code ∧
          q.reads = w.reads ∧ q.writes = w.writes ∧ q.taken = none ∧ q.ran = false) ∧
      ((∀ x ∈ s.threads, x.at t.die .lane (unitRegion t.unit) = true → ∀ q ∈ x.out, q.engine ≠ .lane) → (∀ q ∈ th.out, q.descr ≠ cl.here) →
        s.hasRoom t.die .lane (unitRegion t.unit) = true → (s.die t.die).gated.contains th.cls = false → s.tagsOpen t cl.here = false →
        ∃ (u : State) (y : Thread), exec c s = .next u ∧ u.thread t = some y ∧
          (y.state = .stopped ∨ ∃ q ∈ y.out, q.engine = .lane ∧ q.opIndex = cl.opIndex ∧ q.opcode = row.code ∧ q.ran = true ∧
            q.bank = some s.activeBank ∧ q.taken = some s.gts)))

/-- For every operation row that an engine takes: when the rules refuse it, its thread is STOPPED with the status, its queued
lists gone, and memory is unchanged; when it must wait for an outstanding operation or a full queue, its thread is BLOCKED
for that and nothing else changes; when it is not the thread's next operation or the thread is not READY, nothing changes;
for a context the part does not have the command faults. For ENC and DEC this is said of a region whose lanes have no
operation to start; for a refusal, of a state in which no thread waits for a buffer. -/
def Obligations.OperationRefusedOrWaits : Prop :=
  ∀ (s : State) (t : ThreadId) (row : OpRow) (e : Engine) (f : OpFn) (c : Instr), (c, row, e, f) ∈ engineRows t →
      (threadPresent s t = false → (∀ x, s.thread t = some x → x.skip = 0) → exec c s = .fault .absentElement) ∧
      (threadPresent s t = true → (c = .prefetch t → ∀ x, s.thread t = some x → x.early = []) →
        (c = .atomicAdd t → ∀ x, s.thread t = some x → x.skip = 0) →
        (c = .enc t ∨ c = .dec t → s.lanesStand t.die (unitRegion t.unit)) →
        (∀ th x, s.noneWaits → s.decideOp t row f = .stop th x →
          ∃ u : State, exec c s = .next u ∧ u.mem = s.mem ∧
            ∃ y, u.thread t = some y ∧ y.state = .stopped ∧ y.status = x.status ∧ y.queue = []) ∧
        (∀ th w, s.decideOp t row f = .blocked th w →
          exec c s = .next (s.setThread { th with state := .blocked, waiting := some (w, s.gts) })) ∧
        (s.decideOp t row f = .idle → exec c s = .next s))

/-- For every operation row, when the decision is to run: no outstanding operation of the thread writes a byte the new one reads
or writes, or reads a byte it writes; fewer than four operations of the thread are outstanding on its engine; the thread is
READY at that operation of its list; and every byte it reads or writes may be accessed, so that none lies in the register
range or outside the populated ranges. The other way round: on a running part a READY thread whose next operation is of the
row, whose descriptor reads well and meets the row's own rules, whose output may stand where it does, that meets no declared
range of a CHECKPOINT and no rule of an exact list, that names no other unit's scratchpad unless it is LOAD, STORE or
PREFETCH, whose bytes may be accessed and lie in no domain under recovery or quiesced region, with no such hazard and room
on its engine, is decided to run (MayRun). -/
def Obligations.HazardsAndQueuesHoldOperations : Prop :=
  (∀ (s : State) (t : ThreadId) (row : OpRow) (f : OpFn) (th : Thread) (cl : CurList) (o : Op) (w : Work),
    s.decideOp t row f = .go th cl o w →
    s.thread t = some th ∧ th.state = .ready ∧ th.cur = some cl ∧ cl.opIndex < cl.opCount ∧ s.opCode t cl = row.code ∧
    (∀ q ∈ th.out, spansMeet q.writes w.reads = false ∧ spansMeet q.writes w.writes = false ∧ spansMeet q.reads w.writes = false) ∧
    (∀ e, row.engine = some e → (th.out.filter (·.engine == e)).length < 4) ∧
    (∀ sp ∈ w.reads ++ w.writes, s.accessOk sp = true ∧ touchesRegisters sp = false)) ∧
  (∀ (s : State) (t : ThreadId) (row : OpRow) (f : OpFn) (th : Thread) (cl : CurList) (o : Op) (w : Work),
    MayRun s t row f th cl o w → s.decideOp t row f = .go th cl o w)

/-- The value of every finite code of a float format converts to that code, in either overflow mode, counting nothing; that of
every LNS code that is not zero converts to that code and counts a saturation exactly for the saturation code; every INT8
and INT4 code of every zero point comes back from its value; and a stored XACC integer that keeps to the 48 bits of a placed
value comes back. A conversion of any value at all gives a code within the format's width. A rational value n / d placed on
the XACC grid with fx fraction bits is the nearest integer to n / d times 2^fx, an even one when two are nearest, or, when
its magnitude is beyond 2^47 - 1, that number with its sign and a saturation. -/
def Obligations.CodesConvertToThemselves : Prop :=
  (∀ (f : Fmt) (fx : Nat) (sat keep : Bool) (zp : Int) (code : Nat), code < 2 ^ f.width →
      (f.isFloat = true → (decodeFloat f code).nonfinite = false → convertEV f fx sat keep zp (decodeFloat f code) = ⟨code, false, false⟩) ∧
      (f.isLns = true → (decodeLns f code).isZero = false →
        convertEV f fx sat keep zp (decodeLns f code) = ⟨code, (lnsLog f code == f.logMax), false⟩) ∧
      (f.isInt = true → f.qmin ≤ zp → zp ≤ f.qmax →
        convertEV f fx sat keep zp (.ofInt (signed f.width code - zp)) = ⟨code, false, false⟩) ∧
      (f = .xacc → (signed 64 code).natAbs ≤ gridLimit → convertEV f fx sat keep zp (decodeCode .xacc fx code) = ⟨code, false, false⟩)) ∧
    (∀ (f : Fmt) (fx : Nat) (sat keep : Bool) (zp : Int) (v : EV), (convertEV f fx sat keep zp v).code < 2 ^ f.width) ∧
    (∀ (n : Int) (d fx : Nat), 0 < d → ∃ p : Placed, place fx (.num n d 0 false) = p ∧ p.nonfin = false ∧ p.n.natAbs ≤ gridLimit ∧
      (p.sat = false → 2 * (p.n * d - n * 2 ^ fx).natAbs ≤ d ∧ (2 * (p.n * d - n * 2 ^ fx).natAbs = d → p.n % 2 = 0)) ∧
      (p.sat = true → p.n.natAbs = gridLimit ∧ (p.n < 0 ↔ n < 0) ∧ (2 * gridLimit + 1) * d ≤ 2 * n.natAbs * 2 ^ fx))

/-- When the decision is to run: FENCE passes once the thread has nothing outstanding and otherwise waits for it; SIGNAL with
nothing outstanding adds VALUE to its word modulo 2^64, every other address reading as before, counts one add and passes,
and otherwise waits for its fence; WAIT passes when the word has reached TARGET and otherwise waits on it with its TIMEOUT
since now; CHECKPOINT makes itself the replay point with its declared ranges, counts adds from there and passes, writing the
zeros of its effect, none outside a list of a tile. An add still to be skipped passes without effect. -/
def Obligations.ControlOperations : Prop :=
  ∀ (s : State) (t : ThreadId) (th : Thread) (cl : CurList) (o : Op) (w : Work), threadPresent s t = true →
      (s.decideOp t rowFence fenceWork = .go th cl o w →
        (th.out = [] → exec (.fence t) s = .next (s.pass th o.size)) ∧ (th.out ≠ [] → exec (.fence t) s = .next (s.block th .fence))) ∧
      (s.decideOp t rowSignal signalWork = .go th cl o w → th.skip = 0 → s.memOk → o.own / 2 ^ 131 = 0 →
        (th.out ≠ [] → exec (.signal t) s = .next (s.block th .fence)) ∧
        (th.out = [] → ∃ u : State, exec (.signal t) s = .next (u.pass { th with adds := th.adds + 1 } o.size) ∧
          (let a := wordAddr ⟨s, th, cl, o, 0⟩
           u.numAt a 8 = (s.numAt a 8 + bits o.own 64 64) % 2 ^ 64 ∧ ∀ b, b < a ∨ a + 8 ≤ b → u.byteAt b = s.byteAt b))) ∧
      (s.decideOp t rowWait waitWork = .go th cl o w →
        (let a := wordAddr ⟨s, th, cl, o, 0⟩
         let target := BitVec.ofNat 64 (bits o.own 64 64)
         let timeout := bits o.own 128 32
         (reached (s.numAt a 8) (bits o.own 64 64) = true → exec (.wait t) s = .next (s.pass th o.size)) ∧
         (reached (s.numAt a 8) (bits o.own 64 64) = false →
           exec (.wait t) s = .next (s.block th (.word a target timeout))))) ∧
      (s.decideOp t rowCheckpoint checkpointWork = .go th cl o w → s.memOk →
        ∃ (y : Thread) (l : List Span) (v : State), checkpointRanges t o = .ok l ∧ exec (.checkpoint t) s = .next (v.pass y o.size) ∧
          y.ckpt = some (cl.addr, cl.opIndex, cl.offset, l) ∧ (th.ckpt = none → y.adds = 0 ∧ y.skip = 0) ∧
          v.mem = Memory.writeRuns s.mem (s.nearRuns (w.run s)) ∧ v.threads = s.threads ∧ v.sessions = s.sessions ∧
          ((⟨s, th, cl, o, 0⟩ : Ctx).listRef = none → v.mem = s.mem)) ∧
      (∀ c r, (c, r) ∈ [(Instr.signal t, rowSignal), (.atomicAdd t, rowAtomicAdd)] → s.dueOp t r = some (th, cl, .ok o) → 0 < th.skip →
        exec c s = .next (s.pass { th with skip := th.skip - 1 } o.size))

/-- When the decision is to run BARRIER: with something outstanding the thread first waits as for a fence; an arrival that is
not the last leaves its thread BLOCKED on the counter, the generation holding its participant count and one thread more,
memory unchanged; the last arrival ends the counter's generation, which returns to no arrivals and no count, and leaves none
of the arrived threads that were blocked on it waiting for it. A COUNTER that is allocated to no stream or job or to
another, one of another cluster, a count of 0 or above 128, or a count other than the generation's is refused with
BAD_PARAM. -/
def Obligations.BarrierReleasesItsParticipants : Prop :=
  ∀ (s : State) (t : ThreadId) (th : Thread) (cl : CurList) (o : Op) (w : Work), threadPresent s t = true →
      (s.decideOp t rowBarrier barrierWork = .go th cl o w →
        (th.out ≠ [] → exec (.barrier t) s = .next (s.block th .fence)) ∧
        (th.out = [] →
          (let c := barrierCounter o
           let before := match s.barrierAt t.die c with
             | some b => b.arrived
             | none => []
           (before.length + 1 ≠ barrierCount o → ∃ u : State, exec (.barrier t) s = .next u ∧ u.mem = s.mem ∧
              u.thread t = some { th with state := .blocked, waiting := some (.barrier c, s.gts) } ∧
              u.barrierAt t.die c = some ⟨t.die, c, th.binding, some (barrierCount o), before ++ [t]⟩) ∧
           (before.length + 1 = barrierCount o →
              (∀ x ∈ before, ∀ y, s.thread x = some y → y.state = .blocked ∧ ∃ g, y.waiting = some (.barrier c, g)) →
              ∃ u : State, exec (.barrier t) s = .next u ∧
                (∀ b, u.barrierAt t.die c = some b → b.participants = none ∧ b.arrived = []) ∧
                ∀ x ∈ before ++ [t], ∀ y, u.thread x = some y → ∀ g, y.waiting ≠ some (.barrier c, g))))) ∧
      (∀ x : Ctx, (barrierCounter x.op / 16 ≠ unitCluster x.th.id.unit ∨ barrierCount x.op = 0 ∨ 128 < barrierCount x.op ∨
          x.s.barrierAt x.th.id.die (barrierCounter x.op) = none ∨
          (∃ b, x.s.barrierAt x.th.id.die (barrierCounter x.op) = some b ∧
            (b.owner ≠ x.th.binding ∨ ∃ p, b.participants = some p ∧ p ≠ barrierCount x.op))) →
        barrierWork x = .error .badParam)

/-- For a thread BLOCKED on a word: WAIT_SATISFIED completes the WAIT when the word has reached the target and else changes
nothing; WAIT_TIMEOUT does the same when it has reached it, and else stops the thread with TIMEOUT once its nonzero TIMEOUT
in microseconds has passed, and changes nothing before. On a running part THREAD_WAIT_EXPIRY of a thread BLOCKED on BARRIER
or a pool for the operation limit stops it with TIMEOUT, an untimed wait or one within the limit changes nothing. A thread
that is not blocked changes nothing. -/
def Obligations.WaitsEnd : Prop :=
  ∀ (s : State) (t : ThreadId), threadPresent s t = true →
      (∀ th a target us since, s.waiter t = some (th, a, target, us, since) →
        (reached (s.numAt a 8) target = true → exec (.waitSatisfied t) s = .next (s.waitDone th) ∧
          exec (.waitTimeout t) s = .next (s.waitDone th)) ∧
        (reached (s.numAt a 8) target = false → exec (.waitSatisfied t) s = .next s ∧
          (0 < us → since + us * 1000 ≤ s.gts → ∃ u : State, exec (.waitTimeout t) s = .next u ∧ u.mem = s.mem ∧
            ∃ y, u.thread t = some y ∧ y.state = .stopped ∧ y.status = .timeout) ∧
          ((us = 0 ∨ s.gts < since + us * 1000) → exec (.waitTimeout t) s = .next s))) ∧
      (s.waiter t = none → exec (.waitSatisfied t) s = .next s ∧ exec (.waitTimeout t) s = .next s) ∧
      (∀ th w since, s.thread t = some th → th.state = .blocked → th.waiting = some (w, since) →
        ((s.gts < since + s.opLimit ∨ w = .hazard ∨ w = .engineFull ∨ w = .fence) → exec (.threadWaitExpiry t) s = .next s) ∧
        (s.phase = .running → since + s.opLimit ≤ s.gts → (w = .pool ∨ ∃ c, w = .barrier c) →
          ∃ u : State, exec (.threadWaitExpiry t) s = .next u ∧ u.mem = s.mem ∧
            ∃ y, u.thread t = some y ∧ y.state = .stopped ∧ y.status = .timeout)) ∧
      (∀ th, s.thread t = some th → th.state ≠ .blocked → exec (.threadWaitExpiry t) s = .next s)

/-- When the thread's next operation is a PREFETCH that was issued early without fault, the command passes it and forgets it,
writing nothing of its own; when a fault is held for it, its thread stops with that status and memory is unchanged. -/
def Obligations.PrefetchAtItsPosition : Prop :=
  ∀ (s : State) (t : ThreadId) (th : Thread) (cl : CurList) (o : Op) (e : Nat × Nat × Option Stop), threadPresent s t = true →
      s.dueOp t rowPrefetch = some (th, cl, .ok o) → th.early.find? (fun e => e.1 == cl.addr && e.2.1 == cl.opIndex) = some e →
      (e.2.2 = none → exec (.prefetch t) s = .next (s.pass { th with
        early := th.early.filter (fun e => !(e.1 == cl.addr && e.2.1 == cl.opIndex)) } o.size)) ∧
      (∀ x, e.2.2 = some x →
        ∃ u : State, exec (.prefetch t) s = .next u ∧ u.mem = s.mem ∧
          ∃ y, u.thread t = some y ∧ y.state = .stopped ∧ y.status = x.status ∧ y.queue = [])

/-- On a running part, for a bound context of a unit that takes lists: a list for a thread that already has four, or that is
STOPPED, changes nothing, and so does one for a stream's thread that is not the next of its tiles' lists; a list that is in
turn (any list for a job) is fetched, and, where it has no PREFETCH and no thread waits for a buffer: for a thread inside a
list whose next operation is of a listed opcode it joins the end of the queue, memory unchanged; an IDLE thread with nothing
queued and nothing outstanding, whose tile waits for no buffer, begins a well-framed list whose first opcode is listed: it
is READY at the list's first operation; one that breaks the table stops the thread with BAD_PARAM (or BAD_ADDRESS where it
lies in unpopulated memory). For a context the part does not have the command faults. -/
def Obligations.ListsQueueAndBegin : Prop :=
  (∀ (s : State) (t : ThreadId) (a : Nat) (th : Thread), threadPresent s t = true → s.thread t = some th → s.phase = .running →
        s.unitTakes t.die t.unit = true →
        ((4 ≤ th.lists.length ∨ th.state = .stopped) → exec (.listQueued t a) s = .next s) ∧
        (th.isJob = false → (∀ p k, (s.stream th.binding).bind (·.nextList t) ≠ some (p, k, a)) → exec (.listQueued t a) s = .next s) ∧
        (th.lists.length < 4 → th.state ≠ .stopped → s.noneWaits →
          (th.isJob = true ∨ ∃ p k, (s.stream th.binding).bind (·.nextList t) = some (p, k, a)) →
          (let f := s.pruneStores.fetch t a
           (∀ d ∈ f.descrs t a, f.opCodeAt t a (a + d.2) ≠ 0x3A) →
          (∀ cl, th.cur = some cl → cl.opIndex < cl.opCount → (rowOf (f.opCode t cl)).isSome = true →
            ∃ u : State, exec (.listQueued t a) s = .next u ∧ u.thread t = some { th with queue := th.queue ++ [a] } ∧ u.mem = s.mem ∧
              u.istore = f.istore ∧ u.dies = s.dies ∧ ∀ x, x ≠ t → u.thread x = s.thread x) ∧
          (th.cur = none → th.queue = [] → th.out = [] → s.listShut t a = false →
            (∀ cl, f.frameList th a = .ok cl → (th.isJob = true ∨ s.poolWaits t.die th.binding cl.picture cl.tile = false) →
              (rowOf (f.opCodeAt t a (a + 32))).isSome = true →
              ∃ u : State, exec (.listQueued t a) s = .next u ∧ u.mem = s.mem ∧ ∃ y, u.thread t = some y ∧ y.state = .ready ∧
                y.cur = some cl ∧ y.queue = [] ∧ y.ckpt = none) ∧
            (∀ st, f.frameList th a = .error st → ∃ u : State, exec (.listQueued t a) s = .next u ∧ u.mem = s.mem ∧
              ∃ y, u.thread t = some y ∧ y.state = .stopped ∧ y.status = st))))) ∧
    (∀ (s : State) (t : ThreadId) (a : Nat), threadPresent s t = false → exec (.listQueued t a) s = .fault .absentElement)

/-- On a running part: the chunk an engine took first among those it runs completes, its thread's latest completion is now, the
operation counts one chunk more and is done when it was the last (on a lane, when no chunk of it is left), and, where every
lane operation of the region has begun, memory is unchanged; the oldest operation of a thread on an engine, once done and
with no partner answer open, is outstanding no more, the rest keeping their order, and with operations of the list left, no
PREFETCH kept for later and no thread waiting for a buffer, memory is unchanged; a pool with a request waiting and no
release for 10 ms writes one record 0x0401, sets POOL_STALL and writes none again until a release, and otherwise nothing
changes. -/
def Obligations.EnginesCompleteChunks : Prop :=
  (∀ (s : State) (die place g : Nat) (e : Engine) (last : Bool) (id : ThreadId) (th : Thread) (o : Outst), die < s.dieCount →
        placePresent e place = true → s.phase = .running → s.oldestChunk die e place = some (id, g) → s.thread id = some th →
        th.out.find? (fun q => q.engine == e && !q.done && q.taken.isSome) = some o → o.ran = true →
        s.tagsOpen id o.descr = false → (e = .lane → s.lanesBegun die place) →
        ∃ u : State, exec (.chunkComplete die e place last) s = .next u ∧ u.mem = s.mem ∧ ∃ y, u.thread id = some y ∧
          y.lastDone = s.gts ∧ y.out.length = th.out.length ∧
          ∃ q ∈ y.out, q.opIndex = o.opIndex ∧ q.chunks = o.chunks + 1 ∧ q.done = if e = .lane then o.saves.isEmpty else last) ∧
    (∀ (s : State) (t : ThreadId) (e : Engine) (th : Thread) (o : Outst), threadPresent s t = true → s.phase = .running →
        s.thread t = some th → th.out.find? (·.engine == e) = some o → o.done = true → s.tagsOpen t o.descr = false →
        ∃ u : State, exec (.operationComplete t e) s = .next u ∧
          (∀ cl, th.cur = some cl → cl.opIndex < cl.opCount → (rowOf (s.opCode t cl)).isSome = true → th.state ≠ .stopped →
            th.late = [] → s.noneWaits →
            u.mem = s.mem ∧ ∃ y, u.thread t = some y ∧ y.out = th.out.eraseIdx (th.out.findIdx (·.engine == e)))) ∧
    (∀ (s : State) (die pool : Nat), die < s.dieCount → s.diesOk → pool < 2 → s.phase = .running →
        (let p := if pool = 0 then (s.die die).poolLp else (s.die die).poolDs
         ((p.waiting = [] ∨ p.stalled = true ∨ s.gts < p.releasedAt + 10000000) → exec (.poolStall die pool) s = .next s) ∧
         (p.waiting ≠ [] → p.stalled = false → p.releasedAt + 10000000 ≤ s.gts → ∃ u : State, exec (.poolStall die pool) s = .next u ∧
            u.mem = s.mem ∧ (u.die die).sticky &&& 0x80 = 0x80 ∧
            (if pool = 0 then (u.die die).poolLp else (u.die die).poolDs).stalled = true ∧ exec (.poolStall die pool) u = .next u)))

/-- For a connected queue pair of a port with traffic: a CE-marked packet has one CNP sent to the peer when 50 microseconds have
passed since the last one, counted in CNT, and does nothing before; a CNP received halves the rate at most once per 50
microseconds, down to 1 Gbit/s or, for class 0, to the admitted output rate, whichever is more; 55 microseconds without a
CNP raise it by 5 Gbit/s up to the line rate of 100 Gbit/s; an RNR NAK is noted, and the pictures at hand of its class-0
stream lose their bound. Every other queue pair and memory are unchanged. -/
def Obligations.CongestionControlOfQueuePairs : Prop :=
  ∀ (s : State) (q : QueuePair), s.qp q.qpn = some q → q.connected = true → s.portAlive q.port = true → s.diesOk → q.port < s.dieCount →
      (elapsed q.cnpSentAt 50000 s.gts = true → ∃ t : State, exec (.ceMarkedPacket q.qpn) s = .next t ∧
        t.out = s.out ++ [.frame q.port "CNP" q.peer []] ∧ t.qp q.qpn = some { q with cnpSentAt := some s.gts } ∧
        ((s.die q.port).cnt.length = 14 → (t.die q.port).cnt.getD 6 0 = (s.die q.port).cnt.getD 6 0 + 1) ∧ t.mem = s.mem ∧
        (∀ n, n ≠ q.qpn → t.qp n = s.qp n) ∧ ∀ d, d ≠ q.port → t.die d = s.die d) ∧
      (elapsed q.cnpSentAt 50000 s.gts = false → exec (.ceMarkedPacket q.qpn) s = .next s) ∧
      (elapsed q.cnpAt 50000 s.gts = true → s.rateFloor q ≤ q.rate → ∃ (t : State) (r : QueuePair), exec (.cnp q.qpn) s = .next t ∧
        t = { s with qps := t.qps } ∧ t.qp q.qpn = some r ∧ r.rate = max (s.rateFloor q) (q.rate / 2) ∧ r.cnpAt = some s.gts ∧
        r.rateAt = s.gts ∧ (q.ofStream = true → q.cls = 0 → s.qpRate q ≤ r.rate) ∧ 1000000000 ≤ r.rate ∧
        ∀ n, n ≠ q.qpn → t.qp n = s.qp n) ∧
      (elapsed q.cnpAt 50000 s.gts = false → exec (.cnp q.qpn) s = .next (s.setQp { q with rateAt := s.gts })) ∧
      (q.rateAt + 55000 ≤ s.gts → ∃ t : State, exec (.cnpRateIncrease q.qpn) s = .next t ∧ t = { s with qps := t.qps } ∧
        t.qp q.qpn = some { q with rate := min 100000000000 (q.rate + 5000000000), rateAt := s.gts } ∧
        ∀ n, n ≠ q.qpn → t.qp n = s.qp n) ∧
      (s.gts < q.rateAt + 55000 → exec (.cnpRateIncrease q.qpn) s = .next s) ∧
      (∃ t : State, exec (.rnrNak q.qpn) s = .next t ∧ t = { s with qps := t.qps, streams := t.streams } ∧
        t.qp q.qpn = some { q with rnrSince := some s.gts } ∧ (∀ n, n ≠ q.qpn → t.qp n = s.qp n) ∧
        (∀ n x, s.stream n = some x → t.stream n = some (if x.cls = 0 ∧ x.qpn = q.qpn then x.unbound else x)))

/-- A CM REQ for a queue pair of a port with traffic that is not connected, with its SERVICE_ID, path MTU 4,096 and, where it
has an alternate port, that port's GID as alternate path, connects it and is answered REP; any other REQ for it is answered
REJ and changes nothing else. Through a connected queue pair an RDMA WRITE under the RKEY of its staging area, inside it,
writes its bytes and no other; under another RKEY, past the area, or through a queue pair with no staging area it writes
nothing and is answered by a remote access error NAK; while D0 or the port's die is under recovery it writes nothing and is
answered RNR NAK, which is the model's choice (log 87). -/
def Obligations.StagingMemoryIsWrittenThroughItsQueuePair : Prop :=
  (∀ (s : State) (q : QueuePair) (serviceId mtu peer : Nat) (altGid : Option Nat), s.qp q.qpn = some q → s.portAlive q.port = true →
        ((serviceId = (Config.serviceId q.qpn).toNat ∧ mtu = 4096 ∧ q.connected = false ∧ ∀ a, q.alt = some a → altGid = some (s.gidOf a)) →
          ∃ t : State, exec (.cmReq q.qpn serviceId mtu altGid peer) s = .next t ∧ t.qp q.qpn = some { q with connected := true, peer := peer } ∧
            t.out = s.out ++ [.frame q.port "CM REP" peer []] ∧ t = { s with qps := t.qps, out := t.out } ∧
            ∀ n, n ≠ q.qpn → t.qp n = s.qp n) ∧
        (¬ (serviceId = (Config.serviceId q.qpn).toNat ∧ mtu = 4096 ∧ q.connected = false ∧ ∀ a, q.alt = some a → altGid = some (s.gidOf a)) →
          exec (.cmReq q.qpn serviceId mtu altGid peer) s = .next (s.emit (.frame q.port "CM REJ" peer [])))) ∧
    (∀ (s : State) (q : QueuePair) (addr rkey : Nat) (bytes : List Byte), s.qp q.qpn = some q → s.portAlive q.port = true →
        q.connected = true → s.memOk →
        ((s.dieRecovering 0 || s.dieRecovering q.port) = true →
          exec (.rdmaWrite q.qpn addr rkey bytes) s = .next (s.emit (.frame q.port "RNR NAK" q.peer []))) ∧
        (s.dieRecovering 0 = false → s.dieRecovering q.port = false →
        (∀ g, s.staging.find? (fun (g : Staging) => g.qpn == q.qpn) = some g →
          (rkey = g.rkey → g.base ≤ addr → addr + bytes.length ≤ g.base + g.length →
            ∃ t : State, exec (.rdmaWrite q.qpn addr rkey bytes) s = .next t ∧ t.bytesAt addr bytes.length = bytes ∧
              (∀ a, a < addr ∨ addr + bytes.length ≤ a → t.byteAt a = s.byteAt a) ∧ t.staging = s.staging ∧ t.qps = s.qps ∧
              t.sessions = s.sessions ∧ t.threads = s.threads) ∧
          (rkey ≠ g.rkey ∨ addr < g.base ∨ g.base + g.length < addr + bytes.length →
            exec (.rdmaWrite q.qpn addr rkey bytes) s = .next (s.emit (.frame q.port "NAK REMOTE ACCESS" q.peer [])))) ∧
        (s.staging.find? (fun (g : Staging) => g.qpn == q.qpn) = none →
          exec (.rdmaWrite q.qpn addr rkey bytes) s = .next (s.emit (.frame q.port "NAK REMOTE ACCESS" q.peer [])))))

/-- On a port with traffic: an ARP request for its IPv4 address, a neighbour solicitation of one of its IPv6 addresses and an
echo request to one of its addresses are answered, with the port's MAC address or the payload, and the sender's address and
MAC are kept; the same for another address changes nothing; a pause frame changes the paused priorities 2, 3, 4 and 6 it
names and no other; an unsupported frame is dropped, and but for another port's MAC counted. The MAC address of port n is
the base address with n added to its last octet. Memory is unchanged. A port the part does not have faults. -/
def Obligations.FramesOfTheNeighbourhood : Prop :=
  (∀ (s : State) (p mac ip target : Nat) (payload : List Byte) (pause : List (Option Bool)), p < s.dieCount → s.diesOk → s.portAlive p = true →
        (s.ipv4Of p = some target → ∃ t : State, exec (.arp p mac ip target) s = .next t ∧ (ip, mac) ∈ (t.die p).eth.neighbours ∧
          t.out = s.out ++ [.frame p "ARP REPLY" mac (beBytes 6 (macOf p) ++ beBytes 4 target)] ∧
          t = { s with dies := t.dies, out := t.out } ∧ ∀ d, d ≠ p → t.die d = s.die d) ∧
        (s.ipv4Of p ≠ some target → exec (.arp p mac ip target) s = .next s) ∧
        (target ∈ s.ipv6Of p → ∃ t : State, exec (.neighbourDiscovery p mac ip target) s = .next t ∧ (ip, mac) ∈ (t.die p).eth.neighbours ∧
          t.out = s.out ++ [.frame p "NEIGHBOUR ADVERTISEMENT" mac (beBytes 6 (macOf p) ++ beBytes 16 target)] ∧
          t = { s with dies := t.dies, out := t.out } ∧ ∀ d, d ≠ p → t.die d = s.die d) ∧
        (target ∉ s.ipv6Of p → exec (.neighbourDiscovery p mac ip target) s = .next s) ∧
        (∀ v6, (if v6 then target ∈ s.ipv6Of p else s.ipv4Of p = some target) → ∃ t : State,
          exec (.icmpEcho p v6 mac ip target payload) s = .next t ∧ t.out = s.out ++ [.frame p "ICMP ECHO REPLY" mac payload] ∧
          t = { s with dies := t.dies, out := t.out } ∧ ∀ d, d ≠ p → t.die d = s.die d) ∧
        (∃ t : State, exec (.pfcFrame p pause) s = .next t ∧ t = { s with dies := t.dies } ∧ (∀ d, d ≠ p → t.die d = s.die d) ∧
          ∀ k b, (s.die p).eth.paused[k]? = some b → (t.die p).eth.paused[k]? =
            some (if k ∈ [2, 3, 4, 6] then (pause.getD k none).getD b else b)) ∧
        (∀ why, ∃ t : State, exec (.unsupportedFrame p why) s = .next t ∧ t = { s with dies := t.dies } ∧ (∀ d, d ≠ p → t.die d = s.die d) ∧
          ∀ k, k < (s.die p).cnt.length → (t.die p).cnt.getD k 0 = (s.die p).cnt.getD k 0 +
            (if (why, k) ∈ [(FrameFault.oversize, 2), (.otherVid, 3), (.udpPort, 4), (.ipFragment, 0)] then 1 else 0))) ∧
    (∀ (s : State) (p mac ip target : Nat), s.dieCount ≤ p → exec (.arp p mac ip target) s = .fault .absentElement) ∧
    (∀ n, n < 8 → Config.baseMac.toNat % 256 ≤ 0xF7 → macOf n = Config.baseMac.toNat + n)

/-- On a port with traffic: a Sync of the configured domain replaces the port's latest Sync with its sequenceId and GTS, one of
another domain changes nothing; a Follow_Up of that Sync gives it its origin; a Delay_Req leaves when LOG_DELAY's interval
has passed, stamped with GTS and paired with the latest Sync; a Delay_Resp of its sequenceId and the domain within 1 s, for
a Sync with an origin, writes the four stamps as the next valid sample of the ring, makes it the head and raises the count.
GTS never changes on account of them. -/
def Obligations.PtpSamplesArePaired : Prop :=
  ∀ (s : State) (p : Nat), p < s.dieCount → s.diesOk → s.portAlive p = true →
      (∀ n, exec (.sync p (s.die p).eth.ptpDomain n) s = .next (s.onEth p fun e =>
        { e with lastSync := some { domain := (s.die p).eth.ptpDomain, seqId := n, arrival := s.gts } })) ∧
      (∀ dom n, dom ≠ (s.die p).eth.ptpDomain → exec (.sync p dom n) s = .next s) ∧
      (∀ (y : SyncRec) (o : PtpTime), (s.die p).eth.lastSync = some y → ∃ t : State, exec (.followUp p y.domain y.seqId o) s = .next t ∧
        t.gts = s.gts ∧ (t.die p).eth.lastSync = some { y with origin := some o } ∧ ∀ d, d ≠ p → t.die d = s.die d) ∧
      ((s.die p).eth.delayAt + (s.die p).eth.delayInterval ≤ s.gts → ∃ t : State, exec (.delayReq p) s = .next t ∧ t.gts = s.gts ∧
        t.out = s.out ++ [.frame p "DELAY_REQ" 0 (beBytes 2 (s.die p).eth.delaySeq.toNat)] ∧
        (t.die p).eth.delayReq = some { seqId := (s.die p).eth.delaySeq.toNat, departure := s.gts, sync := (s.die p).eth.lastSync } ∧
        ∀ d, d ≠ p → t.die d = s.die d) ∧
      (s.gts < (s.die p).eth.delayAt + (s.die p).eth.delayInterval → exec (.delayReq p) s = .next s) ∧
      (∀ (r : DelayRec) (y : SyncRec) (t1 t4 : PtpTime), (s.die p).eth.delayReq = some r → r.sync = some y → y.origin = some t1 →
        s.gts ≤ r.departure + 10 ^ 9 → (s.die p).eth.ring.length = 16 →
        ∃ (t : State) (m : PtpSample), exec (.delayResp p (s.die p).eth.ptpDomain r.seqId t4) s = .next t ∧ t.gts = s.gts ∧ t.mem = s.mem ∧
          (t.die p).eth.ring[(s.die p).eth.count.toNat % 16]? = some m ∧ m.valid = true ∧ m.t1 = t1 ∧
          m.t2 = BitVec.ofNat 64 y.arrival ∧ m.t3 = BitVec.ofNat 64 r.departure ∧ m.t4 = t4 ∧ m.seqId = BitVec.ofNat 16 y.seqId ∧
          (∀ k, k ≠ (s.die p).eth.count.toNat % 16 → (t.die p).eth.ring[k]? = (s.die p).eth.ring[k]?) ∧
          (t.die p).eth.count = (s.die p).eth.count + 1 ∧ (t.die p).eth.head = (s.die p).eth.count.toNat % 16 ∧
          (t.die p).eth.delayReq = none ∧ ∀ d, d ≠ p → t.die d = s.die d) ∧
      (∀ (r : DelayRec) (dom n : Nat) (t4 : PtpTime), (s.die p).eth.delayReq = some r →
        (r.seqId ≠ n ∨ dom ≠ (s.die p).eth.ptpDomain ∨ r.departure + 10 ^ 9 < s.gts) → exec (.delayResp p dom n t4) s = .next s)

/-- On a running part: a port that was up goes down with sticky ETH_DOWN, event 0x0801 (ARG bit 0 clear) where the queue has
room, and every queue pair bound to it with an alternate path is bound to that path, while queue pairs of other ports stay;
a port that was down and is not quiesced comes up with event 0x0801 (ARG bit 0 set). When no port of a network has been up
for 2 s (and no thread waits for a pool) every stream of that network that had not stopped is stopped with TIMEOUT, and a
stream of the other network is as before. The end of a SAVE writes the record to flash on one of two alternating places, and
ends the busy state unless another SAVE came. Memory and sessions are unchanged. -/
def Obligations.EthernetPortsGoDownAndUp : Prop :=
  (∀ (s : State) (p : Nat), p < s.dieCount → s.diesOk → s.phase = .running →
        ((s.die p).eth.up = true → ∃ t : State, exec (.ethPortDown p) s = .next t ∧ (t.die p).eth.up = false ∧ (t.die p).eth.downAt = some s.gts ∧
          (t.die p).sticky &&& 0x100 = 0x100 ∧ t.mem = s.mem ∧ t.sessions = s.sessions ∧
          ((s.die p).events.length < 4096 → (s.die p).discarded = 0 →
            ∃ e ∈ (t.die p).events, e.code = 0x0801 ∧ e.arg.toNat = p * 2 ^ 24 ∧ e.gts = BitVec.ofNat 64 s.gts) ∧
          t.qps.length = s.qps.length ∧ (∀ (i : Nat) (q : QueuePair), s.qps[i]? = some q → ∃ r, t.qps[i]? = some r ∧ r.qpn = q.qpn ∧
            r.connected = q.connected ∧ (q.port ≠ p → r.port = q.port) ∧ (∀ a, q.port = p → q.alt = some a → r.port = a ∧ r.alt ≠ some a) ∧
            (q.port = p → q.alt = none → r = q)) ∧
          ∀ d, d ≠ p → t.die d = s.die d) ∧
        ((s.die p).eth.up = false → exec (.ethPortDown p) s = .next s) ∧
        ((s.die p).eth.up = false → s.portQuiesced p = false → ∃ t : State, exec (.ethPortUp p) s = .next t ∧ (t.die p).eth.up = true ∧
          ((s.die p).events.length < 4096 → (s.die p).discarded = 0 →
            ∃ e ∈ (t.die p).events, e.code = 0x0801 ∧ e.arg.toNat = p * 2 ^ 24 + 1 ∧ e.gts = BitVec.ofNat 64 s.gts) ∧
          t.mem = s.mem ∧ t.qps = s.qps ∧ t.sessions = s.sessions ∧ ∀ d, d ≠ p → t.die d = s.die d) ∧
        ((s.die p).eth.saveBusy = true → ∃ t : State, exec (.ethCfgSaveComplete p) s = .next t ∧ t.mem = s.mem ∧
          ((s.die p).eth.saveAgain = false → (t.die p).eth.saveBusy = false) ∧ (t.die p).eth.current = (s.die p).eth.current ∧
          ∀ d, d ≠ p → t.die d = s.die d)) ∧
    (∀ (s : State) (net : Nat), s.phase = .running → s.packageRecovering = false → net < 2 → s.noneWaits → s.networkDead net = true →
        ∃ t : State, exec (.networkDownTimeout net) s = .next t ∧ t.mem = s.mem ∧
          (∀ n x, s.stream n = some x → x.params.network = net → x.state ≠ .stopped →
            ∃ y, t.stream n = some y ∧ y.state = .stopped ∧ y.status = .timeout) ∧
          ∀ n, (∀ x ∈ s.streams, x.number = n → x.params.network ≠ net) → t.stream n = s.stream n)

/-- A flit is bad when its CRC-24 fails or its FTYPE is 3. On a link that is up: a bad flit is answered by RETRY_REQ naming the
number expected, counted, and DATA flits are discarded until a RETRY_MARK; without a RETRY_MARK within 2 microseconds the
same RETRY_REQ is sent again; a RETRY_REQ is answered by RETRY_MARK and the flits kept from the named one on, and the eighth
in a row for one flit retrains the link, its credits returning to 512; with nothing waiting an IDLE flit's ACK drops the
flits kept up to the one named and its CRD returns credits in eights. Sending never keeps more than 1,024 flits and never
spends a credit that is not there. LANE_MAP switches at the 64th DATA flit after it to pin pair 8, leaving the other lanes. -/
def Obligations.FlitsAreRetried : Prop :=
  (∀ f : List Byte, flitBad f = false ↔ f.length = 256 ∧ crc24 (f.take 253) = leAt f 253 3 ∧ bits (leAt f 0 3) 22 2 ≠ 3) ∧
    (∀ (s : State) (p : Nat), p < s.dieCount → s.diesOk → s.phase = .running → (s.die p).plk.up = true →
        (∀ f, flitBad f = true → ∃ t : State, exec (.badFlit p f) s = .next t ∧ (t.die p).plk.discarding = true ∧
          (t.die p).plk.retryOpen = some ((s.die p).plk.rxNext, s.gts) ∧ t.out = s.out ++ [.flit p "RETRY_REQ" (s.die p).plk.rxNext] ∧
          ((s.die p).cnt.length = 14 → (t.die p).cnt.getD 7 0 = (s.die p).cnt.getD 7 0 + 1) ∧
          t = { s with dies := t.dies, out := t.out } ∧ ∀ d, d ≠ p → t.die d = s.die d) ∧
        (∀ f, flitBad f = false → exec (.badFlit p f) s = .next s) ∧
        (∀ n at_, (s.die p).plk.retryOpen = some (n, at_) →
          (at_ + 2000 ≤ s.gts → ∃ t : State, exec (.retryReqResend p) s = .next t ∧ t.out = s.out ++ [.flit p "RETRY_REQ" n] ∧
            (t.die p).plk.retryOpen = some (n, s.gts) ∧ ∀ d, d ≠ p → t.die d = s.die d) ∧
          (s.gts < at_ + 2000 → exec (.retryReqResend p) s = .next s)) ∧
        (∃ t : State, exec (.retryMark p) s = .next t ∧ (t.die p).plk.discarding = false ∧ (t.die p).plk.retryOpen = none ∧
          t = { s with dies := t.dies } ∧ ∀ d, d ≠ p → t.die d = s.die d) ∧
        (∀ n, (∀ k, (s.die p).plk.retrySeen = some (n, k) → k < 7) → ∃ t : State, exec (.retryReq p n) s = .next t ∧
          (∃ k, (t.die p).plk.retrySeen = some (n, k)) ∧ (t.die p).plk.txBuf = (s.die p).plk.txBuf ∧
          t.out = s.out ++ .flit p "RETRY_MARK" n :: ((s.die p).plk.txBuf.dropWhile (·.number != n)).flatMap (flitOut p) ∧
          t = { s with dies := t.dies, out := t.out } ∧ ∀ d, d ≠ p → t.die d = s.die d) ∧
        (∀ n k, (s.die p).plk.retrySeen = some (n, k) → 7 ≤ k → ∃ t : State, exec (.retryReq p n) s = .next t ∧
          (t.die p).plk.training = true ∧ (t.die p).plk.credits = [512, 512, 512, 512] ∧ t.out = s.out ∧ t.mem = s.mem ∧
          ((s.die p).cnt.length = 14 → (t.die p).cnt.getD 8 0 = (s.die p).cnt.getD 8 0 + 1)) ∧
        (∀ ack vc crd, vc < 4 → (s.die p).plk.txWait = [] → (s.die p).plk.credits.length = 4 → ∃ t : State,
          exec (.idleFlit p ack vc crd) s = .next t ∧ t.out = s.out ∧ t.mem = s.mem ∧
          (t.die p).plk.credits.getD vc 0 =
            (s.die p).plk.credits.getD vc 0 + 8 * ((crd + 16 - (s.die p).plk.crdSeen.getD vc 0) % 16) ∧
          (∀ v, v ≠ vc → (t.die p).plk.credits.getD v 0 = (s.die p).plk.credits.getD v 0) ∧
          (∀ (before after : List TxFlit) (f : TxFlit), (s.die p).plk.txBuf = before ++ f :: after → (∀ g ∈ before, g.number ≠ ack) →
            f.number = ack → (t.die p).plk.txBuf = after) ∧
          ((∀ g ∈ (s.die p).plk.txBuf, g.number ≠ ack) → (t.die p).plk.txBuf = (s.die p).plk.txBuf)) ∧
        (∀ lane, lane < 8 → (s.die p).plk.spareInUse = false → exec (.laneMap p lane) s =
          .next (s.onPlk p fun l => { l with laneSwitch := some (lane, 64) }))) ∧
    (∀ (k : Nat) (l : Plk), l.txBuf.length ≤ 1024 → l.credits.length = 4 →
        (l.pump k []).1.txBuf.length ≤ 1024 ∧ (l.pump k []).1.credits.sum + (l.pump k []).2.length = l.credits.sum ∧
        (l.pump k []).1.txBuf = l.txBuf ++ (l.pump k []).2) ∧
    (∀ (l : Plk) (lane left data vc : Nat), l.laneSwitch = some (lane, left) → lane < 8 →
        (flitsOf data < left → (l.took data vc).laneSwitch = some (lane, left - flitsOf data) ∧ (l.took data vc).laneMap = l.laneMap) ∧
        (left ≤ flitsOf data → (l.took data vc).laneSwitch = none ∧ (l.took data vc).spareInUse = true ∧
          ∀ k, k < 8 → bits (l.took data vc).laneMap.toNat (4 * k) 4 = if k = lane then 8 else bits l.laneMap.toNat (4 * k) 4))

/-- On a link that is up and discards nothing: a partner's RD_REQ of 1 to 4,096 bytes that may be served is answered RD_RESP
with those bytes; a WR of 1 to 4,096 bytes writes them and no other byte and is answered WR_ACK; a request that may not be
served is answered ERR with the reason and changes no byte. A request on a port with no table entry, or of an offset that is
unpopulated, is refused BAD_ADDRESS, one of a die under recovery FENCED. An answer of data for a read whose operation waits
for more is kept; a WR_ACK to an operation with nothing else outstanding takes its requests away; an ERR, or 10 ms without
an answer on a link that is down, stops the waiting thread with that status, TIMEOUT for the latter. -/
def Obligations.PartnersReadAndWrite : Prop :=
  (∀ (s : State) (p : PartnerPacket), p.port < s.dieCount → s.diesOk → s.phase = .running → (s.die p.port).plk.up = true → s.memOk →
        (s.die p.port).plk.discarding = false →
        (1 ≤ p.length → p.length ≤ 4096 → s.partnerRefusal p = none → exec (.rdReq p) s =
          .next ((s.onPlk p.port fun l => l.took p.data.length (p.vc % 4)).sendPacket { p with
            status := .ok, data := s.bytesAt p.addr p.length } 2)) ∧
        (∀ st, 1 ≤ p.length → p.length ≤ 4096 → s.partnerRefusal p = some st → exec (.rdReq p) s =
          .next ((s.onPlk p.port fun l => l.took p.data.length (p.vc % 4)).sendPacket { p with status := st, length := 0, data := [] } 5)) ∧
        (1 ≤ p.data.length → p.data.length ≤ 4096 → p.length = p.data.length →
          (s.partnerRefusal p = none → ∃ t u : State, exec (.wr p) s = .next t ∧
            t = u.sendPacket { p with status := .ok, length := 0, data := [] } 4 ∧ t.bytesAt p.addr p.data.length = p.data ∧
            (∀ a, a < p.addr ∨ p.addr + p.data.length ≤ a → t.byteAt a = s.byteAt a) ∧ t.threads = s.threads ∧ t.sessions = s.sessions) ∧
          (∀ st, s.partnerRefusal p = some st → ∃ t u : State, exec (.wr p) s = .next t ∧
            t = u.sendPacket { p with status := st, length := 0, data := [] } 5 ∧ t.mem = s.mem)) ∧
        ((s.routing.any fun r => r.2.1 == p.port) = false → s.partnerRefusal p = some .badAddress) ∧
        ((s.routing.any fun r => r.2.1 == p.port) = true → (s.die p.port).plk.twin = false →
          (locate s.dieCount p.addr = .none_ → s.partnerRefusal p = some .badAddress) ∧
          ∀ d off, locate s.dieCount p.addr = .lpddr d off → s.dieRecovering d = true → s.partnerRefusal p = some .fenced) ∧
        (∀ g : LinkTag, (s.die p.port).plk.openTag p.tag = some g →
          (g.isWrite = false → p.data.length = g.length →
            (((s.onPlk p.port fun l => l.took p.data.length (p.vc % 4)).answerTag p.port p.tag p.data).tagsOpen g.thread g.descr = true →
              exec (.rdResp p) s =
                .next ((s.onPlk p.port fun l => l.took p.data.length (p.vc % 4)).answerTag p.port p.tag p.data)) ∧
            ∃ t : State, exec (.rdResp p) s = .next t) ∧
          (g.isWrite = true →
            (((s.onPlk p.port fun l => l.took p.data.length (p.vc % 4)).answerTag p.port p.tag []).tagsOpen g.thread g.descr = false →
              ∃ t : State, exec (.wrAck p) s = .next t ∧ t.mem = s.mem ∧ t.threads = s.threads ∧
                t.tagsOpen g.thread g.descr = false)) ∧
          (∀ th o, s.thread g.thread = some th → th.out.find? (fun (q : Outst) => q.descr == g.descr) = some o → o.early = false →
            ∃ (t : State) (y : Thread), exec (.err p) s = .next t ∧ t.thread g.thread = some y ∧ y.state = .stopped ∧
              y.status = p.status ∧ y.queue = [] ∧ t.mem = s.mem))) ∧
    (∀ (s : State) (port tag : Nat) (g : LinkTag) (th : Thread) (o : Outst), port < s.dieCount → s.phase = .running →
        (s.die port).plk.up = false → (s.die port).plk.openTag tag = some g → s.thread g.thread = some th →
        th.out.find? (fun (q : Outst) => q.descr == g.descr) = some o → o.early = false →
        (g.issuedAt + 10000000 ≤ s.gts → ∃ (t : State) (y : Thread), exec (.partnerAccessTimeout port tag) s = .next t ∧
          t.thread g.thread = some y ∧ y.state = .stopped ∧ y.status = .timeout ∧ y.queue = [] ∧ t.mem = s.mem) ∧
        (s.gts < g.issuedAt + 10000000 → exec (.partnerAccessTimeout port tag) s = .next s))

/-- An accepted PARTNER_CONFIG with well-formed parameters while no other configuration is pending: with COUNT 0 the table
empties; naming one port that is down it is PENDING, the table stands and the port trains against its PEER with a fresh
nonce. An IDENT with the configured digest and a signature that verifies is taken, any other ends the training and the
request with BAD_PARAM, DETAIL 1, at that PEER. When training succeeds with a taken IDENT the link is up with 512 credits on
each VC and the table switches whole, answered OK. A retrain that fails for the third time takes the port down with sticky
PLK_DOWN; before that it retrains again. -/
def Obligations.LinksTrainAndTablesSwitch : Prop :=
  (∀ (s : State) (d : Datagram) (x : Session), Accepted s d 0x00A0 true none none x → partnerFault s d.params = none →
        s.partnerPending = none → s.twin.pendingReq = none → s.twin.on = false →
        (beAt d.params 0 1 = 0 → ∃ t : State, exec (.partnerConfig d) s = .next t ∧ t.routing = [] ∧ t.dies = s.dies ∧ t.mem = s.mem) ∧
        (∀ partner port peer, partnerTable d.params = [(partner, port, peer)] → s.diesOk → (s.die port).plk.up = false →
          ∃ u : State, exec (.partnerConfig d) s = .next (u.answer d 0x00A0 .wait) ∧ u.routing = s.routing ∧ u.mem = s.mem ∧
            u.partnerPending = some { req := dgReq d, table := [(partner, port, peer)], results := [] } ∧
            (u.die port).plk.training = true ∧ (u.die port).plk.configured = some peer ∧
            (u.die port).plk.nonce = BitVec.ofNat 256 (Config.freeValue s.freeCtr))) ∧
    (∀ (s : State) (port partner : Nat) (peer : BitVec 256) (r : Req), port < s.dieCount → s.diesOk → s.phase = .running →
        s.twin.pendingReq = none → (s.die port).plk.training = true →
        s.partnerPending = some { req := r, table := [(partner, port, peer)], results := [] } →
        (∀ key digest nonce sig : List Byte, (s.die port).plk.identOk = false → (s.die port).plk.configured = some peer →
          ((shake256 key 32 == digest && beNat digest == peer.toNat &&
              ed448Verify key (Config.identMessage nonce (beBytes 32 (s.die port).plk.nonce.toNat)) sig Config.identContext) = true →
            ∃ t : State, exec (.ident port key digest nonce sig) s = .next t ∧ (t.die port).plk.identOk = true ∧
              (t.die port).plk.peer = peer ∧ t.routing = s.routing ∧ t.mem = s.mem) ∧
          ((shake256 key 32 == digest && beNat digest == peer.toNat &&
              ed448Verify key (Config.identMessage nonce (beBytes 32 (s.die port).plk.nonce.toNat)) sig Config.identContext) = false →
            ∃ t : State, exec (.ident port key digest nonce sig) s = .next t ∧ (t.die port).plk.training = false ∧
              t.routing = s.routing ∧ t.partnerPending = none ∧ t.mem = s.mem ∧
              finalReply s t r .badParam (beBytes 4 8 ++ beBytes 4 1))) ∧
        ((s.die port).plk.identOk = true → ∃ t : State, exec (.linkTrained port true) s = .next t ∧ (t.die port).plk.up = true ∧
          (t.die port).plk.training = false ∧ t.routing = [(partner, port, peer)] ∧ t.partnerPending = none ∧ t.mem = s.mem ∧
          ((s.die port).plk.up = false → (t.die port).plk.credits = [512, 512, 512, 512] ∧ (t.die port).plk.txNext = 0 ∧
            (t.die port).plk.rxNext = 0) ∧ finalReply s t r .ok [])) ∧
    (∀ (s : State) (port : Nat), port < s.dieCount → s.diesOk → s.phase = .running → (s.die port).plk.up = true →
        (s.die port).plk.training = true →
        (2 ≤ (s.die port).plk.retrainFails → ∃ t : State, exec (.linkTrained port false) s = .next t ∧ (t.die port).plk.up = false ∧
          (t.die port).plk.lanes = 0 ∧ (t.die port).sticky &&& 0x200 = 0x200 ∧ t.mem = s.mem ∧ t.routing = s.routing) ∧
        ((s.die port).plk.retrainFails < 2 → ∃ t : State, exec (.linkTrained port false) s = .next t ∧ (t.die port).plk.up = true ∧
          (t.die port).plk.training = true ∧ (t.die port).plk.retrainFails = (s.die port).plk.retrainFails + 1 ∧
          (t.die port).plk.credits = [512, 512, 512, 512] ∧ t.routing = s.routing ∧ t.mem = s.mem))

/-- On a ZLK-208: an accepted TWIN_CONFIG with ENABLE 1 and well-formed parameters, nothing pending, twin mode off and P0 and P1
not up against another peer is PENDING with this part's role, the peer and the time noted; the peer's TWIN message on P0 or
P1 then completes it, OK with twin mode on and both ports carrying twin traffic when the roles differ and both links are up,
BAD_PARAM at ROLE when they are equal; after 10 s without it the answer is TIMEOUT. ENABLE 0 ends twin mode, and is answered
RESOURCE_BUSY while an archive stream is open. Memory is unchanged. -/
def Obligations.TwinModeComesAndGoes : Prop :=
  (∀ (s : State) (d : Datagram) (x : Session), Accepted s d 0x00A1 true none none x → s.part = .zlk208 → d.params.length = 36 →
        beAt d.params 1 1 ≤ 1 → beAt d.params 2 2 = 0 → s.partnerPending = none → s.twin.pendingReq = none →
        (beAt d.params 0 1 = 1 → s.twin.on = false →
          (∀ p, p < 2 → (s.die p).plk.up = true → s.upAgainst p (BitVec.ofNat 256 (beAt d.params 4 32)) = true) →
          ∃ u : State, exec (.twinConfigEnable d) s = .next (u.answer d 0x00A1 .wait) ∧ u.mem = s.mem ∧ u.routing = s.routing ∧
            u.twin = { on := false, role := beAt d.params 1 1, peer := BitVec.ofNat 256 (beAt d.params 4 32)
                       pendingReq := some (dgReq d), since := s.gts }) ∧
        (beAt d.params 0 1 = 0 →
          (s.archiveOpen = true → exec (.twinConfigDisable d) s = .next ((s.heard x).answer d 0x00A1 (.fail .resourceBusy))) ∧
          (s.archiveOpen = false → ∃ u : State, exec (.twinConfigDisable d) s = .next (u.answer d 0x00A1 (.good [])) ∧ u.twin.on = false ∧
            u.twin.pendingReq = none ∧ u.mem = s.mem ∧ ∀ p ∈ u.dies, p.plk.twin = false))) ∧
    (∀ (s : State) (r : Req) (port role : Nat), s.phase = .running → s.diesOk → s.twin.pendingReq = some r → s.twin.roleOk = false →
        port < 2 → port < s.dieCount → (s.die port).plk.up = true → (s.die port).plk.discarding = false →
        (role = s.twin.role → ∃ t : State, exec (.twin port role) s = .next t ∧ t.twin.pendingReq = none ∧ t.twin.on = s.twin.on ∧
          finalReply s t r .badParam (beBytes 4 1 ++ beBytes 4 0) ∧ t.mem = s.mem) ∧
        (role ≠ s.twin.role → (s.die 0).plk.up = true → (s.die 1).plk.up = true → ∃ t : State, exec (.twin port role) s = .next t ∧
          t.twin.on = true ∧ t.twin.pendingReq = none ∧ (t.die 0).plk.twin = true ∧ (t.die 1).plk.twin = true ∧
          finalReply s t r .ok [] ∧ t.mem = s.mem)) ∧
    (∀ (s : State) (r : Req), s.phase = .running → s.twin.pendingReq = some r →
        (s.twin.since + 10 * 10 ^ 9 ≤ s.gts → ∃ t : State, exec .twinEnableTimeout s = .next t ∧ t.twin.pendingReq = none ∧
          finalReply s t r .timeout (beBytes 4 0xFFFFFFFF ++ beBytes 4 0) ∧ t.dies = s.dies ∧ t.mem = s.mem) ∧
        (s.gts < s.twin.since + 10 * 10 ^ 9 → exec .twinEnableTimeout s = .next s))

/-- In twin mode, for an archive stream that is not stopped, both CONFIG digests known and equal, holding one picture: the
peer's DIGEST of that picture, when equal, lets the primary emit its units in canonical order and the secondary emit
nothing; when it differs the stream stops with TWIN_DIVERGE, sticky TWIN_DIVERGE is set and no byte of the picture leaves. A
first CONFIG that differs from this part's own stops the stream the same way. Thirty seconds after this part's own digest
without the peer's, the stream stops with TIMEOUT. -/
def Obligations.TwinDigestsAreCompared : Prop :=
  ∀ (s : State) (x : Stream) (port pair : Nat), port < s.dieCount → s.diesOk → s.phase = .running → s.packageRecovering = false → s.noneWaits →
      s.twin.on = true → (s.die port).plk.twin = true → (s.die port).plk.up = true → (s.die port).plk.discarding = false →
      1 ≤ pair → pair ≤ 255 → s.streams.find? (fun (y : Stream) => y.params.archive == pair && y.state != .stopped) = some x →
      s.stream x.number = some x → x.closing = [] →
      (∀ c t own at_ us dg, x.twin.ownConfig = some c → x.twin.peerConfig = some c → x.twin.own = [(t, own, at_)] → x.twin.peer = [] →
        x.twin.held = [(t, us)] →
        (dg = own → s.twin.role = 0 → ∃ v : State, exec (.digest port pair t dg) s = .next v ∧
          v.out = s.out ++ us.map (fun u => .record x.number (zbsRecord u)) ∧ v.mem = s.mem ∧
          ∃ y, v.stream x.number = some y ∧ y.state = x.state ∧ y.twin.held = []) ∧
        (dg = own → s.twin.role ≠ 0 → ∃ v : State, exec (.digest port pair t dg) s = .next v ∧ v.out = s.out ∧ v.mem = s.mem ∧
          ∃ y, v.stream x.number = some y ∧ y.state = x.state ∧ y.twin.held = []) ∧
        (dg ≠ own → ∃ v : State, exec (.digest port pair t dg) s = .next v ∧ v.out = s.out ∧ v.mem = s.mem ∧
          (v.die 0).sticky &&& 0x40 = 0x40 ∧ ∃ y, v.stream x.number = some y ∧ y.state = .stopped ∧ y.status = .twinDiverge)) ∧
      (∀ c dg, x.twin.ownConfig = some c → x.twin.peerConfig = none → dg ≠ c → ∃ v : State,
        exec (.config port pair dg) s = .next v ∧ v.out = s.out ∧ v.mem = s.mem ∧ (v.die 0).sticky &&& 0x40 = 0x40 ∧
          ∃ y, v.stream x.number = some y ∧ y.state = .stopped ∧ y.status = .twinDiverge) ∧
      (∀ o, x.twin.own.head? = some o → x.twin.peer = [] →
        (o.2.2 + 30 * 10 ^ 9 ≤ s.gts → ∃ v : State, exec (.twinDigestTimeout x.number) s = .next v ∧ v.out = s.out ∧ v.mem = s.mem ∧
          ∃ y, v.stream x.number = some y ∧ y.state = .stopped ∧ y.status = .timeout) ∧
        (s.gts < o.2.2 + 30 * 10 ^ 9 → exec (.twinDigestTimeout x.number) s = .next s))

/-- An accepted TIME_SYNC READ answers GTS and LAST_PPS and changes nothing. ALIGN with no reference part is BAD_PARAM, with its
link up it is PENDING and begins sixteen exchanges. Fifteen exchanges are kept and answered by another message; at the
sixteenth the offset of the exchange with the smallest round trip is taken: a part behind steps GTS forward by it at one
tick, a part ahead is slewed, the part is aligned and the request is answered OK. An aligned part slews anew every
millisecond. A rising edge of PPS_IN latches GTS out of reset. EVT_OUT as PPS rises when GTS is a multiple of a second.
Memory is unchanged. The model's choice (log 9): with no command waiting, a step of a counting part that is not slewing adds
1 to GTS modulo 2^64 (GTS is a 64-bit count of 1 ns ticks) and changes nothing else but the place in the slewing cycle;
while slewing forward or back, 15 steps of every 16 do the same and the sixteenth adds 2 or 0; in reset or with the clocks
stopped nothing changes. -/
def Obligations.TimeIsReadAndAligned : Prop :=
  (∀ (s : State) (d : Datagram) (x : Session), d.params.length = 4 → beAt d.params 1 3 = 0 →
        (beAt d.params 0 1 = 0 → Accepted s d 0x00B0 false none none x →
          exec (.timeSyncRead d) s = .next ((s.heard x).answer d 0x00B0 (.good (beBytes 8 s.gts ++ beBytes 8 s.gtsPps)))) ∧
        (beAt d.params 0 1 = 1 → Accepted s d 0x00B0 true none none x →
          (s.reference = none → exec (.timeSyncAlign d) s = .next ((s.heard x).answer d 0x00B0 (.fail .badParam))) ∧
          (∀ port partner, s.reference = some (port, partner) → s.align.req = none → (s.die port).plk.up = true →
            ∃ u : State, exec (.timeSyncAlign d) s = .next (u.answer d 0x00B0 (.wait (beBytes 8 s.gts ++ beBytes 8 s.gtsPps))) ∧
              u.align.req = some (dgReq d) ∧ u.align.port = port ∧ u.align.exchanges = [] ∧ u.gts = s.gts ∧ u.mem = s.mem))) ∧
    (∀ (s : State) (port : Nat) (x : AlignStamps) (r : Req), port < s.dieCount → s.diesOk → s.phase = .running →
        (s.die port).plk.up = true → (s.die port).plk.discarding = false → s.align.req = some r → s.align.port = port →
        (s.align.exchanges.length < 15 → ∃ t : State, exec (.align port x) s = .next t ∧ t.gts = s.gts ∧ t.slew = s.slew ∧
          t.align = { s.align with exchanges := s.align.exchanges ++ [x] } ∧ t.mem = s.mem) ∧
        (s.align.exchanges.length = 15 → ∃ (t : State) (e : AlignStamps), exec (.align port x) s = .next t ∧
          e ∈ s.align.exchanges ++ [x] ∧ (∀ f ∈ s.align.exchanges ++ [x], alignTrip e ≤ alignTrip f) ∧
          t.align.req = none ∧ t.align.aligned = true ∧ t.align.lost = false ∧ t.align.offset = offsetField (alignOffset e) ∧
          (0 ≤ alignOffset e → t.gts = (s.gts + (alignOffset e).toNat) % 2 ^ 64 ∧ t.slew = 0) ∧
          (alignOffset e < 0 → t.gts = s.gts ∧ t.slew = alignOffset e) ∧ t.mem = s.mem)) ∧
    (∀ (s : State) (x : AlignStamps), s.phase = .running → s.align.aligned = true → s.align.lost = false →
        (s.die s.align.port).plk.up = true →
        (s.align.trackAt + 1000000 ≤ s.gts → exec (.timeSyncTrack x) s = .next { s with
          slew := alignOffset x, align := { s.align with offset := offsetField (alignOffset x), trackAt := s.gts } }) ∧
        (s.gts < s.align.trackAt + 1000000 → exec (.timeSyncTrack x) s = .next s)) ∧
    (∀ s : State, (s.phase ≠ .inReset → s.phase ≠ .tripped → exec .ppsIn s = .next { s with gtsPps := s.gts }) ∧
        (s.phase = .inReset → exec .ppsIn s = .next s) ∧
        (s.phase = .running → s.hulEvtOut.toNat % 4 = 2 → s.gts % 10 ^ 9 = 0 →
          exec .ppsOutput s = .next (s.emit (.pin "EVT_OUT" true)))) ∧
  (∀ s : State, s.pending = [] → s.counts = true → s.slew = 0 →
      step s = .next { s with gts := (s.gts + 1) % 2 ^ 64, slewPhase := (s.slewPhase + 1) % 16 }) ∧
    (∀ s : State, s.pending = [] → s.counts = true → s.slewPhase % 16 ≠ 15 →
      step s = .next { s with gts := (s.gts + 1) % 2 ^ 64, slewPhase := (s.slewPhase + 1) % 16 }) ∧
    (∀ s : State, s.pending = [] → s.counts = true → s.slewPhase % 16 = 15 → 0 < s.slew →
      step s = .next { s with gts := (s.gts + 2) % 2 ^ 64, slewPhase := 0, slew := s.slew - 1 }) ∧
    (∀ s : State, s.pending = [] → s.counts = true → s.slewPhase % 16 = 15 → s.slew < 0 →
      step s = .next { s with gts := s.gts % 2 ^ 64, slewPhase := 0, slew := s.slew + 1 }) ∧
    (∀ s : State, s.pending = [] → s.counts = false → step s = .next s)

/-- On a running part an evaluation of a die records the power, the sensors and the hottest valid temperature; no region changes
by more than one step, none changes within 10 microseconds of its last change, none rises above its CAP, and while the die
is over its power limit or at 100 C or more none rises; THROTTLE, TJ100 and TJ105 become sticky when their status bit sets;
at 105 C or more classes 1 to 3 are gated at once. The gate timer adds class 3, then 2, then 1 after each millisecond at the
floor and takes class 1 off first after 10 quiet milliseconds. A measured VDD_CORE raises a waiting region that it supports
and ends a wait of 10 ms. A sensor at 115 C trips the part, below it nothing happens. Memory and other dies are unchanged. -/
def Obligations.PowerControllerKeepsItsLimits : Prop :=
  (∀ (s : State) (d power10 power1ms : Nat) (sensors : List Word), s.phase = .running → d < s.dieCount → s.diesOk →
        ∃ t : State, exec (.powerControllerTick d power10 power1ms sensors) s = .next t ∧ t.mem = s.mem ∧ t.gts = s.gts ∧
          (∀ e, e ≠ d → e ≠ 0 → t.die e = s.die e) ∧ (t.die d).sensors = sensors ∧ (t.die d).pwrPower = BitVec.ofNat 16 power1ms ∧
          (∀ k temp, hottest sensors = some (k, temp) → (t.die d).pwrTj = BitVec.ofInt 16 temp) ∧
          (∀ (i : Nat) (r : Region), (s.die d).regions[i]? = some r → ∃ q, (t.die d).regions[i]? = some q ∧
            q.step ≤ r.step + 1 ∧ r.step ≤ q.step + 1 ∧ q.cap = r.cap ∧ (r.mayStep s.gts = false → q.step = r.step) ∧
            (r.step < q.step → q.step ≤ r.cap.toNat ∧ q.stepAt = s.gts ∧ Config.stepVoltage d q.step ≤ (s.die d).vcore.toNat ∧
              power10 ≤ (s.die d).pwrLimit.toNat) ∧
            ((s.die d).pwrLimit.toNat < power10 → r.mayStep s.gts = true → q.step = r.step - 1)) ∧
          (bit (t.die d).pwrStatus.toNat 0 = true → bit (s.die d).pwrStatus.toNat 0 = false → (t.die d).sticky &&& 0x800 = 0x800) ∧
          (bit (t.die d).pwrStatus.toNat 2 = true → bit (s.die d).pwrStatus.toNat 2 = false → (t.die d).sticky &&& 0x1000 = 0x1000) ∧
          (∀ k temp, hottest sensors = some (k, temp) → 1680 ≤ temp → (t.die d).gated = [1, 2, 3] ∧
            bit (t.die d).pwrStatus.toNat 3 = true ∧
            (bit (s.die d).pwrStatus.toNat 3 = false → (t.die d).sticky &&& 0x2000 = 0x2000))) ∧
    (∀ (s : State) (d : Nat), s.phase = .running → d < s.dieCount → s.diesOk →
        (∀ since, (s.die d).floorSince = some since → (s.die d).gateAt ≤ since → since + 1000000 ≤ s.gts →
          ∃ t : State, exec (.classGateTimer d) s = .next t ∧ t.mem = s.mem ∧
            ((s.die d).gated = [] → (t.die d).gated = [3]) ∧ ((s.die d).gated = [3] → (t.die d).gated = [2, 3]) ∧
            ((s.die d).gated = [2, 3] → (t.die d).gated = [1, 2, 3])) ∧
        (∀ since, (s.die d).floorSince = some since → (s.die d).gateAt ≤ since → s.gts < since + 1000000 →
          exec (.classGateTimer d) s = .next s) ∧
        (∀ last cool, (s.die d).floorSince = none → (s.die d).lastOver = some last → (s.die d).coolSince = some cool →
          last + 10000000 ≤ s.gts → cool + 10000000 ≤ s.gts → (s.die d).gateAt + 10000000 ≤ s.gts →
          ∃ t : State, exec (.classGateTimer d) s = .next t ∧ t.mem = s.mem ∧ (t.die d).gated = (s.die d).gated.drop 1) ∧
        (∀ vcore, ∃ t : State, exec (.vcoreTargetWait d vcore) s = .next t ∧ (t.die d).vcore = BitVec.ofNat 12 vcore ∧
          t = { s with dies := t.dies } ∧ (∀ e, e ≠ d → t.die e = s.die e) ∧
          ∀ (i : Nat) (r : Region), (s.die d).regions[i]? = some r → ∃ q, (t.die d).regions[i]? = some q ∧
            (r.raiseWait = none → q = r) ∧
            (∀ since, r.raiseWait = some since → Config.stepVoltage d (r.step + 1) ≤ vcore → r.mayRaise s.gts = true →
              q.step = r.step + 1 ∧ q.raiseWait = none) ∧
            (∀ since, r.raiseWait = some since → vcore < Config.stepVoltage d (r.step + 1) →
              q.step = r.step ∧ (since + 10000000 ≤ s.gts → q.raiseWait = none)))) ∧
    (∀ (s : State) (d k : Nat) (temp : Int), d < s.dieCount → k < 16 →
        (1840 ≤ temp → s.phase ≠ .tripped → exec (.thermalTrip d k temp) s =
          .next (({ s with phase := .tripped, thermTrip := true } : State).emit (.pin "THERMTRIP_N" false))) ∧
        (temp < 1840 → exec (.thermalTrip d k temp) s = .next s))

/-- RESET_N low for a microsecond or more holds the part in reset, a shorter pulse is ignored; PWR_GOOD low does the same and
ends a trip. Releasing RESET_N samples BOOT_MODE: GTS restarts from 0, no session, stream, job, thread, queue pair or
recovery is left, event queues and sticky bits are empty, and flash, fuses and waiting commands are kept; mode 00 starts the
checks where every die has D0's owner digest, and ends in network recovery with result 6 naming the first die that differs
otherwise; mode 01 is network recovery with result 0, mode 11 holds every die idle with result 8, mode 10 is test access
only where TEST_LOCK is clear. A tripped part stays stopped. -/
def Obligations.ResetAndBootModes : Prop :=
  (∀ (s : State) (w : Nat), (w < 1000 → exec (.resetNAssert w) s = .next s) ∧
        (1000 ≤ w → ∃ t : State, exec (.resetNAssert w) s = .next t ∧ t.resetN = false ∧
          (s.phase ≠ .tripped → t.phase = .inReset) ∧ (s.phase = .tripped → t.phase = .tripped) ∧ t.flash = s.flash)) ∧
    (∀ s : State, ∃ t : State, exec .pwrGoodFall s = .next t ∧ t.phase = .inReset ∧ t.resetN = false ∧ t.thermTrip = false ∧
        t.pwrGood = false ∧ t.flash = s.flash) ∧
    (∀ (s : State) (m : BitVec 2), s.resetN = false →
        (s.phase = .tripped → exec (.resetNRelease m) s = .next { s with resetN := true }) ∧
        (s.phase ≠ .tripped → ∃ t : State, exec (.resetNRelease m) s = .next t ∧ t.bootMode = m ∧ t.gts = 0 ∧ t.sessions = [] ∧
          t.streams = [] ∧ t.jobs = [] ∧ t.threads = [] ∧ t.qps = [] ∧ t.recoveries = [] ∧ t.crash = [] ∧ t.pending = s.pending ∧
          t.flash = s.flash ∧ t.part = s.part ∧ t.out = s.out ∧
          (∀ d, (t.die d).events = [] ∧ (t.die d).sticky = 0 ∧ (t.die d).cnt = List.replicate 14 0 ∧
            (d < s.dies.length → (t.die d).testLock = (s.die d).testLock)) ∧
          (m = 0 → (s.ownerDiffers = none → t.phase = .checking) ∧
            (∀ d, s.ownerDiffers = some d → t.phase = .netRecovery ∧ t.bootSource = 1 ∧ t.bootResult = 6 ∧ t.bootDie = d)) ∧
          (m = 1 → t.phase = .netRecovery ∧ t.bootSource = 1 ∧ t.bootResult = 0) ∧
          (m = 2 → 0 < s.dies.length → t.phase = if (s.die 0).testLock then .idle else .testAccess) ∧
          (m = 3 → t.phase = .idle ∧ t.bootResult = 8)))

/-- While the Germ ROM checks: D0's failed self-test holds the part idle with result 7, an unreadable flash gives network
recovery with result 1 and a failed check of the image its own result; a check that passes marks the die checked. Another
die's failure gives result 6 naming it. When the last die is checked and D0's memory is trained the firmware starts with no
session and result 0, in either order; when it is checked and the memory is not trained it waits for it. A die whose memory
fails training has its channels out of service. A reboot that is due in network recovery begins the boot from flash, and one
that is not due does nothing. -/
def Obligations.TheImageIsCheckedBeforeItRuns : Prop :=
  (∀ (s : State) (ok st : Bool), s.phase = .checking → s.diesOk → (s.die 0).checked = false →
        (st = false → ∃ t : State, exec (.imageCheckComplete 0 ok st) s = .next t ∧ t.phase = .idle ∧ t.bootResult = 7) ∧
        (st = true → ok = false → ∃ t : State, exec (.imageCheckComplete 0 ok st) s = .next t ∧ t.phase = .netRecovery ∧ t.bootSource = 1 ∧
          t.bootResult = 1) ∧
        (st = true → ok = true → s.flash.hasSfdp = true → s.flash.broken = false →
          (s.imageCheck 0 s.flash.image ≠ 0 → ∃ t : State, exec (.imageCheckComplete 0 ok st) s = .next t ∧ t.phase = .netRecovery ∧
            t.bootSource = 1 ∧ t.bootResult = s.imageCheck 0 s.flash.image ∧ t.sessions = s.sessions) ∧
          (s.imageCheck 0 s.flash.image = 0 → (∃ d < s.dieCount, d ≠ 0 ∧ (s.die d).checked = false) →
            exec (.imageCheckComplete 0 ok st) s = .next (s.onDie 0 fun d => { d with checked := true })))) ∧
    (∀ (s : State) (d : Nat) (ok st : Bool), s.phase = .checking → s.diesOk → 0 < d → d < s.dieCount → (s.die 0).checked = true →
        (s.die d).checked = false →
        ((st = false ∨ s.imageCheck d s.flash.image ≠ 0) → ∃ t : State, exec (.imageCheckComplete d ok st) s = .next t ∧
          t.phase = .netRecovery ∧ t.bootResult = 6 ∧ t.bootDie = d) ∧
        (st = true → s.imageCheck d s.flash.image = 0 → (∀ e < s.dieCount, e ≠ d → (s.die e).checked = true) →
          ((s.die 0).trained = true → ∃ t : State, exec (.imageCheckComplete d ok st) s = .next t ∧ t.phase = .running ∧
            t.image = s.flash.image ∧ t.sessions = [] ∧ t.bootResult = 0 ∧ t.gts = s.gts ∧ t.mem = s.mem) ∧
          ((s.die 0).trained = false → ∃ t : State, exec (.imageCheckComplete d ok st) s = .next t ∧ t.phase = .memWait ∧
            (t.die d).checked = true))) ∧
    (∀ (s : State) (d : Nat), d < s.dieCount → s.diesOk → s.phase ≠ .inReset → s.phase ≠ .tripped → (s.die d).trained = false →
        (d = 0 → s.phase = .memWait → (∀ e < s.dieCount, (s.die e).checked = true) →
          ∃ t : State, exec (.lpddr5xTrained d true) s = .next t ∧ t.phase = .running ∧ t.image = s.flash.image ∧ t.sessions = [] ∧
            (t.die 0).trained = true) ∧
        (s.phase = .running → exec (.lpddr5xTrained d true) s = .next (s.onDie d fun e => { e with trained := true })) ∧
        (exec (.lpddr5xTrained d false) s = .next (s.onDie d fun e => { e with memCh := e.memCh.map fun c => { c with up := false } }))) ∧
    (∀ (s : State) (at_ : Nat), s.phase = .netRecovery → s.rebootAt = some at_ →
        (at_ ≤ s.gts → s.ownerDiffers = none → ∃ t : State, exec .recoverReboot s = .next t ∧ t.phase = .checking ∧ t.rebootAt = none ∧
          t.gts = s.gts ∧ t.flash = s.flash) ∧
        (s.gts < at_ → exec .recoverReboot s = .next s))

/-- While the firmware runs a sample adds one second and one temperature count for each die, in the bin of its PWR_TJ; every 6
hours of on-time a save begins with the next SAVE_SEQ, and while one runs another is marked due; a save whose read-back
succeeds puts the image saved in front of those in flash, a save that fails sets sticky LIFELOG_FAIL on D0 and leaves flash
as it was. An accepted LIFELOG_READ answers the bytes of the image from the offset, at most to its end, and changes nothing.
Memory is unchanged. -/
def Obligations.LifeLogIsKept : Prop :=
  (∀ (s : State) (dev : List Int), s.phase = .running → s.packageRecovering = false → s.lifeLog.seconds < 2 ^ 64 - 1 →
        ∃ t : State, exec (.lifelogSample dev) s = .next t ∧ t = { s with lifeLog := t.lifeLog } ∧
          t.lifeLog.seconds = s.lifeLog.seconds + 1 ∧ t.lifeLog.recoveries = s.lifeLog.recoveries ∧ t.lifeLog.saveSeq = s.lifeLog.saveSeq ∧
          ∀ (d : Nat) (row : List Nat), d < s.dieCount → s.lifeLog.temps[d]? = some row → row.length = 16 →
            ∃ row', t.lifeLog.temps[d]? = some row' ∧ ∀ b < 16, row.getD b 0 < 2 ^ 32 - 1 → row'.getD b 0 = row.getD b 0 +
              (if b = tempBin (signed 16 (s.die d).pwrTj.toNat) then 1 else 0)) ∧
    (∀ s : State, s.phase = .running → s.packageRecovering = false →
        (s.lifAt + 21600000000000 ≤ s.gts → ∃ t : State, exec .lifelogSaveTimer s = .next t ∧ t.lifBusy = true ∧ t.flash = s.flash ∧
          t.mem = s.mem ∧ (s.lifBusy = false → t.lifSaving = { s.lifeLog with saveSeq := s.lifeLog.saveSeq + 1, saveGts := s.gts }) ∧
          (s.lifBusy = true → t.lifAgain = true ∧ t.lifSaving = s.lifSaving)) ∧
        (s.gts < s.lifAt + 21600000000000 → exec .lifelogSaveTimer s = .next s)) ∧
    (∀ s : State, s.lifBusy = true → s.counts = true → s.lifAgain = false → s.diesOk →
        (∃ t : State, exec (.lifelogSaveComplete true) s = .next t ∧ t.lifBusy = false ∧ t.lifOk = true ∧
          t.flash.lifeLog.head? = some s.lifSaving ∧ t.flash.image = s.flash.image ∧ t.mem = s.mem ∧ t.dies = s.dies) ∧
        (∃ t : State, exec (.lifelogSaveComplete false) s = .next t ∧ t.lifBusy = false ∧ t.lifOk = false ∧ t.flash = s.flash ∧
          (t.die 0).sticky &&& 0x40000 = 0x40000 ∧ t.mem = s.mem)) ∧
    (∀ (s : State) (d : Datagram) (x : Session), Accepted s d 0x0053 false none none x → d.params.length = 8 → beAt d.params 0 4 < 65536 →
        0 < beAt d.params 4 2 → beAt d.params 4 2 ≤ 4088 → beAt d.params 6 2 = 0 →
        exec (.lifelogRead d) s = .next ((s.heard x).answer d 0x0053 (.good (beBytes 4 65536 ++ zeros 4 ++
          slice (s.lifeLog.image s.part.number) (beAt d.params 0 4) (min (beAt d.params 4 2) (65536 - beAt d.params 0 4))))))

/-- For accepted requests with well-formed parameters: STAGE of a length that fits answers a new staging area of the session
with an RKEY and a queue pair of the request's network, inside D0's LPDDR5X pool and apart from every other area; ABANDON
releases it; COMMIT of an image at fault is answered PENDING and then BAD_PARAM with the offset in DETAIL and releases it,
one already loaded gives its SLOT, one with no slot or set slots NO_RESOURCE, and a good one waits for its bank steps with
no other load or activation pending. The switch, once nothing is bound to the inactive bank, makes that bank active, loads
the slot and answers OK, other slots standing. UNLOAD empties a loaded slot that no stream or job uses, and is RESOURCE_BUSY
or PROFILE_MISSING else; QUERY tells a slot's digest, name and users. Memory is unchanged. -/
def Obligations.ProfilesAreLoadedAndUnloaded : Prop :=
  (∀ (s : State) (d : Datagram) (x : Session), Accepted s d 0x0010 true none none x → beAt d.params 1 3 = 0 →
        (beAt d.params 0 1 = 0 → d.params.length = 12 → 0 < beAt d.params 4 8 → beAt d.params 4 8 ≤ 2 ^ 31 →
          (s.sharedFree < granules (beAt d.params 4 8) →
            exec (.profileLoadStage d) s = .next ((s.heard x).answer d 0x0010 (.fail .noResource))) ∧
          (granules (beAt d.params 4 8) ≤ s.sharedFree → (s.stagePlace 0 0x2FC0000000 (beAt d.params 4 8)).isSome = true →
            ∃ (u : State) (g : Staging), exec (.profileLoadStage d) s = .next (u.answer d 0x0010 (.good (beBytes 4 g.id ++ zeros 4 ++
                beBytes 8 g.base ++ beBytes 4 g.rkey ++ beBytes 8 g.length ++ beBytes 3 g.qpn ++ [0]))) ∧
              u.staging = s.staging ++ [g] ∧ g.kind = 0 ∧ g.session = d.session.toNat ∧ g.length = beAt d.params 4 8 ∧
              g.base + 65536 * granules g.length ≤ 0x2FC0000000 ∧ u.mem = s.mem ∧ u.profiles = s.profiles ∧
              (∀ o ∈ s.staging, g.base + 65536 * granules g.length ≤ o.base ∨ o.base + roundUp o.length 65536 ≤ g.base) ∧
              ∃ q ∈ u.qps, q.qpn = g.qpn ∧ q.ofStream = false ∧ q.owner = g.id ∧ q.network = networkOf d.port)) ∧
        (∀ g, beAt d.params 0 1 = 2 → d.params.length = 8 → s.stageOf 0 (beAt d.params 4 4) = some g → ∃ u : State,
          exec (.profileLoadAbandon d) s = .next (u.answer d 0x0010 (.good [])) ∧ u.staging = s.staging.filter (·.id != g.id) ∧
            u.profiles = s.profiles ∧ u.loading = s.loading ∧ u.mem = s.mem) ∧
        (∀ g, beAt d.params 0 1 = 1 → d.params.length = 8 → s.stageOf 0 (beAt d.params 4 4) = some g →
          ((s.loading.isSome || s.activation.isSome) = true →
            exec (.profileLoadCommit d) s = .next ((s.heard x).answer d 0x0010 (.fail .resourceBusy))) ∧
          (s.loading = none → s.activation = none →
            (∀ off, imageFault (s.stagedBytes g) s.abiMin s.abiMax = some off → ∃ u : State, exec (.profileLoadCommit d) s =
              .next (u.answer d 0x0010 { status := .pending, params := zeros 4, final := some (.badParam, [], 0xFFFFFFFF, off) }) ∧
              u.staging = s.staging.filter (·.id != g.id) ∧ u.profiles = s.profiles ∧ u.mem = s.mem) ∧
            (imageFault (s.stagedBytes g) s.abiMin s.abiMax = none →
              (∀ slot, s.slotOf (slice (s.stagedBytes g) 32 32) = some slot → ∃ u : State, exec (.profileLoadCommit d) s =
                .next (u.answer d 0x0010 { status := .pending, params := zeros 4, final := some (.ok, [byte slot, 0, 0, 0], 0xFFFFFFFF, 0) }) ∧
                u.staging = s.staging.filter (·.id != g.id) ∧ u.profiles = s.profiles ∧ u.mem = s.mem) ∧
              (s.slotOf (slice (s.stagedBytes g) 32 32) = none →
                (s.slotFree = none → ∃ u : State, exec (.profileLoadCommit d) s =
                  .next (u.answer d 0x0010 { status := .pending, params := zeros 4, final := some (.noResource, [], 0xFFFFFFFF, 0) }) ∧
                  u.staging = s.staging.filter (·.id != g.id) ∧ u.profiles = s.profiles ∧ u.mem = s.mem) ∧
                (∀ slot, s.slotFree = some slot → (imageTableSets (s.stagedBytes g)).length ≤ s.setSlotsFree.length →
                  s.weightsFit (s.stagedBytes g) = true → ∃ u : State,
                  exec (.profileLoadCommit d) s = .next (u.answer d 0x0010 (.wait (zeros 4))) ∧ u.profiles = s.profiles ∧
                  u.staging = s.staging ∧ u.mem = s.mem ∧
                  ∃ l, u.loading = some l ∧ l.req = dgReq d ∧ l.slot = slot ∧ l.image = s.stagedBytes g)))))) ∧
    (∀ (s : State) (l : LoadRun), s.loading = some l → s.firmwareRuns = true →
        (s.bankHeld = true → exec .bankSwitch s = .next s) ∧
        (s.bankHeld = false → l.slot < s.profiles.length → ∃ t : State, exec .bankSwitch s = .next t ∧ t.activeBank = 1 - s.activeBank ∧
          t.loading = none ∧ (∀ k, k ≠ l.slot → t.profiles[k]? = s.profiles[k]?) ∧
          t.profiles[l.slot]? = some (some { image := l.image, digest := slice l.image 32 32, setSlots := l.setSlots }) ∧
          t.banks[s.activeBank]? = s.banks[s.activeBank]? ∧ t.mem = s.mem ∧ finalReply s t l.req .ok [byte l.slot, 0, 0, 0])) ∧
    (∀ (s : State) (d : Datagram) (x : Session), d.params.length = 4 → beAt d.params 1 3 = 0 → beAt d.params 0 1 ≤ 3 →
        (Accepted s d 0x0011 true none none x → s.loading = none → s.activation = none →
          (s.profiles.getD (beAt d.params 0 1) none = none →
            exec (.profileUnload d) s = .next ((s.heard x).answer d 0x0011 (.fail .profileMissing))) ∧
          (∀ p, s.profiles.getD (beAt d.params 0 1) none = some p →
            (s.slotStreams (beAt d.params 0 1) + s.slotJobs (beAt d.params 0 1) ≠ 0 →
              exec (.profileUnload d) s = .next ((s.heard x).answer d 0x0011 (.fail .resourceBusy))) ∧
            (s.slotStreams (beAt d.params 0 1) + s.slotJobs (beAt d.params 0 1) = 0 → ∃ u : State, exec (.profileUnload d) s =
              .next (u.answer d 0x0011 { status := .pending, final := some (.ok, [], 0xFFFFFFFF, 0) }) ∧ u.mem = s.mem ∧
              u.profiles.getD (beAt d.params 0 1) none = none ∧ u.banks = s.banks ∧
              ∀ k, k ≠ beAt d.params 0 1 → u.profiles[k]? = s.profiles[k]?))) ∧
        (Accepted s d 0x0012 false none none x →
          (s.profiles.getD (beAt d.params 0 1) none = none →
            exec (.profileQuery d) s = .next ((s.heard x).answer d 0x0012 (.good (zeros 60)))) ∧
          (∀ p, s.profiles.getD (beAt d.params 0 1) none = some p → exec (.profileQuery d) s = .next ((s.heard x).answer d 0x0012
            (.good ([1, 0, 0, 0] ++ p.digest ++ profileName p.image ++ beBytes 4 (s.slotStreams (beAt d.params 0 1)) ++
              beBytes 4 (s.slotJobs (beAt d.params 0 1))))))))

/-- For accepted requests with well-formed parameters: FW_STAGE answers a new staging area when none of firmware is live;
FW_VERIFY of an image that a check of D0 refuses is answered AUTH_FAIL with the result and changes nothing, one that passes
marks the area verified; FW_ACTIVATE of an area not verified is BAD_PARAM, of a verified image live begins with region 0
where LIVE_SERVICE and MIN_LIVE allow, else by a package recovery; a read-back of the image in flash that succeeds installs
it and answers OK, the third that fails answers TIMEOUT and leaves flash. RECOVER_LOAD COMMIT writes an image only when its
check passes and boots it 100 ms later. Attestation answers the log's page with an Ed448 signature over the whole log and
the nonce. -/
def Obligations.FirmwareIsReplacedOnlyWhenVerified : Prop :=
  (∀ (s : State) (d : Datagram) (x : Session), Accepted s d 0x0060 true none none x → d.params.length = 8 → 0 < beAt d.params 0 8 →
        beAt d.params 0 8 ≤ 268435456 →
        ((s.staging.any fun g => g.kind == 1) = true → exec (.fwStage d) s = .next ((s.heard x).answer d 0x0060 (.fail .resourceBusy))) ∧
        ((s.staging.any fun g => g.kind == 1) = false → (s.stagePlace 0x2FC0000000 0x2FF0000000 (beAt d.params 0 8)).isSome = true →
          ∃ (u : State) (g : Staging), exec (.fwStage d) s = .next (u.answer d 0x0060 (.good (beBytes 4 g.id ++ zeros 4 ++ beBytes 8 g.base ++
              beBytes 4 g.rkey ++ beBytes 8 g.length ++ beBytes 3 g.qpn ++ [0]))) ∧ u.staging = s.staging ++ [g] ∧ g.kind = 1 ∧
            g.length = beAt d.params 0 8 ∧ g.verified = false ∧ u.mem = s.mem ∧ u.flash = s.flash)) ∧
    (∀ (s : State) (d : Datagram) (x : Session) (g : Staging), Accepted s d 0x0061 true none none x → d.params.length = 4 →
        s.stageOf 1 (beAt d.params 0 4) = some g →
        (s.imageCheck 0 (s.stagedBytes g) ≠ 0 → exec (.fwVerify d) s = .next ((s.heard x).answer d 0x0061
          { status := .pending, params := zeros 16, final := some (.authFail, [], 0xFFFFFFFF, s.imageCheck 0 (s.stagedBytes g)) })) ∧
        (s.imageCheck 0 (s.stagedBytes g) = 0 → allowSigned (s.stagedBytes g) = true → ∃ t : State, exec (.fwVerify d) s = .next t ∧
          t.flash = s.flash ∧ t.image = s.image ∧ t.mem = s.mem ∧ ∃ h, t.stageOf 1 (beAt d.params 0 4) = some h ∧ h = { g with verified := true })) ∧
    (∀ (s : State) (d : Datagram) (x : Session) (g : Staging), Accepted s d 0x0062 true none none x → d.params.length = 4 →
        s.activation = none → s.stageOf 1 (beAt d.params 0 4) = some g → s.phase = .running →
        (g.verified = false → exec (.fwActivate d) s = .next ((s.heard x).answer d 0x0062 (.fail .badParam 0))) ∧
        (g.verified = true → s.imageCheck 0 (s.stagedBytes g) = 0 → (s.dies.any fun e => e.service.isSome) = false → s.diesOk →
          (s.liveAllowed (s.stagedBytes g) = true → ∃ u : State, exec (.fwActivate d) s = .next (u.answer d 0x0062 .wait) ∧
            u.image = s.image ∧ u.flash = s.flash ∧ u.mem = s.mem ∧
            ∃ a, u.activation = some a ∧ a.req = dgReq d ∧ a.image = s.stagedBytes g ∧ a.step = 1 ∧ a.region = 0) ∧
          (s.liveAllowed (s.stagedBytes g) = false → s.recoveries = [] → ∃ u : State,
            exec (.fwActivate d) s = .next (u.answer d 0x0062 .wait) ∧ FencedBy s u .package 7 ∧ u.flash = s.flash))) ∧
    (∀ (s : State) (a : Activation), s.activation = some a → a.step = 4 → s.firmwareRuns = true →
        (∃ t : State, exec (.fwFlashWriteDone true) s = .next t ∧ t.flash.image = a.image ∧ t.flash.broken = false ∧ t.activation = none ∧
          (∀ d ∈ t.dies, leAt a.image 24 8 ≤ d.rollback) ∧ t.mem = s.mem ∧ finalReply s t a.req .ok []) ∧
        (a.attempts < 2 → ∃ t : State, exec (.fwFlashWriteDone false) s = .next t ∧ t.flash = s.flash ∧ t.mem = s.mem ∧
          t.activation = some { a with attempts := a.attempts + 1 }) ∧
        (2 ≤ a.attempts → ∃ t : State, exec (.fwFlashWriteDone false) s = .next t ∧ t.flash = s.flash ∧ t.mem = s.mem ∧
          t.activation = none ∧ finalReply s t a.req .timeout (beBytes 4 0xFFFFFFFF ++ beBytes 4 0))) ∧
    (∀ (s : State) (d : Datagram) (x : Session), Accepted s d 0x0091 true none none x → beAt d.params 1 3 = 0 →
        (beAt d.params 0 1 = 0 → d.params.length = 12 → 0 < beAt d.params 4 8 → beAt d.params 4 8 ≤ 268435456 →
          (s.staging.any fun g => g.kind == 2) = false → (s.stagePlace (deepBase 0) (deepBase 0 + 0xC0000000) (beAt d.params 4 8)).isSome = true →
          ∃ (u : State) (g : Staging), exec (.recoverLoadStage d) s = .next (u.answer d 0x0091 (.good (beBytes 4 g.id ++ zeros 4 ++
              beBytes 8 g.base ++ beBytes 4 g.rkey ++ beBytes 8 g.length ++ beBytes 3 g.qpn ++ [0]))) ∧ u.staging = s.staging ++ [g] ∧
            g.kind = 2 ∧ g.length = beAt d.params 4 8 ∧ u.mem = s.mem ∧ u.flash = s.flash) ∧
        (∀ g, beAt d.params 0 1 = 1 → d.params.length = 8 → s.stageOf 2 (beAt d.params 4 4) = some g → s.bootResult ≠ 6 →
          (∀ w, s.imageCheck 0 (s.stagedBytes g) ≠ 0 → exec (.recoverLoadCommit d w) s = .next ((s.heard x).answer d 0x0091
            { status := .pending, final := some (.authFail, [], 0xFFFFFFFF, s.imageCheck 0 (s.stagedBytes g)) })) ∧
          (s.imageCheck 0 (s.stagedBytes g) = 0 →
            (∃ t : State, exec (.recoverLoadCommit d true) s = .next t ∧ t.flash.image = s.stagedBytes g ∧ t.flash.broken = false ∧
              t.rebootAt = some (s.gts + 100000000) ∧ t.mem = s.mem ∧ ∀ e ∈ t.dies, leAt (s.stagedBytes g) 24 8 ≤ e.rollback) ∧
            (∃ t : State, exec (.recoverLoadCommit d false) s = .next t ∧ t.flash.broken = true ∧ t.rebootAt = s.rebootAt ∧ t.mem = s.mem)))) ∧
    (∀ (s : State) (d : Datagram) (x : Session), Accepted s d 0x0080 false none none x → d.params.length = 40 → beAt d.params 36 4 = 0 →
        beAt d.params 32 4 < s.logBytes.length → exec (.attest d) s = .next ((s.heard x).answer d 0x0080 (.good
          (beBytes 4 s.logBytes.length ++ beBytes 2 (slice s.logBytes (beAt d.params 32 4) 3960).length ++ zeros 2 ++
            ed448Sign (deviceSecret 0) (s.logBytes ++ d.params.take 32) "ZLK-ATTEST" ++ zeros 2 ++
            slice s.logBytes (beAt d.params 32 4) 3960))))

/-- An accepted ADMIT whose parameters stand is answered ADMISSION_REFUSED with the number of the first condition that fails, or
OK with a ticket of the session's host: it holds the asked number of free regions, which read its number as owner while
every other region's owner is as before, a bound of at most one second, and a new queue pair. STREAM_OPEN of class 0 with
the same parameters by that host turns the ticket into the stream of its number, with its regions and bound; of classes 1 to
3 it opens a stream with a new number where the pools of every die have room and is ADMISSION_REFUSED where they have not.
After 10 s a ticket is gone and its regions are free. Memory and other streams are unchanged. -/
def Obligations.AdmissionHoldsWhatItPromises : Prop :=
  (∀ (s : State) (d : Datagram) (x : Session) (a : Ask), Accepted s d 0x0020 false none none x → 44 ≤ d.params.length → s.diesOk →
        beAt d.params 0 1 ≠ 0 → beAt d.params 1 3 = 0 → beAt d.params 6 1 = 0 → beAt d.params 40 4 = 0 → s.readAsk d.params 4 = .ok a →
        s.reordered a = false →
        (∀ r, s.refusal a (beAt d.params 0 1) = some r →
          exec (.admitReq d) s = .next ((s.heard x).answer d 0x0020 (.fail .admissionRefused 0xFFFFFFFF r))) ∧
        (s.refusal a (beAt d.params 0 1) = none → ∃ (u : State) (t : Ticket), exec (.admitReq d) s = .next (u.answer d 0x0020 (.good
            (beBytes 4 t.number ++ beBytes 4 t.boundUs ++ [byte t.regions.length, 0, 0, 0] ++
              t.regions.flatMap fun r => [byte r.1, byte r.2]))) ∧
          u.tickets = s.tickets ++ [t] ∧ t.owner = x.hostKey ∧ t.createdAt = s.gts ∧ t.regions.length = beAt d.params 0 1 ∧
          t.boundUs ≤ 1000000 ∧ u.mem = s.mem ∧ u.streams = s.streams ∧
          (∀ r ∈ t.regions, r ∈ s.freeRegions ∧ ∃ g, (u.die r.1).regions[r.2]? = some g ∧ g.owner = BitVec.ofNat 32 t.number) ∧
          (∀ i k g, (i, k) ∉ t.regions → (s.die i).regions[k]? = some g → (u.die i).regions[k]? = some g) ∧
          ∃ q ∈ u.qps, q.qpn = t.qpn ∧ q.ofStream = true ∧ q.owner = t.number ∧ q.network = a.params.network)) ∧
    (∀ (s : State) (d : Datagram) (x : Session) (a : Ask), Accepted s d 0x0021 false none none x → s.readAsk d.params 0 = .ok a →
        a.params.archive = 0 → a.kind.dir ≠ 2 →
        (a.kind.cls = 0 →
          (s.tickets.find? (fun (t : Ticket) => t.number == a.ticket) = none →
            exec (.streamOpen d) s = .next ((s.heard x).answer d 0x0021 (.fail .badParam 36))) ∧
          (∀ t : Ticket, s.tickets.find? (fun (t : Ticket) => t.number == a.ticket) = some t → t.owner = x.hostKey →
            t.openParams = openForm d.params 0 → ∃ (u : State) (y : Stream),
            exec (.streamOpen d) s = .next (u.answer d 0x0021 (.good (beBytes 4 t.number ++ zeros 4 ++ s.bulk t.qpn))) ∧
              u.streams = s.streams ++ [y] ∧ y.number = t.number ∧ y.owner = x.hostKey ∧ y.regions = t.regions ∧ y.boundUs = t.boundUs ∧
              y.qpn = t.qpn ∧ y.state = .open_ ∧ y.params = a.params ∧ u.tickets = s.tickets.filter (·.number != t.number) ∧
              u.dies = s.dies ∧ u.mem = s.mem)) ∧
        (a.kind.cls ≠ 0 →
          (s.poolsHave (List.range s.dieCount) (a.granules (s.askImage a) false) (a.granules (s.askImage a) true) = false →
            exec (.streamOpen d) s = .next ((s.heard x).answer d 0x0021 (.fail .admissionRefused))) ∧
          (s.poolsHave (List.range s.dieCount) (a.granules (s.askImage a) false) (a.granules (s.askImage a) true) = true → ∃ (u : State) (y : Stream),
            exec (.streamOpen d) s = .next (u.answer d 0x0021 (.good (beBytes 4 y.number ++ zeros 4 ++ u.bulk y.qpn))) ∧
              u.streams = s.streams ++ [y] ∧ y.number = s.nextNumber ∧ y.owner = x.hostKey ∧ y.state = .open_ ∧ y.params = a.params ∧
              y.regions = [] ∧ u.tickets = s.tickets ∧ u.mem = s.mem))) ∧
    (∀ (s : State) (n : Nat) (t : Ticket), s.tickets.find? (fun (t : Ticket) => t.number == n) = some t → s.firmwareRuns = true →
        (t.createdAt + 10 * 10 ^ 9 ≤ s.gts → ∃ u : State, exec (.ticketExpiry n) s = .next u ∧
          u.tickets = s.tickets.filter (·.number != n) ∧ u.qps = s.qps.filter (·.qpn != t.qpn) ∧ u.streams = s.streams ∧ u.mem = s.mem ∧
          (n < 2 ^ 32 - 1 → ∀ d, ∀ g ∈ (u.die d).regions, d < s.dies.length → g.owner ≠ BitVec.ofNat 32 n)) ∧
        (s.gts < t.createdAt + 10 * 10 ^ 9 → exec (.ticketExpiry n) s = .next s))

/-- For accepted requests on an open stream by its owner or a privileged session, with well-formed parameters: STREAM_CONFIG
with APPLY_AT 0 applies its entries at once and a later picture's waits in order; RATE_SET and ROI_SET wait for the picture
they name, or for the next to start with APPLY_AT 0; REF_MARK is kept once; RATE_SET, ROI_SET and REF_MARK are answered
BAD_PARAM where the picture has started. STREAM_STATUS answers the report and changes nothing. STREAM_CLOSE of a stream with
pictures to finish is answered PENDING and it reads CLOSING; a stopped one is gone with its queue pair (while no thread
waits for a pool). A stream stopped by damage answers STREAM_DAMAGED. Other streams, dies and memory are unchanged. -/
def Obligations.CommandsOnAStream : Prop :=
  ∀ (s : State) (d : Datagram) (x : Session) (y : Stream) (n : Nat), n = beAt d.params 0 4 → s.stream n = some y →
      (∀ es, Accepted s d 0x0022 false (s.streamOwner d) none x → 4 ≤ d.params.length → y.state = .open_ → parseEntries d.params 4 = .ok es →
        (∀ at_, at_ = (match es.find? (·.id == 0x2E) with | some e => beNat e.value | none => 0) →
          (s.kindOf y).entriesFault (some (y.lastStarted.isSome, at_)) [] es = none → y.past at_ = false →
          (s.kindOf y).disagrees (y.params.apply es) = false →
          (at_ = 0 → exec (.streamConfig d) s =
            .next (((s.heard x).setStream { y with params := y.params.apply es }).answer d 0x0022 (.good []))) ∧
          (at_ ≠ 0 → y.pendingCfg.length < 16 → exec (.streamConfig d) s =
            .next (((s.heard x).setStream { y with pendingCfg := y.pendingCfg ++ [(at_, d.params.drop 4)] }).answer d 0x0022 (.good []))))) ∧
      (Accepted s d 0x0025 false (s.streamOwner d) none x → d.params.length = 40 → y.state = .open_ →
        (y.past (beAt d.params 4 4) = true → exec (.rateSet d) s = .next ((s.heard x).answer d 0x0025 (.fail .badParam 4))) ∧
        (beAt d.params 4 4 < 2 ^ 24 → y.past (beAt d.params 4 4) = false → rateFault d.params = none → exec (.rateSet d) s =
          .next (((s.heard x).setStream { y with pendingRate := y.pendingRate ++
            [(if beAt d.params 4 4 = 0 then y.next else beAt d.params 4 4, rateOf d.params)] }).answer d 0x0025 (.good [])))) ∧
      (Accepted s d 0x0026 false (s.streamOwner d) none x → y.state = .open_ → y.media = 0 → 12 ≤ d.params.length →
        y.past (beAt d.params 4 4) = true → exec (.roiSet d) s = .next ((s.heard x).answer d 0x0026 (.fail .badParam 4))) ∧
      (Accepted s d 0x0026 false (s.streamOwner d) none x → y.state = .open_ → y.media = 0 → beAt d.params 4 4 < 2 ^ 24 →
        y.past (beAt d.params 4 4) = false → beAt d.params 8 1 ≤ 16 → beAt d.params 9 3 = 0 →
        d.params.length = 12 + 10 * beAt d.params 8 1 → (∀ r ∈ roiOf d.params 12 (beAt d.params 8 1), -64 ≤ r.dq ∧ r.dq ≤ 63) →
        (∀ i < beAt d.params 8 1, beAt d.params (21 + 10 * i) 1 = 0) → exec (.roiSet d) s =
          .next (((s.heard x).setStream { y with pendingRoi := y.pendingRoi ++
            [(if beAt d.params 4 4 = 0 then y.next else beAt d.params 4 4, roiOf d.params 12 (beAt d.params 8 1))] }).answer d 0x0026
              (.good []))) ∧
      (Accepted s d 0x0027 false (s.streamOwner d) none x → y.state = .open_ → y.media = 0 → d.params.length = 12 →
        beAt d.params 4 4 < 2 ^ 24 → 4 ≤ beAt d.params 8 1 → beAt d.params 8 1 ≤ 7 → beAt d.params 9 3 = 0 →
        (∀ l, y.lastStarted = some l → beAt d.params 4 4 ≤ l →
          exec (.refMark d) s = .next ((s.heard x).answer d 0x0027 (.fail .badParam 4))) ∧
        ((∀ l, y.lastStarted = some l → l < beAt d.params 4 4) →
          ((beAt d.params 4 4, beAt d.params 8 1) ∈ y.marks → exec (.refMark d) s = .next ((s.heard x).answer d 0x0027 (.good []))) ∧
          ((beAt d.params 4 4, beAt d.params 8 1) ∉ y.marks → y.marks.length < 64 → exec (.refMark d) s =
            .next (((s.heard x).setStream { y with marks := y.marks ++ [(beAt d.params 4 4, beAt d.params 8 1)] }).answer d 0x0027
              (.good []))))) ∧
      (Accepted s d 0x0024 false none none x → d.params.length = 4 →
        exec (.streamStatus d) s = .next ((s.heard x).answer d 0x0024 (.good y.report))) ∧
      (Accepted s d 0x0023 false (s.streamOwner d) none x → d.params.length = 4 →
        (y.state = .open_ → y.busy = true → ∃ (t : State) (z : Stream), exec (.streamClose d) s = .next t ∧ t.stream n = some z ∧
          z.state = .closing ∧ z.closing = y.closing ++ [dgReq d] ∧ z.pics = y.pics ∧ t.mem = s.mem ∧ t.dies = s.dies ∧
          (∃ r, t.out = s.out ++ [.reply r] ∧ r.status = .pending) ∧
          ∀ k, k ≠ n → t.stream k = s.stream k) ∧
        (y.state = .stopped → s.noneWaits → ∃ t : State, exec (.streamClose d) s = .next t ∧ t.stream n = none ∧ t.qp y.qpn = none ∧ t.mem = s.mem ∧
          ∀ k, k ≠ n → t.stream k = s.stream k)) ∧
      (y.state = .stopped → y.status = .streamDamaged → ∀ c op len, (c, op, len) ∈ [(Instr.streamConfig d, 0x0022, 4), (.rateSet d, 0x0025, 40),
          (.roiSet d, 0x0026, 12), (.refMark d, 0x0027, 12)] → len ≤ d.params.length →
        Accepted s d op false (s.streamOwner d) none x → exec c s = .next ((s.heard x).answer d op (.fail .streamDamaged)))

/-- For every accepted request on an open stream by its owner or a privileged session (SPARE_QUERY: of a die), whose parameters
keep the rules named here, the command answers a next state: one reply leaves, with status OK, or PENDING for the
STREAM_CLOSE of a stream with pictures to finish; memory, the dies and every other stream are unchanged, and STREAM_STATUS
and SPARE_QUERY change no stream. -/
def Obligations.StreamCommandsAndSpareQueryComplete : Prop :=
  (∀ (s : State) (d : Datagram) (x : Session) (y : Stream) (n : Nat), n = beAt d.params 0 4 → s.stream n = some y → y.state = .open_ →
      (∀ es at_, Accepted s d 0x0022 false (s.streamOwner d) none x → 4 ≤ d.params.length → parseEntries d.params 4 = .ok es →
        at_ = (match es.find? (·.id == 0x2E) with | some e => beNat e.value | none => 0) →
        (s.kindOf y).entriesFault (some (y.lastStarted.isSome, at_)) [] es = none → y.past at_ = false →
        (s.kindOf y).disagrees (y.params.apply es) = false → y.pendingCfg.length < 16 →
        ∃ t r, exec (.streamConfig d) s = .next t ∧ t.out = s.out ++ [.reply r] ∧ r.status = .ok ∧ t.mem = s.mem ∧ t.dies = s.dies ∧
          ∀ k, k ≠ n → t.stream k = s.stream k) ∧
      (Accepted s d 0x0023 false (s.streamOwner d) none x → d.params.length = 4 → y.busy = true →
        ∃ t r, exec (.streamClose d) s = .next t ∧ t.out = s.out ++ [.reply r] ∧ r.status = .pending ∧ t.mem = s.mem ∧ t.dies = s.dies ∧
          ∀ k, k ≠ n → t.stream k = s.stream k) ∧
      (Accepted s d 0x0024 false none none x → d.params.length = 4 →
        ∃ t r, exec (.streamStatus d) s = .next t ∧ t.out = s.out ++ [.reply r] ∧ r.status = .ok ∧ t.mem = s.mem ∧ t.dies = s.dies ∧
          t.streams = s.streams) ∧
      (Accepted s d 0x0025 false (s.streamOwner d) none x → d.params.length = 40 → beAt d.params 4 4 < 2 ^ 24 →
        y.past (beAt d.params 4 4) = false → rateFault d.params = none →
        ∃ t r, exec (.rateSet d) s = .next t ∧ t.out = s.out ++ [.reply r] ∧ r.status = .ok ∧ t.mem = s.mem ∧ t.dies = s.dies ∧
          ∀ k, k ≠ n → t.stream k = s.stream k) ∧
      (Accepted s d 0x0026 false (s.streamOwner d) none x → y.media = 0 → beAt d.params 4 4 < 2 ^ 24 → y.past (beAt d.params 4 4) = false →
        beAt d.params 8 1 ≤ 16 → beAt d.params 9 3 = 0 → d.params.length = 12 + 10 * beAt d.params 8 1 →
        (∀ r ∈ roiOf d.params 12 (beAt d.params 8 1), -64 ≤ r.dq ∧ r.dq ≤ 63) → (∀ i < beAt d.params 8 1, beAt d.params (21 + 10 * i) 1 = 0) →
        ∃ t r, exec (.roiSet d) s = .next t ∧ t.out = s.out ++ [.reply r] ∧ r.status = .ok ∧ t.mem = s.mem ∧ t.dies = s.dies ∧
          ∀ k, k ≠ n → t.stream k = s.stream k) ∧
      (Accepted s d 0x0027 false (s.streamOwner d) none x → y.media = 0 → d.params.length = 12 → beAt d.params 4 4 < 2 ^ 24 →
        4 ≤ beAt d.params 8 1 → beAt d.params 8 1 ≤ 7 → beAt d.params 9 3 = 0 → (∀ l, y.lastStarted = some l → l < beAt d.params 4 4) →
        y.marks.length < 64 →
        ∃ t r, exec (.refMark d) s = .next t ∧ t.out = s.out ++ [.reply r] ∧ r.status = .ok ∧ t.mem = s.mem ∧ t.dies = s.dies ∧
          ∀ k, k ≠ n → t.stream k = s.stream k)) ∧
    (∀ (s : State) (d : Datagram) (x : Session), Accepted s d 0x0070 false none (some (beAt d.params 0 1)) x → d.params.length = 4 → beAt d.params 0 1 < s.dieCount →
        beAt d.params 1 3 = 0 →
        ∃ t r, exec (.spareQuery d) s = .next t ∧ t.out = s.out ++ [.reply r] ∧ r.status = .ok ∧ t.mem = s.mem ∧ t.dies = s.dies ∧
          t.streams = s.streams)

/-- For accepted requests: a LIST or TRAIN job whose parameters stand is added under the next number for the session's host
where the pools and contexts have room, is NO_RESOURCE where the pools have none and BAD_PARAM at the first parameter that
fails; a LIST job all of whose dies are under recovery is RECOVERING; JOB_STATUS answers its report and changes nothing;
JOB_CANCEL marks the job, empties the queues of a running LIST job, and ends it where no list of it is under way (while no
thread waits for a pool). A training iteration whose lists all run updates the factors and counts; the last writes the
result area, and no other byte after its lists, and completes the job; one whose lists must wait changes nothing. How an
iteration runs is the model's choice (log 91). A lossless job to pack or unpack, or resumed from a token, writes exactly the
runs of its effect and is added under the next number. -/
def Obligations.JobsRunAndEnd : Prop :=
  (∀ (s : State) (d : Datagram) (x : Session), Accepted s d 0x0030 false none none x →
        (s.listRecovering d.params = true → exec (.jobSubmitList d) s = .next ((s.heard x).answer d 0x0030 (.fail .recovering))) ∧
        (beAt d.params 0 1 = 0 → d.params.length = 28 → s.listRecovering d.params = false →
          (∀ f, s.listJobFault d.params = some f → exec (.jobSubmitList d) s = .next ((s.heard x).answer d 0x0030 (.fail .badParam f))) ∧
          (s.listJobFault d.params = none →
            (s.poolsHave (maskDies s (beAt d.params 24 1)) (beAt d.params 16 4) (beAt d.params 20 4) = false → ∃ u : State,
              exec (.jobSubmitList d) s = .next (u.answer d 0x0030 (.fail .noResource)) ∧ u.jobs = s.jobs ∧ u.mem = s.mem ∧ u.threads = s.threads) ∧
            (s.poolsHave (maskDies s (beAt d.params 24 1)) (beAt d.params 16 4) (beAt d.params 20 4) = true →
              beAt d.params 12 4 ≤ 4096 * s.dieCount →
              (s.contexts (s.usableUnits (beAt d.params 24 1)) (List.range (beAt d.params 12 4)) []).isSome = true →
              (∀ j ∈ s.jobs, j.number ≠ s.nextNumber) → ∃ (u : State) (j : Job), exec (.jobSubmitList d) s = .next (u.answer d 0x0030 (.good (beBytes 4 s.nextNumber))) ∧
                u.jobs.length = s.jobs.length + 1 ∧ u.jobs.getLast? = some j ∧ j.number = s.nextNumber ∧ j.owner = x.hostKey ∧ j.kind = .list ∧
                j.cls = beAt d.params 1 1 ∧ j.count = beAt d.params 12 4))) ∧
        (∀ slot img, beAt d.params 0 1 = 1 → beAt d.params 1 1 = 3 → beAt d.params 2 2 = 0 → d.params.length = 228 →
          s.slotOf (trainAsk d.params).digest = some slot → s.slotImage slot = some img → (findSection img 6 0).isSome = true →
          (∀ f, s.trainFault d.params img = some f →
            exec (.jobSubmitTrain d) s = .next ((s.heard x).answer d 0x0030 (.fail .badParam f))) ∧
          (s.trainFault d.params img = none → s.poolsHave (List.range s.dieCount) (granules (factorBytes img (trainAsk d.params)))
              (trainStages img) = true →
            ∃ (u : State) (j : Job), exec (.jobSubmitTrain d) s = .next (u.answer d 0x0030 (.good (beBytes 4 s.nextNumber))) ∧
              u.jobs = s.jobs ++ [j] ∧ j.number = s.nextNumber ∧ j.owner = x.hostKey ∧ j.kind = .train ∧ j.slot = some slot ∧ j.state = 1 ∧
              j.done = 0 ∧ j.count = (trainAsk d.params).iterations ∧ j.factors = s.initialFactors img (trainAsk d.params) ∧ u.mem = s.mem))) ∧
    (∀ (s : State) (d : Datagram) (x : Session) (j : Job), d.params.length = 4 → s.job (beAt d.params 0 4) = some j →
        (Accepted s d 0x0031 false none none x → exec (.jobStatus d) s = .next ((s.heard x).answer d 0x0031
          (.good ([byte (s.jobState j), 0] ++ beBytes 2 (statusCode j.status) ++ beBytes 4 j.done ++ beBytes 8 j.result)))) ∧
        (Accepted s d 0x0032 false (some j.owner) none x →
          ((j.state ≠ 1 ∨ j.kind ≠ .list) →
            exec (.jobCancel d) s = .next (((s.heard x).setJob { j with cancel := true }).answer d 0x0032 (.good []))) ∧
          (j.state = 1 → j.kind = .list → s.noneWaits → ∃ (t : State) (k : Job) (r : Reply), exec (.jobCancel d) s = .next t ∧ t.mem = s.mem ∧
            t.out = s.out ++ [.reply r] ∧ r.status = .ok ∧ t.job j.number = some k ∧ k.cancel = true ∧
            ((∃ h ∈ s.threads, h.isJob = true ∧ h.binding = j.number ∧ h.cur.isSome = true ∧ h.state ≠ .stopped) → k.state = 1 ∧
              ∀ h ∈ t.threads, h.isJob = true → h.binding = j.number → h.queue = []) ∧
            ((∀ h ∈ s.threads, h.isJob = true → h.binding = j.number → h.cur = none ∨ h.state = .stopped) → k.state = 4)))) ∧
    (∀ (s : State) (n slot : Nat) (run : TrainRun) (j : Job) (th : Thread) (img : List Byte) (it : Iteration), s.job n = some j → j.kind = .train →
        j.state = 1 → s.firmwareRuns = true → j.slot = some slot → s.slotImage slot = some img → s.thread run.thread = some th →
        th.isJob = true → th.binding = n → th.state ≠ .stopped → run.factors.length = 2 * j.factors.length →
        run.grads.length = run.factors.length → it = { job := j, ask := trainAsk j.params, img := img, run := run } →
        ((List.range it.ask.batch).foldlM (fun a b => it.tile th b a) (s, []) = .error none → exec (.trainIterationEnd n run) s = .next s) ∧
        (∀ s1 sums, (List.range it.ask.batch).foldlM (fun a b => it.tile th b a) (s, []) = .ok (s1, sums) →
          ∃ fs : List Factor, fs.length = j.factors.length ∧ (∀ (i : Nat) (f : Factor), j.factors[i]? = some f → ∃ g : Factor, fs[i]? = some g ∧
            g.layer = f.layer ∧ g.u.length = f.u.length ∧ g.v.length = f.v.length) ∧
          (j.cancel = false → j.done + 1 ≠ j.count → exec (.trainIterationEnd n run) s =
            .next (s1.setJob { j with done := j.done + 1, factors := fs })) ∧
          (j.cancel = false → j.done + 1 = j.count → s1.memOk → s1.job n = some j → ∃ (t : State) (k : Job),
            exec (.trainIterationEnd n run) s = .next t ∧ t.job n = some k ∧ k.state = 2 ∧ k.done = j.count ∧ k.status = j.status ∧
            (let out := trainOutput img it.ask.rank j.count false fs
             let base := it.ask.output
             t.bytesAt base out.length = out ∧ ∀ a, a < base ∨ base + out.length ≤ a → t.byteAt a = s1.byteAt a)))) ∧
    (∀ (s : State) (d : Datagram) (x : Session) (a : LzAsk) (t : ThreadId), Accepted s d 0x0033 false none none x → d.params.length = 60 →
        a = { pack := beAt d.params 0 1 == 0, cls := beAt d.params 1 1, inp := (brAt d.params 4).1, out := (brAt d.params 20).1,
              result := beAt d.params 36 8, state := beAt d.params 44 8, tokenOut := beAt d.params 52 8 } →
        beAt d.params 0 1 ≤ 1 → a.cls ≤ 3 → (brAt d.params 4).2 = true → (brAt d.params 20).2 = true →
        (a.pack = true → 1 ≤ beAt d.params 2 2 ∧ beAt d.params 2 2 ≤ 256 ∧ stateAreaOk s a.state = true) →
        s.lzSpans [(4, a.inp)] (a.writes 20 36 44 52) = .ok () →
        s.poolsHave (if a.pack then [(s.areaHome a.state).1] else []) (if a.pack ∧ (s.areaHome a.state).2 = false then areaGranules else 0)
          (if a.pack ∧ (s.areaHome a.state).2 then areaGranules else 0) = true →
        s.freeContext (s.usableUnits (2 ^ s.dieCount - 1)) s.nextNumber [] = some t →
        (∀ j ∈ s.jobs, j.number ≠ s.nextNumber) → ∃ (u : State) (r : LzRun) (e : Eff) (j : Job), exec (.lzJob d) s = .next (u.answer d 0x0033 (.good (beBytes 4 s.nextNumber))) ∧
          r = (if a.pack then lzPack (s.bytesAt a.inp.base a.inp.len) (beAt d.params 2 2) a.out.len 0 0
            else lzUnpack (s.bytesAt a.inp.base a.inp.len) a.out.len) ∧
          (∃ depth total window, e = lzEff (!a.pack) depth total a.out.base a.result a.tokenOut window r) ∧
          u.mem = Memory.writeRuns s.mem e.runs ∧ u.jobs.getLast? = some j ∧ j.number = s.nextNumber ∧ j.owner = x.hostKey ∧
          j.kind = (if a.pack then .lzPack else .lzUnpack)) ∧
    (∀ (s : State) (d : Datagram) (x : Session) (token : List Byte) (a : LzAsk) (t : ThreadId) (r : LzRun),
        Accepted s d 0x0034 false none none x → d.params.length = 84 → token = s.bytesAt (beAt d.params 4 8) 40 → leAt token 2 1 ≠ 0 →
        a = { pack := false, cls := beAt d.params 0 1, inp := (brAt d.params 12).1, out := (brAt d.params 28).1
              result := beAt d.params 60 8, state := beAt d.params 68 8, tokenOut := beAt d.params 76 8 } →
        a.cls ≤ 3 → beAt d.params 1 3 = 0 → s.nearSpan ⟨beAt d.params 4 8, 40⟩ = true → (brAt d.params 12).2 = true →
        (brAt d.params 28).2 = true → (brAt d.params 44).2 = true →
        s.lzSpans [(4, ⟨beAt d.params 4 8, 40⟩), (12, a.inp), (44, (brAt d.params 44).1)] (a.writes 28 60 68 76) = .ok () →
        s.freeContext (s.usableUnits (2 ^ s.dieCount - 1)) s.nextNumber [] = some t →
        resumeUnpack token (s.bytesAt a.inp.base a.inp.len) (s.bytesAt (brAt d.params 44).1.base (brAt d.params 44).1.len) a.out.len = some r →
        (∀ j ∈ s.jobs, j.number ≠ s.nextNumber) → ∃ (u : State) (e : Eff) (j : Job), exec (.lzResume d) s = .next (u.answer d 0x0034 (.good (beBytes 4 s.nextNumber))) ∧
          (∃ depth total window, e = lzEff true depth total a.out.base a.result a.tokenOut window r) ∧
          u.mem = Memory.writeRuns s.mem e.runs ∧ u.jobs.getLast? = some j ∧ j.number = s.nextNumber ∧ j.owner = x.hostKey ∧
          j.kind = .lzUnpack)

/-- While the firmware runs, for a stream of a connected queue pair with traffic: an input record that breaks the layout stops
the stream with BAD_PARAM, one of samples is added to the picture that is arriving, an END record of a picture of its raw
size completes it and of another size stops the stream with BAD_SHAPE, and ZBS bytes are added to a decoding stream's input.
An ingest stream's coded error stops it on damage. A picture in turn with its input and placements that may stand starts,
and stops its stream where the profile's slot is empty; a merge on one die writes its layer's copy and no other byte, and a
second for the same picture does nothing. A tile of a started picture whose lists have run on its thread is done. Where a
stream stops or a tile is done, no thread waits for a pool. The oldest picture, all of whose tiles are done, completes: an
encoder gives out PICTURE_END, and its reference slot 0 holds it. A PACER's tick is the latest multiple of its period. -/
def Obligations.PicturesComeAndGo : Prop :=
  (∀ (s : State) (n : Nat) (x : Stream) (q : QueuePair), s.stream n = some x → x.number = n → s.qp x.qpn = some q → q.connected = true →
        s.portAlive q.port = true → s.dieRecovering q.port = false → s.firmwareRuns = true → x.state = .open_ → s.noneWaits →
        (∀ b : List Byte, (b.length < 16 ∨ leAt b 0 2 ≠ 0x5A49 ∨ 1 < leAt b 3 1 ∨ leAt b 12 4 ≠ 0 ∨ b.length ≠ 16 + leAt b 8 4) →
          ∃ (t : State) (y : Stream), exec (.inputRecord n b) s = .next t ∧ t.stream n = some y ∧ y.state = .stopped ∧
            y.status = .badParam ∧ t.mem = s.mem) ∧
        (∀ data : List Byte, data.length < 2 ^ 32 →
          (x.dir = .decode → ∃ (t : State) (y : Stream),
            exec (.inputRecord n (leBytes 2 0x5A49 ++ [2, 0] ++ leBytes 4 0 ++ leBytes 4 data.length ++ zeros 4 ++ data)) s = .next t ∧
            t.stream n = some y ∧ y.state = .open_ ∧ y.inBytes = x.inBytes ++ data ∧ y.pics = x.pics ∧ t.mem = s.mem) ∧
          (x.dir = .encode → x.nextInput < 2 ^ 24 →
            (x.incoming.samples.length + data.length ≤ x.params.rawSize x.media → ∃ (t : State) (y : Stream),
              exec (.inputRecord n (leBytes 2 0x5A49 ++ [0, 0] ++ leBytes 4 x.nextInput ++ leBytes 4 data.length ++ zeros 4 ++ data)) s =
                .next t ∧ t.stream n = some y ∧ y.state = .open_ ∧ y.nextInput = x.nextInput ∧ t.mem = s.mem ∧
              y.incoming.samples = x.incoming.samples ++ data) ∧
            (x.incoming.samples.length + data.length = x.params.rawSize x.media → ∃ (t : State) (y : Stream),
              exec (.inputRecord n (leBytes 2 0x5A49 ++ [0, 1] ++ leBytes 4 x.nextInput ++ leBytes 4 data.length ++ zeros 4 ++ data)) s =
                .next t ∧ t.stream n = some y ∧ y.state = .open_ ∧ y.nextInput = x.nextInput + 1 ∧ y.lastArrival = some s.gts ∧ t.mem = s.mem ∧
              ∃ i ∈ y.inputs, i.complete = true ∧ i.samples = x.incoming.samples ++ data) ∧
            (x.incoming.samples.length + data.length ≠ x.params.rawSize x.media → ∃ (t : State) (y : Stream),
              exec (.inputRecord n (leBytes 2 0x5A49 ++ [0, 1] ++ leBytes 4 x.nextInput ++ leBytes 4 data.length ++ zeros 4 ++ data)) s =
                .next t ∧ t.stream n = some y ∧ y.state = .stopped ∧ y.status = .badShape ∧ t.mem = s.mem)))) ∧
    (∀ (s : State) (n : Nat) (x : Stream), s.stream n = some x → s.firmwareRuns = true → x.dir = .ingest → x.state ≠ .stopped → x.inBytes ≠ [] →
        (Config.ingestDecode x.params.ingestFormat s.freeCtr x.inBytes = none → s.noneWaits → ∃ (t : State) (y : Stream), exec (.ingestDecode n) s = .next t ∧
          t.stream n = some y ∧ y.state = .stopped ∧ y.status = .streamDamaged ∧ y.damage = some ⟨x.nextInput, none, 0x20, 0⟩ ∧ t.mem = s.mem) ∧
        (∀ raw g, Config.ingestDecode x.params.ingestFormat s.freeCtr x.inBytes = some ([(raw, false)], g) →
          (∀ y ∈ s.streams, y.dir = .encode → y.params.source ≠ n) → ∃ (t : State) (y : Stream), exec (.ingestDecode n) s = .next t ∧
          t.stream n = some y ∧ y.inBytes = [] ∧ y.grains = x.grains + g ∧ y.lastPicture = some x.nextInput ∧ y.nextInput = x.nextInput + 1 ∧ t.mem = s.mem ∧
          t.out = s.out ++ [.record n (outRecord 0 x.nextInput 4 [] raw)])) ∧
    (∀ (s : State) (n : Nat) (x : Stream) (p : Pic) (places : List Placement), s.stream n = some x → s.firmwareRuns = true → x.state = .open_ →
        x.turn x.next = true → x.params.adapt ≠ 1 → x.partPlaced (s.strideOf x) = none → s.readyPicture x = some p →
        (s.slotOf x.digest = some x.slot → s.placesOk (x.settings x.next) p.params p.picture (p.unplaced x.media (s.strideOf x)) places = true →
          ∃ (t : State) (y : Stream), exec (.pictureStart n places) s = .next t ∧ t.stream n = some y ∧ y.lastStarted = some x.next ∧
            y.lastQi = p.qi ∧ ∃ r ∈ y.pics, r.picture = x.next ∧ r.started = true) ∧
        (s.slotOf x.digest ≠ some x.slot → s.noneWaits → ∃ (t : State) (y : Stream), exec (.pictureStart n places) s = .next t ∧
          t.stream n = some y ∧ y.state = .stopped ∧ y.status = .profileMissing ∧ t.mem = s.mem)) ∧
    (∀ (s : State) (n : Nat) (x : Stream) (img : List Byte) (wi rank d base : Nat) (w : Weight) (records : List (List Byte)) (code : List Byte),
        s.stream n = some x → s.firmwareRuns = true → s.memOk → x.params.adapt = 1 → x.dir = .encode → x.state ≠ .stopped → x.turn x.next = true →
        s.slotImage x.slot = some img → imageAdapt img = [(wi, rank)] → imageWeight img wi = some w → recordsOk img records = true →
        s.streamDies n = [d] →
        code = (mergedLayer img w (((newDeltas x.deltas x.next records).find? fun (e : DeltaRec) => e.layer == 0).map (·.body))).1 →
        s.copiesOk x img x.next [((⟨wi, x.next % 2, d, base⟩ : MergedCopy), code)] = true →
        (x.mergedFor = some x.next → exec (.adaptMerge n ⟨[(d, [base])], records⟩) s = .next s) ∧
        (x.mergedFor ≠ some x.next → ∃ (t : State) (y : Stream), exec (.adaptMerge n ⟨[(d, [base])], records⟩) s = .next t ∧ t.stream n = some y ∧
          y.mergedFor = some x.next ∧ (⟨wi, x.next % 2, d, base⟩ : MergedCopy) ∈ y.copies ∧ y.deltas = newDeltas x.deltas x.next records ∧
          t.bytesAt base code.length = code ∧ ∀ a, a < base ∨ base + code.length ≤ a → t.byteAt a = s.byteAt a)) ∧
    (∀ (q z : Int) (su sv sw : EV), -128 ≤ (mergeCode q z su sv sw).1 ∧ (mergeCode q z su sv sw).1 ≤ 127) ∧
    (∀ (s : State) (n tile : Nat) (x : Stream) (p : Pic) (w : TileWork) (th : ThreadId) (img : List Byte), s.stream n = some x →
        s.firmwareRuns = true → x.state ≠ .stopped → x.latent = false → s.noneWaits → threadPresent s th = true →
        x.pics.find? (fun (q : Pic) => q.picture == p.picture && q.started) = some p →
        p.tiles.find? (fun w => w.tile == tile && !w.done && w.home == some th) = some w → s.slotImage x.slot = some img → (p.damage.any fun d => d.tile == some tile) = false →
        (w.lists.any (! ·.queued)) = false → s.tileRan n p.picture tile = true →
        x.outputsOk p.params (s.strideOf x) tile (x.bound img p.picture tile th w.lists) = true →
        (x.dir = .encode ∨ tileEndDamage p.params x.media (s.strideOf x) w = none) → ∃ (t : State) (y : Stream),
        exec (.tileComplete n p.picture tile th) s = .next t ∧ t.stream n = some y ∧ t.mem = s.mem ∧
          ∃ p' ∈ y.pics, p'.picture = p.picture ∧ ∃ v ∈ p'.tiles, v.tile = tile ∧ v.done = true) ∧
    (∀ (s : State) (n : Nat) (x : Stream) (p : Pic), s.stream n = some x → x.number = n → s.firmwareRuns = true → x.state = .open_ → x.dir = .encode →
        x.cls ≠ 0 → x.closing = [] → x.params.archive = 0 → x.pics = [p] → p.started = true → p.doom = none → p.picture < 2 ^ 24 - 1 →
        ((∀ k, k < p.params.tiles x.media (s.strideOf x) → ∃ w ∈ p.tiles, w.tile = k ∧ w.done = true) → ∃ (t : State) (y : Stream) (dg : Option (List Byte)),
          exec (.pictureComplete n) s = .next t ∧ t.stream n = some y ∧ y.lastPicture = some p.picture ∧ y.pics = [] ∧ y.state = .open_ ∧
          (∃ r, y.refs.head? = some r ∧ r.picture = some p.picture) ∧ t.mem = s.mem ∧
          t.out = s.out ++ [.record n (zbsRecord (mkUnit 7 (pictureEndBody p.picture dg)))]) ∧
        ((∃ k < p.params.tiles x.media (s.strideOf x), ∀ w ∈ p.tiles, w.tile = k → w.done = false) → exec (.pictureComplete n) s = .next s)) ∧
    (∀ s : State, s.phase = .running → s.hulT7.toNat % 4 = 2 → 0 < s.hulT7.toNat / 256 → ∃ t : State, exec .pacerTick s = .next t ∧
        t = { s with t7At := t.t7At } ∧ t.t7At ≤ s.gts ∧ s.gts < t.t7At + s.hulT7.toNat / 256 * 1000 ∧
        t.t7At % (s.hulT7.toNat / 256 * 1000) = 0)

/-- For a decoding stream that is not stopped or closing, with no stop pending, whose input begins with a unit of the type
named: a first stream header whose fields stand gives the geometry and the first picture; a picture header in turn begins
the picture with its QI; a DELTA, ROI, METADATA or TILE unit in its place is added to the picture in hand; PICTURE_END ends
it; STREAM_END is noted; in each case the unit is taken from the input, and only the stream changes. A unit whose CRC fails,
and a type that is not listed, stop a stream with no picture in hand on damage, with cause 1 and with cause 0x20, detail 1.
A command for one type leaves a unit of another type where it is. -/
def Obligations.UnitsAreReadInOrder : Prop :=
  ∀ (s : State) (n : Nat) (x : Stream) (b rest : List Byte), s.stream n = some x → x.number = n → x.state = .open_ → x.dir = .decode → x.closing = [] →
      x.endSeen = false → s.firmwareRuns = true → (∀ p ∈ x.pics, p.doom = none) → b.length + 4 ≤ 0x7FFFFFFF →
      (x.inBytes = mkUnit 1 b ++ rest → b.length = 60 → beAt b 0 2 = 0x5A42 → beAt b 2 1 = 1 → beAt b 3 1 = x.media →
        (slice b 4 32 = x.digest → headerFieldsOk (s.kindOf x) b = true → x.header = [] → x.pics = [] → headerBefore (beAt b 41 3) (beAt b 38 2) = true →
          exec (.streamHeader n) s = .next (s.setStream { x with
            inBytes := rest, header := b, headerPending := some b, firstPicture := some (beAt b 41 3), params := x.params.ofHeader x.media b })) ∧
        (slice b 4 32 ≠ x.digest → x.pics = [] → ∃ (t : State) (y : Stream), exec (.streamHeader n) s = .next t ∧ t.stream n = some y ∧
          y.state = .stopped ∧ y.status = .profileMismatch ∧ t.mem = s.mem)) ∧
      (x.inBytes = mkUnit 2 b ++ rest → b.length = 24 → x.header ≠ [] → beAt b 0 1 = 0 → pictureFieldsOk x.params x.media (s.strideOf x) b = true →
        x.current = none → x.lastRead ≠ some (2 ^ 24 - 1) → beAt b 1 3 = x.expected →
        (match x.headerPending with | some h => beAt h 41 3 = x.expected | none => headerBefore x.expected x.params.refreshN = false) →
        ∃ (t : State) (y : Stream) (p : Pic), exec (.pictureHeader n) s = .next t ∧ t = { s with streams := t.streams } ∧ t.stream n = some y ∧
          y.inBytes = rest ∧ y.pics = x.pics ++ [p] ∧ p.picture = beAt b 1 3 ∧ p.qi = beAt b 4 1 ∧ p.header = b ∧ p.ended = false ∧ p.started = false ∧
          y.headerPending = none) ∧
      (∀ p, x.current = some p →
        (∀ img, x.inBytes = mkUnit 3 b ++ rest → s.slotImage x.slot = some img → 28 ≤ b.length →
          b.length = 28 + leAt b 4 2 * leAt b 1 1 + leAt b 1 1 * leAt b 8 4 → bit (beAt x.header 36 2) 2 = true → x.params.adapt = 1 →
          deltaFieldsOk img b = true → p.deltas.length < p.ndelta → p.hasRoi = false → p.hasMeta = false → p.tiles = [] →
          (∀ e ∈ p.deltas, leAt e 0 1 < leAt b 0 1) → exec (.delta n) s = .next (s.setStream (({ x with inBytes := rest } : Stream).onPic p.picture fun q =>
            { q with bytes := q.bytes + (b.length + 12), deltas := q.deltas ++ [b] }))) ∧
        (x.inBytes = mkUnit 4 b ++ rest → 4 ≤ b.length → b.length = 4 + 10 * beAt b 0 1 → x.media = 0 → beAt b 0 1 ≠ 0 → beAt b 0 1 ≤ 16 → beAt b 1 3 = 0 →
          (∀ i < beAt b 0 1, roiRectOk x.params b i = true) → p.deltasIn = true → bit p.flags 1 = true → p.hasRoi = false → p.hasMeta = false →
          p.tiles = [] → exec (.roi n) s = .next (s.setStream (({ x with inBytes := rest } : Stream).onPic p.picture fun q =>
            { q with bytes := q.bytes + (b.length + 12), hasRoi := true, roi := roiOf b 4 (beAt b 0 1) }))) ∧
        (∀ m, x.inBytes = mkUnit 5 b ++ rest → lzAll b = some m → m ≠ [] → m.length ≤ 65536 → p.roiIn = true → bit p.flags 3 = true → p.hasMeta = false →
          p.tiles = [] → exec (.metadata n) s = .next (s.setStream (({ x with inBytes := rest } : Stream).onPic p.picture fun q =>
            { q with bytes := q.bytes + (b.length + 12), hasMeta := true, metadata := m }))) ∧
        (x.inBytes = mkUnit 6 b ++ rest → 8 ≤ b.length → b.length = tileLength b → beAt b 0 2 < p.params.tiles x.media (s.strideOf x) →
          (∀ w ∈ p.tiles, w.tile ≠ beAt b 0 2) → p.metaIn = true → exec (.tile n) s =
          .next (s.setStream (({ x with inBytes := rest } : Stream).onPic p.picture fun q =>
            { q with bytes := q.bytes + (b.length + 12), tiles := q.tiles ++ [{ tile := beAt b 0 2, unit := b }] }))) ∧
        (x.inBytes = mkUnit 7 b ++ rest → 8 ≤ b.length → b.length = 8 + 16 * (beAt b 4 1 % 2) → beAt b 0 4 = p.picture →
          beAt b 4 1 = b01 (bit p.flags 4) → beAt b 5 3 = 0 → p.metaIn = true → p.tiles.length = p.params.tiles x.media (s.strideOf x) →
          ∃ (t : State) (y : Stream), exec (.pictureEnd n) s = .next t ∧ t = { s with streams := t.streams } ∧ t.stream n = some y ∧ y.inBytes = rest ∧
            y.state = .open_ ∧ ∃ p' ∈ y.pics, p'.picture = p.picture ∧ p'.ended = true ∧ p'.started = p.started ∧
              p'.digestIn = if beAt b 4 1 = 1 then some (b.drop 8) else none)) ∧
      (x.inBytes = mkUnit 15 b ++ rest → b.length = 4 → beAt b 0 4 = x.lastRead.getD 0xFFFFFFFF → x.current = none → x.headerPending = none →
        exec (.streamEnd n) s = .next (s.setStream { x with inBytes := rest, endSeen := true })) ∧
      (∀ k, k < 256 → x.inBytes = mkUnit k b ++ rest → (k = 0 ∨ (7 < k ∧ k ≠ 15)) → x.pics = [] → ∃ (t : State) (y : Stream),
        exec (.unknownUnit n) s = .next t ∧ t.stream n = some y ∧ y.state = .stopped ∧ y.status = .streamDamaged ∧ t.mem = s.mem ∧
          ∃ g, y.damage = some g ∧ g.cause = 0x20 ∧ g.detail = 1) ∧
      (∀ k u, u.length = b.length + 12 → beAt u 4 4 = b.length + 4 → crc32c (u.take (b.length + 8)) ≠ beAt u (b.length + 8) 4 → leAt u 0 1 = k →
        x.inBytes = u ++ rest → x.pics = [] → ∀ c, (c, k) ∈ [(Instr.streamHeader n, 1), (.pictureHeader n, 2), (.delta n, 3), (.roi n, 4), (.metadata n, 5),
          (.tile n, 6), (.pictureEnd n, 7), (.streamEnd n, 15)] → ∃ (t : State) (y : Stream), exec c s = .next t ∧ t.stream n = some y ∧
          y.state = .stopped ∧ y.status = .streamDamaged ∧ t.mem = s.mem ∧ ∃ g, y.damage = some g ∧ g.cause = 1 ∧ g.detail = 0) ∧
      (∀ c k, (c, k) ∈ [(Instr.streamHeader n, 1), (.pictureHeader n, 2), (.delta n, 3), (.roi n, 4), (.metadata n, 5), (.tile n, 6), (.pictureEnd n, 7),
          (.streamEnd n, 15)] → leAt x.inBytes 0 1 ≠ k → exec c s = .next s)

/-- After reset memory is in canonical form, eight dies are described, GTS is a 64-bit number, and there are two table banks of
which one is active. -/
def Obligations.ResetIsSound : Prop :=
  State.reset.Sound

/-- For every state that is sound (memory in canonical form, eight dies described, GTS a 64-bit number, two table banks of which
one is active), whatever command waits at the front of its queue: when the step answers a next state, that state is sound. -/
def Obligations.StepKeepsSound : Prop :=
  ∀ s t : State, s.Sound → step s = .next t → t.Sound
end

