-- ==== Sys2Proof/Laws/Crypto.lean ====
section
/-! SUPPORT. How long the results of the published functions are. -/

namespace Sys2Proof.Laws

open Sys2Proof Sys2Proof.Machine

/-- A round gives 25 lanes. -/
@[simp] theorem keccakRound_length (a : List (BitVec 64)) (rc : BitVec 64) : (keccakRound a rc).length = 25 := by
  simp [keccakRound]

/-- Rounds keep 25 lanes. -/
theorem rounds_length (l : List (BitVec 64)) : ∀ a : List (BitVec 64), a.length = 25 → (l.foldl keccakRound a).length = 25 := by
  induction l with
  | nil => intro a h; exact h
  | cons r rs ih => intro a _; exact ih _ (keccakRound_length a r)

/-- Absorbing keeps 25 lanes. -/
theorem absorb_length (k : Nat) : ∀ (a : List (BitVec 64)) (bs : List Byte), a.length = 25 → (absorb k a bs).length = 25 := by
  induction k with
  | zero => intro a bs h; exact h
  | succ k ih => intro a bs h; exact ih _ _ (rounds_length _ _ (by simpa [absorbBlock] using h))

/-- The lanes as bytes. -/
theorem laneBytes_length (a : List (BitVec 64)) : (a.flatMap fun l => leBytes 8 l.toNat).length = 8 * a.length := by
  induction a with
  | nil => rfl
  | cons x xs ih => rw [List.flatMap_cons, List.length_append, ih]; simp [leBytes]; omega

/-- One block of output holds up to 136 bytes. -/
theorem sponge_length (dom : Nat) (bs : List Byte) (n : Nat) (h : n ≤ shakeRate) (h0 : 0 < n) : (sponge dom bs n).length = n := by
  have hc : ceilDiv n shakeRate = 1 := by simp only [ceilDiv, shakeRate] at *; omega
  unfold sponge
  simp only [hc, squeeze, List.append_nil, List.length_take, laneBytes_length]
  rw [absorb_length _ _ _ (by simp)]
  simp only [shakeRate] at *
  omega

/-- A command tag is 16 bytes (13 R288). -/
@[simp] theorem cmdTag_length (key body : List Byte) : (cmdTag key body).length = 16 :=
  sponge_length _ _ _ (by decide) (by decide)

end Sys2Proof.Laws
end

