-- ==== Sys2Proof/Laws/Memory.lean ====
section
/-! SUPPORT. Memory: every operation keeps the canonical form, a read after a write gives what was written, and a write leaves every
other address as it was. -/

namespace Sys2Proof.Laws

open Sys2Proof Sys2Proof.Machine

/-- Every listed address lies above `a`. -/
def Above (a : Nat) (m : List Host.Cell) : Prop := ∀ c ∈ m, a < c.1

theorem wf_cons (c : Host.Cell) (m : List Host.Cell) : Memory.wf (c :: m) = true ↔ c.2 ≠ 0 ∧ Above c.1 m ∧ Memory.wf m = true := by
  induction m generalizing c with
  | nil => simp [Memory.wf, Above]
  | cons d rest ih =>
    simp only [Memory.wf, Bool.and_eq_true, bne_iff_ne, ne_eq, decide_eq_true_eq, and_assoc]
    constructor
    · rintro ⟨h1, h2, h3⟩
      refine ⟨h1, ?_, h3⟩
      intro e he
      rcases List.mem_cons.mp he with rfl | he
      · exact h2
      · exact Nat.lt_trans h2 (((ih d).mp h3).2.1 e he)
    · rintro ⟨h1, h2, h3⟩
      exact ⟨h1, h2 d (by simp), h3⟩

theorem above_write (lo : Nat) (m : List Host.Cell) (a : Nat) (b : Byte) (h : Above lo m) (ha : lo < a) :
    Above lo (Memory.write m a b) := by
  induction m with
  | nil =>
    unfold Memory.write
    split <;> intro c hc <;> simp_all
  | cons c rest ih =>
    have hc : lo < c.1 := h c (by simp)
    have hr : Above lo rest := fun e he => h e (by simp [he])
    unfold Memory.write
    split
    · intro e he
      rcases List.mem_cons.mp he with rfl | he
      · exact hc
      · exact ih hr e he
    · split <;> split <;> intro e he <;> try simp only [List.mem_cons] at he
      · exact hr e he
      · rcases he with rfl | he
        · exact ha
        · exact hr e he
      · rcases he with rfl | he
        · exact hc
        · exact hr e he
      · rcases he with rfl | rfl | he
        · exact ha
        · exact hc
        · exact hr e he

/-- Writing one byte keeps the canonical form. -/
theorem wf_write (m : List Host.Cell) (a : Nat) (b : Byte) (h : Memory.wf m = true) : Memory.wf (Memory.write m a b) = true := by
  induction m with
  | nil =>
    unfold Memory.write
    split
    · rfl
    · rename_i hb
      simpa [Memory.wf] using hb
  | cons c rest ih =>
    obtain ⟨h1, h2, h3⟩ := (wf_cons c rest).mp h
    unfold Memory.write
    split
    · rename_i hlt
      exact (wf_cons _ _).mpr ⟨h1, above_write _ _ _ _ h2 hlt, ih h3⟩
    · rename_i hle
      split
      · rename_i heq
        split
        · exact h3
        · rename_i hb
          exact (wf_cons _ _).mpr ⟨hb, by simpa [heq] using h2, h3⟩
      · rename_i hne
        split
        · exact h
        · rename_i hb
          refine (wf_cons _ _).mpr ⟨hb, ?_, h⟩
          intro e he
          have hac : a < c.1 := by omega
          rcases List.mem_cons.mp he with rfl | he
          · exact hac
          · exact Nat.lt_trans hac (h2 e he)

/-- Writing bytes keeps the canonical form. -/
theorem wf_writeBytes (m : List Host.Cell) (a : Nat) (bs : List Byte) (h : Memory.wf m = true) :
    Memory.wf (Memory.writeBytes m a bs) = true := by
  induction bs generalizing m a with
  | nil => exact h
  | cons b bs ih => exact ih _ _ (wf_write m a b h)

/-- Writing runs of bytes keeps the canonical form. -/
theorem wf_writeRuns (m : List Host.Cell) (rs : List (Nat × List Byte)) (h : Memory.wf m = true) :
    Memory.wf (Memory.writeRuns m rs) = true := by
  induction rs generalizing m with
  | nil => exact h
  | cons r rs ih => exact ih _ (wf_writeBytes m r.1 r.2 h)

/-- Clearing a range keeps the canonical form. -/
theorem wf_clear (m : List Host.Cell) (lo hi : Nat) (h : Memory.wf m = true) : Memory.wf (Memory.clear m lo hi) = true := by
  induction m with
  | nil => rfl
  | cons c rest ih =>
    obtain ⟨h1, h2, h3⟩ := (wf_cons c rest).mp h
    unfold Memory.clear
    simp only [List.filter_cons]
    split
    · refine (wf_cons _ _).mpr ⟨h1, ?_, ih h3⟩
      intro e he
      exact h2 e (List.mem_filter.mp he).1
    · exact ih h3

theorem read_above (m : List Host.Cell) (a : Nat) (h : Above a m) : Memory.read m a = 0 := by
  cases m with
  | nil => rfl
  | cons c rest =>
    have hc : a < c.1 := h c (by simp)
    unfold Memory.read
    rw [if_neg (by omega), if_pos hc]

/-- A read after a write: the byte written at its address, every other byte as it was. -/
theorem read_write (m : List Host.Cell) (a : Nat) (b : Byte) (x : Nat) (h : Memory.wf m = true) :
    Memory.read (Memory.write m a b) x = if x = a then b else Memory.read m x := by
  induction m with
  | nil =>
    unfold Memory.write
    split
    · subst b; simp [Memory.read]
    · by_cases hx : x = a
      · subst x; simp [Memory.read]
      · by_cases hl : x < a <;> simp [Memory.read, hx, Ne.symm hx]
  | cons c rest ih =>
    obtain ⟨h1, h2, h3⟩ := (wf_cons c rest).mp h
    unfold Memory.write
    split
    · rename_i hlt
      simp only [Memory.read]
      rw [ih h3]
      by_cases hc : c.1 = x
      · simp [hc, show x ≠ a by omega]
      · simp only [hc, if_false]
        by_cases hx : x < c.1
        · simp [hx, show x ≠ a by omega]
        · simp [hx]
    · rename_i hle
      split
      · rename_i heq
        split
        · rename_i hb
          subst b
          by_cases hx : x = a
          · subst x; simp only [if_true]
            exact read_above _ _ (by simpa [heq] using h2)
          · simp only [hx, if_false, Memory.read, heq, Ne.symm hx]
            by_cases hl : x < a
            · simp only [hl, if_true]
              exact read_above _ _ (fun e he => by have := h2 e he; omega)
            · simp [hl]
        · by_cases hx : x = a
          · subst x; simp [Memory.read]
          · simp [Memory.read, hx, Ne.symm hx, heq]
      · rename_i hne
        have hac : a < c.1 := by omega
        split
        · rename_i hb
          subst b
          by_cases hx : x = a
          · subst x; simp [Memory.read, hac, show c.1 ≠ a by omega]
          · simp [hx]
        · by_cases hx : x = a
          · subst x; simp [Memory.read]
          · by_cases hl : x < a
            · simp [Memory.read, hx, Ne.symm hx, hl, show c.1 ≠ x by omega, show x < c.1 by omega]
            · simp [Memory.read, hx, Ne.symm hx, hl]

/-- Bytes written leave every address outside them as it was. -/
theorem read_writeBytes_outside (m : List Host.Cell) (a : Nat) (bs : List Byte) (x : Nat) (h : Memory.wf m = true)
    (hx : x < a ∨ a + bs.length ≤ x) : Memory.read (Memory.writeBytes m a bs) x = Memory.read m x := by
  induction bs generalizing m a with
  | nil => rfl
  | cons b bs ih =>
    simp only [List.length_cons] at hx
    simp only [Memory.writeBytes]
    rw [ih _ _ (wf_write m a b h) (by omega), read_write m a b x h, if_neg (by omega)]

/-- A byte written is read back. -/
theorem read_writeBytes_inside (m : List Host.Cell) (a : Nat) (bs : List Byte) (i : Nat) (h : Memory.wf m = true) (hi : i < bs.length) :
    Memory.read (Memory.writeBytes m a bs) (a + i) = bs[i] := by
  induction bs generalizing m a i with
  | nil => simp at hi
  | cons b bs ih =>
    simp only [Memory.writeBytes]
    cases i with
    | zero =>
      rw [read_writeBytes_outside _ _ _ _ (wf_write m a b h) (by omega), read_write m a b _ h]
      simp
    | succ i =>
      have := ih (Memory.write m a b) (a + 1) i (wf_write m a b h) (by simpa using hi)
      rw [show a + (i + 1) = a + 1 + i by omega, this]
      simp

/-- Runs written leave every address outside them as it was. -/
theorem read_writeRuns_outside (m : List Host.Cell) (rs : List (Nat × List Byte)) (x : Nat) (h : Memory.wf m = true)
    (hx : outsideRuns x rs) : Memory.read (Memory.writeRuns m rs) x = Memory.read m x := by
  induction rs generalizing m with
  | nil => rfl
  | cons r rs ih =>
    simp only [Memory.writeRuns]
    rw [ih _ (wf_writeBytes m r.1 r.2 h) (fun q hq => hx q (by simp [hq])),
      read_writeBytes_outside m r.1 r.2 x h (hx r (by simp))]

end Sys2Proof.Laws
end

