-- ==== Sys2Proof/Laws/PerInstr.lean ====
section
/-! SUPPORT. A law of every command as syntax: the dies and ports that a well-formed command names are among the eight that the
largest part has (00 R1, R4). -/

namespace Sys2Proof.Laws.Listed

open Sys2Proof

/-- The die of a reset domain, where it is of one die. -/
def domainNames : Domain → List Nat
  | .region d _ => [d]
  | .die d => [d]
  | .package => []

/-- The dies and ports a command names. -/
def named : Instr → List Nat
  | .hello d => [d.port]
  | .sessionOpen d => [d.port]
  | .sessionClose d => [d.port]
  | .capsQuery d => [d.port]
  | .profileLoadStage d => [d.port]
  | .profileLoadCommit d => [d.port]
  | .profileLoadAbandon d => [d.port]
  | .bankSwitch => []
  | .profileUnload d => [d.port]
  | .profileQuery d => [d.port]
  | .admitReq d => [d.port]
  | .streamOpen d => [d.port]
  | .streamConfig d => [d.port]
  | .streamClose d => [d.port]
  | .streamStatus d => [d.port]
  | .rateSet d => [d.port]
  | .roiSet d => [d.port]
  | .refMark d => [d.port]
  | .jobSubmitList d => [d.port]
  | .jobSubmitTrain d => [d.port]
  | .jobStatus d => [d.port]
  | .jobCancel d => [d.port]
  | .lzJob d => [d.port]
  | .lzResume d => [d.port]
  | .regRead d => [d.port]
  | .regWrite d => [d.port]
  | .eventRead d => [d.port]
  | .stickyClear d => [d.port]
  | .counterRead d => [d.port]
  | .lifelogRead d => [d.port]
  | .crashRead d => [d.port]
  | .fwStage d => [d.port]
  | .fwVerify d => [d.port]
  | .fwActivate d => [d.port]
  | .fwFlashWriteDone _ => []
  | .spareQuery d => [d.port]
  | .spareEngage d => [d.port]
  | .spareEngaged die _ _ => [die]
  | .islandQuiesce d => [d.port]
  | .islandQuiesceComplete die => [die]
  | .quiesceTileReturn die _ => [die]
  | .islandResume d => [d.port]
  | .channelAutoResume die => [die]
  | .recal d => [d.port]
  | .attest d => [d.port]
  | .recover d => [d.port]
  | .recoverLoadStage d => [d.port]
  | .recoverLoadCommit d _ => [d.port]
  | .recoverReboot => []
  | .partnerConfig d => [d.port]
  | .twinConfigEnable d => [d.port]
  | .twinConfigDisable d => [d.port]
  | .twinEnableTimeout => []
  | .timeSyncRead d => [d.port]
  | .timeSyncAlign d => [d.port]
  | .timeSyncTrack _ => []
  | .vcoreTarget => []
  | .vcoreMeasured => []
  | .temperature => []
  | .power => []
  | .status => []
  | .clkRgn a _ => [a.die]
  | .pwrLimit a => [a.die]
  | .sprSvcMode a => [a.die]
  | .sprThresh a _ => [a.die]
  | .hulLimits a => [a.die]
  | .hulMode a => [a.die]
  | .indData a _ => [a.die]
  | .evtSticky a _ _ => [a.die]
  | .evtAlert a _ _ => [a.die]
  | .ethMode a => [a.die]
  | .ethCfgApply a => [a.die]
  | .ethCfgSave a => [a.die]
  | .lifCtrlSave a => [a.die]
  | .hulEvtOut a => [a.die]
  | .hulT7 a => [a.die]
  | .matmul t => [t.die]
  | .conv t => [t.die]
  | .dwconv t => [t.die]
  | .gconv t => [t.die]
  | .splitkReduce t => [t.die]
  | .eltwise t => [t.die]
  | .reduce t => [t.die]
  | .poolMax t => [t.die]
  | .poolAvg t => [t.die]
  | .s2d t => [t.die]
  | .d2s t => [t.die]
  | .upsample t => [t.die]
  | .copy t => [t.die]
  | .transpose t => [t.die]
  | .concat t => [t.die]
  | .sfu t => [t.die]
  | .gate t => [t.die]
  | .norm t => [t.die]
  | .softmax t => [t.die]
  | .qscan t => [t.die]
  | .qconv t => [t.die]
  | .requant t => [t.die]
  | .rng t => [t.die]
  | .enc t => [t.die]
  | .dec t => [t.die]
  | .lzPack t => [t.die]
  | .lzUnpack t => [t.die]
  | .msearch t => [t.die]
  | .warp t => [t.die]
  | .load t => [t.die]
  | .store t => [t.die]
  | .prefetch t => [t.die]
  | .atomicAdd t => [t.die]
  | .fence t => [t.die]
  | .barrier t => [t.die]
  | .wait t => [t.die]
  | .waitSatisfied t => [t.die]
  | .waitTimeout t => [t.die]
  | .signal t => [t.die]
  | .checkpoint t => [t.die]
  | .listQueued t _ => [t.die]
  | .chunkComplete die _ _ _ => [die]
  | .operationComplete t _ => [t.die]
  | .chunkLimitExpiry die _ _ => [die]
  | .threadWaitExpiry t => [t.die]
  | .progressMonitor die _ => [die]
  | .poolStall die _ => [die]
  | .uncorrectableError _ _ _ => []
  | .correctableError die _ _ => [die]
  | .bridgeError die _ _ => [die]
  | .fenceDrainComplete dom => domainNames dom
  | .sampleComplete dom => domainNames dom
  | .resetSelftestComplete dom _ => domainNames dom
  | .retrainComplete dom => domainNames dom
  | .restoreComplete dom _ => domainNames dom
  | .replayRoundEnd dom => domainNames dom
  | .recoveryStepTimeout dom => domainNames dom
  | .watchdogExpiry => []
  | .pacerTick => []
  | .pictureStart _ places => places.map (·.thread.die)
  | .adaptMerge _ run => run.bases.map (·.1)
  | .tileComplete _ _ _ t => [t.die]
  | .pictureComplete _ => []
  | .trainIterationEnd _ run => [run.thread.die]
  | .ingestDecode _ => []
  | .inputRecord _ _ => []
  | .streamHeader _ => []
  | .pictureHeader _ => []
  | .delta _ => []
  | .roi _ => []
  | .metadata _ => []
  | .tile _ => []
  | .pictureEnd _ => []
  | .streamEnd _ => []
  | .rdmaWrite _ _ _ _ => []
  | .cmReq _ _ _ _ _ => []
  | .rnrNak _ => []
  | .ceMarkedPacket _ => []
  | .cnp _ => []
  | .cnpRateIncrease _ => []
  | .pfcFrame port _ => [port]
  | .arp port _ _ _ => [port]
  | .neighbourDiscovery port _ _ _ => [port]
  | .icmpEcho port _ _ _ _ _ => [port]
  | .sync port _ _ => [port]
  | .followUp port _ _ _ => [port]
  | .delayReq port => [port]
  | .delayResp port _ _ _ => [port]
  | .ethPortDown port => [port]
  | .ethPortUp port => [port]
  | .networkDownTimeout _ => []
  | .badFlit port _ => [port]
  | .retryReq port _ => [port]
  | .retryMark port => [port]
  | .retryReqResend port => [port]
  | .laneMap port _ => [port]
  | .rdReq p => [p.port]
  | .rdResp p => [p.port]
  | .wr p => [p.port]
  | .wrAck p => [p.port]
  | .err p => [p.port]
  | .ident port _ _ _ _ => [port]
  | .linkTrained port _ => [port]
  | .align port _ => [port]
  | .twin port _ => [port]
  | .config port _ _ => [port]
  | .digest port _ _ _ => [port]
  | .twinDigestTimeout _ => []
  | .partnerAccessTimeout port _ => [port]
  | .provisionalSessionExpiry _ => []
  | .sessionIdleExpiry _ => []
  | .ticketExpiry _ => []
  | .powerControllerTick die _ _ _ => [die]
  | .classGateTimer die => [die]
  | .vcoreTargetWait die _ => [die]
  | .thermalTrip die _ _ => [die]
  | .pwrGoodFall => []
  | .resetNAssert _ => []
  | .resetNRelease _ => []
  | .lpddr5xTrained die _ => [die]
  | .ppsIn => []
  | .ppsOutput => []
  | .lifelogSample _ => []
  | .lifelogSaveTimer => []
  | .lifelogSaveComplete _ => []
  | .unknownOpcode _ d => [d.port]
  | .unsupportedFrame port _ => [port]
  | .ethCfgSaveComplete die => [die]
  | .recalComplete die _ => [die]
  | .islandResumeComplete die => [die]
  | .partnerLaneFailure port _ => [port]
  | .idleFlit port _ _ _ => [port]
  | .unknownUnit _ => []
  | .imageCheckComplete die _ _ => [die]

/-- A well-formed command names only dies and ports that a part can have. -/
def Statement (i : Instr) : Prop := wellFormed i = true → ∀ n ∈ named i, n < 8

/-- The halves of a conjunction of checks. -/
theorem left_check {p q : Bool} (h : (p && q) = true) : p = true := by simp_all

theorem right_check {p q : Bool} (h : (p && q) = true) : q = true := by simp_all

/-- A command that names no die or port. -/
theorem names_none {p : Bool} : p = true → ∀ n ∈ ([] : List Nat), n < 8 := by simp

/-- A command that names one die or port. -/
theorem names_one {p : Bool} {m : Nat} (h : p = true → m < 8) : p = true → ∀ n ∈ [m], n < 8 := by simp_all

/-- A datagram's port. -/
theorem datagram_port {d : Datagram} (h : Datagram.wf d = true) : d.port < 8 := by simp_all [Datagram.wf]

/-- An access's die. -/
theorem access_die {a : Access} (h : Access.wf a = true) : a.die < 8 := by simp_all [Access.wf]

/-- A thread's die. -/
theorem thread_die {t : ThreadId} (h : ThreadId.wf t = true) : t.die < 8 := by simp_all [ThreadId.wf]

/-- A packet's port. -/
theorem partner_port {p : PartnerPacket} (h : PartnerPacket.wf p = true) : p.port < 8 := by simp_all [PartnerPacket.wf]

/-- A command of a domain. -/
theorem names_domain {p : Bool} {x : Domain} (h : p = true → Domain.wf x = true) : p = true → ∀ n ∈ domainNames x, n < 8 := by
  intro hp; have := h hp; cases x <;> simp_all [Domain.wf, domainNames]

theorem hello (d : Datagram) : Statement (.hello d) :=
  names_one fun h => datagram_port h

theorem sessionOpen (d : Datagram) : Statement (.sessionOpen d) :=
  names_one fun h => datagram_port h

theorem sessionClose (d : Datagram) : Statement (.sessionClose d) :=
  names_one fun h => datagram_port h

theorem capsQuery (d : Datagram) : Statement (.capsQuery d) :=
  names_one fun h => datagram_port h

theorem profileLoadStage (d : Datagram) : Statement (.profileLoadStage d) :=
  names_one fun h => datagram_port h

theorem profileLoadCommit (d : Datagram) : Statement (.profileLoadCommit d) :=
  names_one fun h => datagram_port h

theorem profileLoadAbandon (d : Datagram) : Statement (.profileLoadAbandon d) :=
  names_one fun h => datagram_port h

theorem bankSwitch : Statement .bankSwitch :=
  names_none

theorem profileUnload (d : Datagram) : Statement (.profileUnload d) :=
  names_one fun h => datagram_port h

theorem profileQuery (d : Datagram) : Statement (.profileQuery d) :=
  names_one fun h => datagram_port h

theorem admitReq (d : Datagram) : Statement (.admitReq d) :=
  names_one fun h => datagram_port h

theorem streamOpen (d : Datagram) : Statement (.streamOpen d) :=
  names_one fun h => datagram_port h

theorem streamConfig (d : Datagram) : Statement (.streamConfig d) :=
  names_one fun h => datagram_port h

theorem streamClose (d : Datagram) : Statement (.streamClose d) :=
  names_one fun h => datagram_port h

theorem streamStatus (d : Datagram) : Statement (.streamStatus d) :=
  names_one fun h => datagram_port h

theorem rateSet (d : Datagram) : Statement (.rateSet d) :=
  names_one fun h => datagram_port h

theorem roiSet (d : Datagram) : Statement (.roiSet d) :=
  names_one fun h => datagram_port h

theorem refMark (d : Datagram) : Statement (.refMark d) :=
  names_one fun h => datagram_port h

theorem jobSubmitList (d : Datagram) : Statement (.jobSubmitList d) :=
  names_one fun h => datagram_port h

theorem jobSubmitTrain (d : Datagram) : Statement (.jobSubmitTrain d) :=
  names_one fun h => datagram_port h

theorem jobStatus (d : Datagram) : Statement (.jobStatus d) :=
  names_one fun h => datagram_port h

theorem jobCancel (d : Datagram) : Statement (.jobCancel d) :=
  names_one fun h => datagram_port h

theorem lzJob (d : Datagram) : Statement (.lzJob d) :=
  names_one fun h => datagram_port h

theorem lzResume (d : Datagram) : Statement (.lzResume d) :=
  names_one fun h => datagram_port h

theorem regRead (d : Datagram) : Statement (.regRead d) :=
  names_one fun h => datagram_port h

theorem regWrite (d : Datagram) : Statement (.regWrite d) :=
  names_one fun h => datagram_port h

theorem eventRead (d : Datagram) : Statement (.eventRead d) :=
  names_one fun h => datagram_port h

theorem stickyClear (d : Datagram) : Statement (.stickyClear d) :=
  names_one fun h => datagram_port h

theorem counterRead (d : Datagram) : Statement (.counterRead d) :=
  names_one fun h => datagram_port h

theorem lifelogRead (d : Datagram) : Statement (.lifelogRead d) :=
  names_one fun h => datagram_port h

theorem crashRead (d : Datagram) : Statement (.crashRead d) :=
  names_one fun h => datagram_port h

theorem fwStage (d : Datagram) : Statement (.fwStage d) :=
  names_one fun h => datagram_port h

theorem fwVerify (d : Datagram) : Statement (.fwVerify d) :=
  names_one fun h => datagram_port h

theorem fwActivate (d : Datagram) : Statement (.fwActivate d) :=
  names_one fun h => datagram_port h

theorem fwFlashWriteDone (ok : Bool) : Statement (.fwFlashWriteDone ok) :=
  names_none

theorem spareQuery (d : Datagram) : Statement (.spareQuery d) :=
  names_one fun h => datagram_port h

theorem spareEngage (d : Datagram) : Statement (.spareEngage d) :=
  names_one fun h => datagram_port h

theorem spareEngaged (die : Nat) (kind : Nat) (target : Nat) : Statement (.spareEngaged die kind target) :=
  names_one fun h => of_decide_eq_true (left_check h)

theorem islandQuiesce (d : Datagram) : Statement (.islandQuiesce d) :=
  names_one fun h => datagram_port h

theorem islandQuiesceComplete (die : Nat) : Statement (.islandQuiesceComplete die) :=
  names_one fun h => of_decide_eq_true h

theorem quiesceTileReturn (die : Nat) (moved : List (ThreadId × ThreadId)) : Statement (.quiesceTileReturn die moved) :=
  names_one fun h => of_decide_eq_true (left_check h)

theorem islandResume (d : Datagram) : Statement (.islandResume d) :=
  names_one fun h => datagram_port h

theorem channelAutoResume (die : Nat) : Statement (.channelAutoResume die) :=
  names_one fun h => of_decide_eq_true h

theorem recal (d : Datagram) : Statement (.recal d) :=
  names_one fun h => datagram_port h

theorem attest (d : Datagram) : Statement (.attest d) :=
  names_one fun h => datagram_port h

theorem recover (d : Datagram) : Statement (.recover d) :=
  names_one fun h => datagram_port h

theorem recoverLoadStage (d : Datagram) : Statement (.recoverLoadStage d) :=
  names_one fun h => datagram_port h

theorem recoverLoadCommit (d : Datagram) (written : Bool) : Statement (.recoverLoadCommit d written) :=
  names_one fun h => datagram_port h

theorem recoverReboot : Statement .recoverReboot :=
  names_none

theorem partnerConfig (d : Datagram) : Statement (.partnerConfig d) :=
  names_one fun h => datagram_port h

theorem twinConfigEnable (d : Datagram) : Statement (.twinConfigEnable d) :=
  names_one fun h => datagram_port h

theorem twinConfigDisable (d : Datagram) : Statement (.twinConfigDisable d) :=
  names_one fun h => datagram_port h

theorem twinEnableTimeout : Statement .twinEnableTimeout :=
  names_none

theorem timeSyncRead (d : Datagram) : Statement (.timeSyncRead d) :=
  names_one fun h => datagram_port h

theorem timeSyncAlign (d : Datagram) : Statement (.timeSyncAlign d) :=
  names_one fun h => datagram_port h

theorem timeSyncTrack (x : AlignStamps) : Statement (.timeSyncTrack x) :=
  names_none

theorem vcoreTarget : Statement .vcoreTarget :=
  names_none

theorem vcoreMeasured : Statement .vcoreMeasured :=
  names_none

theorem temperature : Statement .temperature :=
  names_none

theorem power : Statement .power :=
  names_none

theorem status : Statement .status :=
  names_none

theorem clkRgn (a : Access) (region : Nat) : Statement (.clkRgn a region) :=
  names_one fun h => access_die (left_check h)

theorem pwrLimit (a : Access) : Statement (.pwrLimit a) :=
  names_one fun h => access_die h

theorem sprSvcMode (a : Access) : Statement (.sprSvcMode a) :=
  names_one fun h => access_die h

theorem sprThresh (a : Access) (kind : Nat) : Statement (.sprThresh a kind) :=
  names_one fun h => access_die (left_check h)

theorem hulLimits (a : Access) : Statement (.hulLimits a) :=
  names_one fun h => access_die h

theorem hulMode (a : Access) : Statement (.hulMode a) :=
  names_one fun h => access_die h

theorem indData (a : Access) (write : Bool) : Statement (.indData a write) :=
  names_one fun h => access_die h

theorem evtSticky (a : Access) (half : Half) (value : DWord) : Statement (.evtSticky a half value) :=
  names_one fun h => access_die h

theorem evtAlert (a : Access) (half : Half) (value : DWord) : Statement (.evtAlert a half value) :=
  names_one fun h => access_die h

theorem ethMode (a : Access) : Statement (.ethMode a) :=
  names_one fun h => access_die h

theorem ethCfgApply (a : Access) : Statement (.ethCfgApply a) :=
  names_one fun h => access_die h

theorem ethCfgSave (a : Access) : Statement (.ethCfgSave a) :=
  names_one fun h => access_die h

theorem lifCtrlSave (a : Access) : Statement (.lifCtrlSave a) :=
  names_one fun h => access_die h

theorem hulEvtOut (a : Access) : Statement (.hulEvtOut a) :=
  names_one fun h => access_die h

theorem hulT7 (a : Access) : Statement (.hulT7 a) :=
  names_one fun h => access_die h

theorem matmul (t : ThreadId) : Statement (.matmul t) :=
  names_one fun h => thread_die h

theorem conv (t : ThreadId) : Statement (.conv t) :=
  names_one fun h => thread_die h

theorem dwconv (t : ThreadId) : Statement (.dwconv t) :=
  names_one fun h => thread_die h

theorem gconv (t : ThreadId) : Statement (.gconv t) :=
  names_one fun h => thread_die h

theorem splitkReduce (t : ThreadId) : Statement (.splitkReduce t) :=
  names_one fun h => thread_die h

theorem eltwise (t : ThreadId) : Statement (.eltwise t) :=
  names_one fun h => thread_die h

theorem reduce (t : ThreadId) : Statement (.reduce t) :=
  names_one fun h => thread_die h

theorem poolMax (t : ThreadId) : Statement (.poolMax t) :=
  names_one fun h => thread_die h

theorem poolAvg (t : ThreadId) : Statement (.poolAvg t) :=
  names_one fun h => thread_die h

theorem s2d (t : ThreadId) : Statement (.s2d t) :=
  names_one fun h => thread_die h

theorem d2s (t : ThreadId) : Statement (.d2s t) :=
  names_one fun h => thread_die h

theorem upsample (t : ThreadId) : Statement (.upsample t) :=
  names_one fun h => thread_die h

theorem copy (t : ThreadId) : Statement (.copy t) :=
  names_one fun h => thread_die h

theorem transpose (t : ThreadId) : Statement (.transpose t) :=
  names_one fun h => thread_die h

theorem concat (t : ThreadId) : Statement (.concat t) :=
  names_one fun h => thread_die h

theorem sfu (t : ThreadId) : Statement (.sfu t) :=
  names_one fun h => thread_die h

theorem gate (t : ThreadId) : Statement (.gate t) :=
  names_one fun h => thread_die h

theorem norm (t : ThreadId) : Statement (.norm t) :=
  names_one fun h => thread_die h

theorem softmax (t : ThreadId) : Statement (.softmax t) :=
  names_one fun h => thread_die h

theorem qscan (t : ThreadId) : Statement (.qscan t) :=
  names_one fun h => thread_die h

theorem qconv (t : ThreadId) : Statement (.qconv t) :=
  names_one fun h => thread_die h

theorem requant (t : ThreadId) : Statement (.requant t) :=
  names_one fun h => thread_die h

theorem rng (t : ThreadId) : Statement (.rng t) :=
  names_one fun h => thread_die h

theorem enc (t : ThreadId) : Statement (.enc t) :=
  names_one fun h => thread_die h

theorem dec (t : ThreadId) : Statement (.dec t) :=
  names_one fun h => thread_die h

theorem lzPack (t : ThreadId) : Statement (.lzPack t) :=
  names_one fun h => thread_die h

theorem lzUnpack (t : ThreadId) : Statement (.lzUnpack t) :=
  names_one fun h => thread_die h

theorem msearch (t : ThreadId) : Statement (.msearch t) :=
  names_one fun h => thread_die h

theorem warp (t : ThreadId) : Statement (.warp t) :=
  names_one fun h => thread_die h

theorem load (t : ThreadId) : Statement (.load t) :=
  names_one fun h => thread_die h

theorem store (t : ThreadId) : Statement (.store t) :=
  names_one fun h => thread_die h

theorem prefetch (t : ThreadId) : Statement (.prefetch t) :=
  names_one fun h => thread_die h

theorem atomicAdd (t : ThreadId) : Statement (.atomicAdd t) :=
  names_one fun h => thread_die h

theorem fence (t : ThreadId) : Statement (.fence t) :=
  names_one fun h => thread_die h

theorem barrier (t : ThreadId) : Statement (.barrier t) :=
  names_one fun h => thread_die h

theorem wait (t : ThreadId) : Statement (.wait t) :=
  names_one fun h => thread_die h

theorem waitSatisfied (t : ThreadId) : Statement (.waitSatisfied t) :=
  names_one fun h => thread_die h

theorem waitTimeout (t : ThreadId) : Statement (.waitTimeout t) :=
  names_one fun h => thread_die h

theorem signal (t : ThreadId) : Statement (.signal t) :=
  names_one fun h => thread_die h

theorem checkpoint (t : ThreadId) : Statement (.checkpoint t) :=
  names_one fun h => thread_die h

theorem listQueued (t : ThreadId) (addr : Nat) : Statement (.listQueued t addr) :=
  names_one fun h => thread_die (left_check h)

theorem chunkComplete (die : Nat) (e : Engine) (place : Nat) (last : Bool) : Statement (.chunkComplete die e place last) :=
  names_one fun h => of_decide_eq_true h

theorem operationComplete (t : ThreadId) (e : Engine) : Statement (.operationComplete t e) :=
  names_one fun h => thread_die h

theorem chunkLimitExpiry (die : Nat) (e : Engine) (place : Nat) : Statement (.chunkLimitExpiry die e place) :=
  names_one fun h => of_decide_eq_true h

theorem threadWaitExpiry (t : ThreadId) : Statement (.threadWaitExpiry t) :=
  names_one fun h => thread_die h

theorem progressMonitor (die : Nat) (region : Nat) : Statement (.progressMonitor die region) :=
  names_one fun h => of_decide_eq_true (left_check h)

theorem poolStall (die : Nat) (pool : Nat) : Statement (.poolStall die pool) :=
  names_one fun h => of_decide_eq_true (left_check h)

theorem uncorrectableError (kind : MemKind) (addr : Nat) (reader : Option ThreadId) : Statement (.uncorrectableError kind addr reader) :=
  names_none

theorem correctableError (die : Nat) (e : Element) (target : Nat) : Statement (.correctableError die e target) :=
  names_one fun h => of_decide_eq_true (left_check h)

theorem bridgeError (die : Nat) (index : Nat) (double : Bool) : Statement (.bridgeError die index double) :=
  names_one fun h => of_decide_eq_true (left_check h)

theorem fenceDrainComplete (dom : Domain) : Statement (.fenceDrainComplete dom) :=
  names_domain fun h => h

theorem sampleComplete (dom : Domain) : Statement (.sampleComplete dom) :=
  names_domain fun h => h

theorem resetSelftestComplete (dom : Domain) (failed : List (Nat × Element)) : Statement (.resetSelftestComplete dom failed) :=
  names_domain fun h => left_check h

theorem retrainComplete (dom : Domain) : Statement (.retrainComplete dom) :=
  names_domain fun h => h

theorem restoreComplete (dom : Domain) (badCopies : List (Nat × Nat)) : Statement (.restoreComplete dom badCopies) :=
  names_domain fun h => left_check h

theorem replayRoundEnd (dom : Domain) : Statement (.replayRoundEnd dom) :=
  names_domain fun h => h

theorem recoveryStepTimeout (dom : Domain) : Statement (.recoveryStepTimeout dom) :=
  names_domain fun h => h

theorem watchdogExpiry : Statement .watchdogExpiry :=
  names_none

theorem pacerTick : Statement .pacerTick :=
  names_none

theorem pictureStart (stream : Nat) (places : List Placement) : Statement (.pictureStart stream places) := by
  intro h; simp_all [Sys2Proof.wellFormed, named, Placement.wf, ThreadId.wf]

theorem adaptMerge (stream : Nat) (run : MergeRun) : Statement (.adaptMerge stream run) := by
  intro h; simp_all [Sys2Proof.wellFormed, named]
  exact fun n l hl => (h.2 n l hl).1

theorem tileComplete (stream : Nat) (picture : Nat) (tile : Nat) (t : ThreadId) : Statement (.tileComplete stream picture tile t) :=
  names_one fun h => thread_die (right_check h)

theorem pictureComplete (stream : Nat) : Statement (.pictureComplete stream) :=
  names_none

theorem trainIterationEnd (job : Nat) (run : TrainRun) : Statement (.trainIterationEnd job run) := by
  intro h; simp_all [Sys2Proof.wellFormed, named, TrainRun.wf, ThreadId.wf]

theorem ingestDecode (stream : Nat) : Statement (.ingestDecode stream) :=
  names_none

theorem inputRecord (stream : Nat) (bytes : List Byte) : Statement (.inputRecord stream bytes) :=
  names_none

theorem streamHeader (stream : Nat) : Statement (.streamHeader stream) :=
  names_none

theorem pictureHeader (stream : Nat) : Statement (.pictureHeader stream) :=
  names_none

theorem delta (stream : Nat) : Statement (.delta stream) :=
  names_none

theorem roi (stream : Nat) : Statement (.roi stream) :=
  names_none

theorem metadata (stream : Nat) : Statement (.metadata stream) :=
  names_none

theorem tile (stream : Nat) : Statement (.tile stream) :=
  names_none

theorem pictureEnd (stream : Nat) : Statement (.pictureEnd stream) :=
  names_none

theorem streamEnd (stream : Nat) : Statement (.streamEnd stream) :=
  names_none

theorem rdmaWrite (qpn : Nat) (addr : Nat) (rkey : Nat) (bytes : List Byte) : Statement (.rdmaWrite qpn addr rkey bytes) :=
  names_none

theorem cmReq (qpn : Nat) (serviceId : Nat) (mtu : Nat) (altGid : Option Nat) (peer : Nat) : Statement (.cmReq qpn serviceId mtu altGid peer) :=
  names_none

theorem rnrNak (qpn : Nat) : Statement (.rnrNak qpn) :=
  names_none

theorem ceMarkedPacket (qpn : Nat) : Statement (.ceMarkedPacket qpn) :=
  names_none

theorem cnp (qpn : Nat) : Statement (.cnp qpn) :=
  names_none

theorem cnpRateIncrease (qpn : Nat) : Statement (.cnpRateIncrease qpn) :=
  names_none

theorem pfcFrame (port : Nat) (pause : List (Option Bool)) : Statement (.pfcFrame port pause) :=
  names_one fun h => of_decide_eq_true (left_check h)

theorem arp (port : Nat) (senderMac : Nat) (senderIp : Nat) (targetIp : Nat) : Statement (.arp port senderMac senderIp targetIp) :=
  names_one fun h => of_decide_eq_true (left_check (left_check (left_check h)))

theorem neighbourDiscovery (port : Nat) (senderMac : Nat) (senderIp : Nat) (targetIp : Nat) : Statement (.neighbourDiscovery port senderMac senderIp targetIp) :=
  names_one fun h => of_decide_eq_true (left_check (left_check (left_check h)))

theorem icmpEcho (port : Nat) (v6 : Bool) (senderMac : Nat) (senderIp : Nat) (targetIp : Nat) (payload : List Byte) : Statement (.icmpEcho port v6 senderMac senderIp targetIp payload) :=
  names_one fun h => of_decide_eq_true (left_check (left_check (left_check h)))

theorem sync (port : Nat) (domain : Nat) (seqId : Nat) : Statement (.sync port domain seqId) :=
  names_one fun h => of_decide_eq_true (left_check (left_check h))

theorem followUp (port : Nat) (domain : Nat) (seqId : Nat) (origin : PtpTime) : Statement (.followUp port domain seqId origin) :=
  names_one fun h => of_decide_eq_true (left_check (left_check (left_check h)))

theorem delayReq (port : Nat) : Statement (.delayReq port) :=
  names_one fun h => of_decide_eq_true h

theorem delayResp (port : Nat) (domain : Nat) (seqId : Nat) (receive : PtpTime) : Statement (.delayResp port domain seqId receive) :=
  names_one fun h => of_decide_eq_true (left_check (left_check (left_check h)))

theorem ethPortDown (port : Nat) : Statement (.ethPortDown port) :=
  names_one fun h => of_decide_eq_true h

theorem ethPortUp (port : Nat) : Statement (.ethPortUp port) :=
  names_one fun h => of_decide_eq_true h

theorem networkDownTimeout (network : Nat) : Statement (.networkDownTimeout network) :=
  names_none

theorem badFlit (port : Nat) (flit : List Byte) : Statement (.badFlit port flit) :=
  names_one fun h => of_decide_eq_true (left_check h)

theorem retryReq (port : Nat) (number : Nat) : Statement (.retryReq port number) :=
  names_one fun h => of_decide_eq_true (left_check h)

theorem retryMark (port : Nat) : Statement (.retryMark port) :=
  names_one fun h => of_decide_eq_true h

theorem retryReqResend (port : Nat) : Statement (.retryReqResend port) :=
  names_one fun h => of_decide_eq_true h

theorem laneMap (port : Nat) (lane : Nat) : Statement (.laneMap port lane) :=
  names_one fun h => of_decide_eq_true (left_check h)

theorem rdReq (p : PartnerPacket) : Statement (.rdReq p) :=
  names_one fun h => partner_port h

theorem rdResp (p : PartnerPacket) : Statement (.rdResp p) :=
  names_one fun h => partner_port h

theorem wr (p : PartnerPacket) : Statement (.wr p) :=
  names_one fun h => partner_port h

theorem wrAck (p : PartnerPacket) : Statement (.wrAck p) :=
  names_one fun h => partner_port h

theorem err (p : PartnerPacket) : Statement (.err p) :=
  names_one fun h => partner_port h

theorem ident (port : Nat) (key : List Byte) (digest : List Byte) (nonce : List Byte) (signature : List Byte) : Statement (.ident port key digest nonce signature) :=
  names_one fun h => of_decide_eq_true (left_check (left_check (left_check (left_check h))))

theorem linkTrained (port : Nat) (ok : Bool) : Statement (.linkTrained port ok) :=
  names_one fun h => of_decide_eq_true h

theorem align (port : Nat) (x : AlignStamps) : Statement (.align port x) :=
  names_one fun h => of_decide_eq_true (left_check h)

theorem twin (port : Nat) (role : Nat) : Statement (.twin port role) :=
  names_one fun h => of_decide_eq_true h

theorem config (port : Nat) (pair : Nat) (digest : List Byte) : Statement (.config port pair digest) :=
  names_one fun h => of_decide_eq_true (left_check h)

theorem digest (port : Nat) (pair : Nat) (picture : Nat) (digest : List Byte) : Statement (.digest port pair picture digest) :=
  names_one fun h => of_decide_eq_true (left_check h)

theorem twinDigestTimeout (stream : Nat) : Statement (.twinDigestTimeout stream) :=
  names_none

theorem partnerAccessTimeout (port : Nat) (tag : Nat) : Statement (.partnerAccessTimeout port tag) :=
  names_one fun h => of_decide_eq_true (left_check h)

theorem provisionalSessionExpiry (session : Nat) : Statement (.provisionalSessionExpiry session) :=
  names_none

theorem sessionIdleExpiry (session : Nat) : Statement (.sessionIdleExpiry session) :=
  names_none

theorem ticketExpiry (ticket : Nat) : Statement (.ticketExpiry ticket) :=
  names_none

theorem powerControllerTick (die : Nat) (power10 : Nat) (power1ms : Nat) (sensors : List Word) : Statement (.powerControllerTick die power10 power1ms sensors) :=
  names_one fun h => of_decide_eq_true (left_check h)

theorem classGateTimer (die : Nat) : Statement (.classGateTimer die) :=
  names_one fun h => of_decide_eq_true h

theorem vcoreTargetWait (die : Nat) (vcore : Nat) : Statement (.vcoreTargetWait die vcore) :=
  names_one fun h => of_decide_eq_true h

theorem thermalTrip (die : Nat) (sensor : Nat) (temp : Int) : Statement (.thermalTrip die sensor temp) :=
  names_one fun h => of_decide_eq_true (left_check h)

theorem pwrGoodFall : Statement .pwrGoodFall :=
  names_none

theorem resetNAssert (widthNs : Nat) : Statement (.resetNAssert widthNs) :=
  names_none

theorem resetNRelease (bootMode : BitVec 2) : Statement (.resetNRelease bootMode) :=
  names_none

theorem lpddr5xTrained (die : Nat) (ok : Bool) : Statement (.lpddr5xTrained die ok) :=
  names_one fun h => of_decide_eq_true h

theorem ppsIn : Statement .ppsIn :=
  names_none

theorem ppsOutput : Statement .ppsOutput :=
  names_none

theorem lifelogSample (deviations : List Int) : Statement (.lifelogSample deviations) :=
  names_none

theorem lifelogSaveTimer : Statement .lifelogSaveTimer :=
  names_none

theorem lifelogSaveComplete (ok : Bool) : Statement (.lifelogSaveComplete ok) :=
  names_none

theorem unknownOpcode (opcode : BitVec 16) (d : Datagram) : Statement (.unknownOpcode opcode d) :=
  names_one fun h => datagram_port h

theorem unsupportedFrame (port : Nat) (why : FrameFault) : Statement (.unsupportedFrame port why) :=
  names_one fun h => of_decide_eq_true h

theorem ethCfgSaveComplete (die : Nat) : Statement (.ethCfgSaveComplete die) :=
  names_one fun h => of_decide_eq_true h

theorem recalComplete (die : Nat) (pass : Bool) : Statement (.recalComplete die pass) :=
  names_one fun h => of_decide_eq_true h

theorem islandResumeComplete (die : Nat) : Statement (.islandResumeComplete die) :=
  names_one fun h => of_decide_eq_true h

theorem partnerLaneFailure (port : Nat) (lane : Nat) : Statement (.partnerLaneFailure port lane) :=
  names_one fun h => of_decide_eq_true (left_check h)

theorem idleFlit (port : Nat) (ack : Nat) (crdVc : Nat) (crd : Nat) : Statement (.idleFlit port ack crdVc crd) :=
  names_one fun h => of_decide_eq_true (left_check (left_check (left_check h)))

theorem unknownUnit (stream : Nat) : Statement (.unknownUnit stream) :=
  names_none

theorem imageCheckComplete (die : Nat) (flashOk : Bool) (selfTestOk : Bool) : Statement (.imageCheckComplete die flashOk selfTestOk) :=
  names_one fun h => of_decide_eq_true h

end Sys2Proof.Laws.Listed
end

