-- ==== Sys2Proof/Laws/State.lean ====
section
/-! SUPPORT. What the updates of State leave: one lemma per update and field, so that no proof unfolds a record update. -/

namespace Sys2Proof.Laws

open Sys2Proof.Machine

variable (s : State)

/-! ### State.onDie -/

@[simp] theorem onDie_pending (d : Nat) (f : Die → Die) : (s.onDie d f).pending = s.pending := rfl
@[simp] theorem onDie_part (d : Nat) (f : Die → Die) : (s.onDie d f).part = s.part := rfl
@[simp] theorem onDie_phase (d : Nat) (f : Die → Die) : (s.onDie d f).phase = s.phase := rfl
@[simp] theorem onDie_gts (d : Nat) (f : Die → Die) : (s.onDie d f).gts = s.gts := rfl
@[simp] theorem onDie_slew (d : Nat) (f : Die → Die) : (s.onDie d f).slew = s.slew := rfl
@[simp] theorem onDie_slewPhase (d : Nat) (f : Die → Die) : (s.onDie d f).slewPhase = s.slewPhase := rfl
@[simp] theorem onDie_freeCtr (d : Nat) (f : Die → Die) : (s.onDie d f).freeCtr = s.freeCtr := rfl
@[simp] theorem onDie_out (d : Nat) (f : Die → Die) : (s.onDie d f).out = s.out := rfl
@[simp] theorem onDie_resetN (d : Nat) (f : Die → Die) : (s.onDie d f).resetN = s.resetN := rfl
@[simp] theorem onDie_pwrGood (d : Nat) (f : Die → Die) : (s.onDie d f).pwrGood = s.pwrGood := rfl
@[simp] theorem onDie_thermTrip (d : Nat) (f : Die → Die) : (s.onDie d f).thermTrip = s.thermTrip := rfl
@[simp] theorem onDie_gtsPps (d : Nat) (f : Die → Die) : (s.onDie d f).gtsPps = s.gtsPps := rfl
@[simp] theorem onDie_align (d : Nat) (f : Die → Die) : (s.onDie d f).align = s.align := rfl
@[simp] theorem onDie_bootMode (d : Nat) (f : Die → Die) : (s.onDie d f).bootMode = s.bootMode := rfl
@[simp] theorem onDie_bootSource (d : Nat) (f : Die → Die) : (s.onDie d f).bootSource = s.bootSource := rfl
@[simp] theorem onDie_bootResult (d : Nat) (f : Die → Die) : (s.onDie d f).bootResult = s.bootResult := rfl
@[simp] theorem onDie_bootDie (d : Nat) (f : Die → Die) : (s.onDie d f).bootDie = s.bootDie := rfl
@[simp] theorem onDie_chainOk (d : Nat) (f : Die → Die) : (s.onDie d f).chainOk = s.chainOk := rfl
@[simp] theorem onDie_image (d : Nat) (f : Die → Die) : (s.onDie d f).image = s.image := rfl
@[simp] theorem onDie_rebootAt (d : Nat) (f : Die → Die) : (s.onDie d f).rebootAt = s.rebootAt := rfl
@[simp] theorem onDie_allow (d : Nat) (f : Die → Die) : (s.onDie d f).allow = s.allow := rfl
@[simp] theorem onDie_log (d : Nat) (f : Die → Die) : (s.onDie d f).log = s.log := rfl
@[simp] theorem onDie_logSeq (d : Nat) (f : Die → Die) : (s.onDie d f).logSeq = s.logSeq := rfl
@[simp] theorem onDie_logAt (d : Nat) (f : Die → Die) : (s.onDie d f).logAt = s.logAt := rfl
@[simp] theorem onDie_flash (d : Nat) (f : Die → Die) : (s.onDie d f).flash = s.flash := rfl
@[simp] theorem onDie_hulPackage (d : Nat) (f : Die → Die) : (s.onDie d f).hulPackage = s.hulPackage := rfl
@[simp] theorem onDie_hulEvtOut (d : Nat) (f : Die → Die) : (s.onDie d f).hulEvtOut = s.hulEvtOut := rfl
@[simp] theorem onDie_hulT7 (d : Nat) (f : Die → Die) : (s.onDie d f).hulT7 = s.hulT7 := rfl
@[simp] theorem onDie_t7At (d : Nat) (f : Die → Die) : (s.onDie d f).t7At = s.t7At := rfl
@[simp] theorem onDie_mem (d : Nat) (f : Die → Die) : (s.onDie d f).mem = s.mem := rfl
@[simp] theorem onDie_threads (d : Nat) (f : Die → Die) : (s.onDie d f).threads = s.threads := rfl
@[simp] theorem onDie_sides (d : Nat) (f : Die → Die) : (s.onDie d f).sides = s.sides := rfl
@[simp] theorem onDie_dynamic (d : Nat) (f : Die → Die) : (s.onDie d f).dynamic = s.dynamic := rfl
@[simp] theorem onDie_barriers (d : Nat) (f : Die → Die) : (s.onDie d f).barriers = s.barriers := rfl
@[simp] theorem onDie_istore (d : Nat) (f : Die → Die) : (s.onDie d f).istore = s.istore := rfl
@[simp] theorem onDie_banks (d : Nat) (f : Die → Die) : (s.onDie d f).banks = s.banks := rfl
@[simp] theorem onDie_activeBank (d : Nat) (f : Die → Die) : (s.onDie d f).activeBank = s.activeBank := rfl
@[simp] theorem onDie_profiles (d : Nat) (f : Die → Die) : (s.onDie d f).profiles = s.profiles := rfl
@[simp] theorem onDie_loading (d : Nat) (f : Die → Die) : (s.onDie d f).loading = s.loading := rfl
@[simp] theorem onDie_sessionCtr (d : Nat) (f : Die → Die) : (s.onDie d f).sessionCtr = s.sessionCtr := rfl
@[simp] theorem onDie_sessions (d : Nat) (f : Die → Die) : (s.onDie d f).sessions = s.sessions := rfl
@[simp] theorem onDie_indRegs (d : Nat) (f : Die → Die) : (s.onDie d f).indRegs = s.indRegs := rfl
@[simp] theorem onDie_staging (d : Nat) (f : Die → Die) : (s.onDie d f).staging = s.staging := rfl
@[simp] theorem onDie_qps (d : Nat) (f : Die → Die) : (s.onDie d f).qps = s.qps := rfl
@[simp] theorem onDie_streams (d : Nat) (f : Die → Die) : (s.onDie d f).streams = s.streams := rfl
@[simp] theorem onDie_jobs (d : Nat) (f : Die → Die) : (s.onDie d f).jobs = s.jobs := rfl
@[simp] theorem onDie_tickets (d : Nat) (f : Die → Die) : (s.onDie d f).tickets = s.tickets := rfl
@[simp] theorem onDie_nextNumber (d : Nat) (f : Die → Die) : (s.onDie d f).nextNumber = s.nextNumber := rfl
@[simp] theorem onDie_routing (d : Nat) (f : Die → Die) : (s.onDie d f).routing = s.routing := rfl
@[simp] theorem onDie_partnerPending (d : Nat) (f : Die → Die) : (s.onDie d f).partnerPending = s.partnerPending := rfl
@[simp] theorem onDie_twin (d : Nat) (f : Die → Die) : (s.onDie d f).twin = s.twin := rfl
@[simp] theorem onDie_recoveries (d : Nat) (f : Die → Die) : (s.onDie d f).recoveries = s.recoveries := rfl
@[simp] theorem onDie_crash (d : Nat) (f : Die → Die) : (s.onDie d f).crash = s.crash := rfl
@[simp] theorem onDie_recoverySeq (d : Nat) (f : Die → Die) : (s.onDie d f).recoverySeq = s.recoverySeq := rfl
@[simp] theorem onDie_activation (d : Nat) (f : Die → Die) : (s.onDie d f).activation = s.activation := rfl
@[simp] theorem onDie_lifeLog (d : Nat) (f : Die → Die) : (s.onDie d f).lifeLog = s.lifeLog := rfl
@[simp] theorem onDie_lifBusy (d : Nat) (f : Die → Die) : (s.onDie d f).lifBusy = s.lifBusy := rfl
@[simp] theorem onDie_lifAgain (d : Nat) (f : Die → Die) : (s.onDie d f).lifAgain = s.lifAgain := rfl
@[simp] theorem onDie_lifOk (d : Nat) (f : Die → Die) : (s.onDie d f).lifOk = s.lifOk := rfl
@[simp] theorem onDie_lifSaving (d : Nat) (f : Die → Die) : (s.onDie d f).lifSaving = s.lifSaving := rfl
@[simp] theorem onDie_lifAt (d : Nat) (f : Die → Die) : (s.onDie d f).lifAt = s.lifAt := rfl

/-! ### State.onDies -/

@[simp] theorem onDies_pending (f : Die → Die) : (s.onDies f).pending = s.pending := rfl
@[simp] theorem onDies_part (f : Die → Die) : (s.onDies f).part = s.part := rfl
@[simp] theorem onDies_phase (f : Die → Die) : (s.onDies f).phase = s.phase := rfl
@[simp] theorem onDies_gts (f : Die → Die) : (s.onDies f).gts = s.gts := rfl
@[simp] theorem onDies_slew (f : Die → Die) : (s.onDies f).slew = s.slew := rfl
@[simp] theorem onDies_slewPhase (f : Die → Die) : (s.onDies f).slewPhase = s.slewPhase := rfl
@[simp] theorem onDies_freeCtr (f : Die → Die) : (s.onDies f).freeCtr = s.freeCtr := rfl
@[simp] theorem onDies_out (f : Die → Die) : (s.onDies f).out = s.out := rfl
@[simp] theorem onDies_resetN (f : Die → Die) : (s.onDies f).resetN = s.resetN := rfl
@[simp] theorem onDies_pwrGood (f : Die → Die) : (s.onDies f).pwrGood = s.pwrGood := rfl
@[simp] theorem onDies_thermTrip (f : Die → Die) : (s.onDies f).thermTrip = s.thermTrip := rfl
@[simp] theorem onDies_gtsPps (f : Die → Die) : (s.onDies f).gtsPps = s.gtsPps := rfl
@[simp] theorem onDies_align (f : Die → Die) : (s.onDies f).align = s.align := rfl
@[simp] theorem onDies_bootMode (f : Die → Die) : (s.onDies f).bootMode = s.bootMode := rfl
@[simp] theorem onDies_bootSource (f : Die → Die) : (s.onDies f).bootSource = s.bootSource := rfl
@[simp] theorem onDies_bootResult (f : Die → Die) : (s.onDies f).bootResult = s.bootResult := rfl
@[simp] theorem onDies_bootDie (f : Die → Die) : (s.onDies f).bootDie = s.bootDie := rfl
@[simp] theorem onDies_chainOk (f : Die → Die) : (s.onDies f).chainOk = s.chainOk := rfl
@[simp] theorem onDies_image (f : Die → Die) : (s.onDies f).image = s.image := rfl
@[simp] theorem onDies_rebootAt (f : Die → Die) : (s.onDies f).rebootAt = s.rebootAt := rfl
@[simp] theorem onDies_allow (f : Die → Die) : (s.onDies f).allow = s.allow := rfl
@[simp] theorem onDies_log (f : Die → Die) : (s.onDies f).log = s.log := rfl
@[simp] theorem onDies_logSeq (f : Die → Die) : (s.onDies f).logSeq = s.logSeq := rfl
@[simp] theorem onDies_logAt (f : Die → Die) : (s.onDies f).logAt = s.logAt := rfl
@[simp] theorem onDies_flash (f : Die → Die) : (s.onDies f).flash = s.flash := rfl
@[simp] theorem onDies_hulPackage (f : Die → Die) : (s.onDies f).hulPackage = s.hulPackage := rfl
@[simp] theorem onDies_hulEvtOut (f : Die → Die) : (s.onDies f).hulEvtOut = s.hulEvtOut := rfl
@[simp] theorem onDies_hulT7 (f : Die → Die) : (s.onDies f).hulT7 = s.hulT7 := rfl
@[simp] theorem onDies_t7At (f : Die → Die) : (s.onDies f).t7At = s.t7At := rfl
@[simp] theorem onDies_mem (f : Die → Die) : (s.onDies f).mem = s.mem := rfl
@[simp] theorem onDies_threads (f : Die → Die) : (s.onDies f).threads = s.threads := rfl
@[simp] theorem onDies_sides (f : Die → Die) : (s.onDies f).sides = s.sides := rfl
@[simp] theorem onDies_dynamic (f : Die → Die) : (s.onDies f).dynamic = s.dynamic := rfl
@[simp] theorem onDies_barriers (f : Die → Die) : (s.onDies f).barriers = s.barriers := rfl
@[simp] theorem onDies_istore (f : Die → Die) : (s.onDies f).istore = s.istore := rfl
@[simp] theorem onDies_banks (f : Die → Die) : (s.onDies f).banks = s.banks := rfl
@[simp] theorem onDies_activeBank (f : Die → Die) : (s.onDies f).activeBank = s.activeBank := rfl
@[simp] theorem onDies_profiles (f : Die → Die) : (s.onDies f).profiles = s.profiles := rfl
@[simp] theorem onDies_loading (f : Die → Die) : (s.onDies f).loading = s.loading := rfl
@[simp] theorem onDies_sessionCtr (f : Die → Die) : (s.onDies f).sessionCtr = s.sessionCtr := rfl
@[simp] theorem onDies_sessions (f : Die → Die) : (s.onDies f).sessions = s.sessions := rfl
@[simp] theorem onDies_indRegs (f : Die → Die) : (s.onDies f).indRegs = s.indRegs := rfl
@[simp] theorem onDies_staging (f : Die → Die) : (s.onDies f).staging = s.staging := rfl
@[simp] theorem onDies_qps (f : Die → Die) : (s.onDies f).qps = s.qps := rfl
@[simp] theorem onDies_streams (f : Die → Die) : (s.onDies f).streams = s.streams := rfl
@[simp] theorem onDies_jobs (f : Die → Die) : (s.onDies f).jobs = s.jobs := rfl
@[simp] theorem onDies_tickets (f : Die → Die) : (s.onDies f).tickets = s.tickets := rfl
@[simp] theorem onDies_nextNumber (f : Die → Die) : (s.onDies f).nextNumber = s.nextNumber := rfl
@[simp] theorem onDies_routing (f : Die → Die) : (s.onDies f).routing = s.routing := rfl
@[simp] theorem onDies_partnerPending (f : Die → Die) : (s.onDies f).partnerPending = s.partnerPending := rfl
@[simp] theorem onDies_twin (f : Die → Die) : (s.onDies f).twin = s.twin := rfl
@[simp] theorem onDies_recoveries (f : Die → Die) : (s.onDies f).recoveries = s.recoveries := rfl
@[simp] theorem onDies_crash (f : Die → Die) : (s.onDies f).crash = s.crash := rfl
@[simp] theorem onDies_recoverySeq (f : Die → Die) : (s.onDies f).recoverySeq = s.recoverySeq := rfl
@[simp] theorem onDies_activation (f : Die → Die) : (s.onDies f).activation = s.activation := rfl
@[simp] theorem onDies_lifeLog (f : Die → Die) : (s.onDies f).lifeLog = s.lifeLog := rfl
@[simp] theorem onDies_lifBusy (f : Die → Die) : (s.onDies f).lifBusy = s.lifBusy := rfl
@[simp] theorem onDies_lifAgain (f : Die → Die) : (s.onDies f).lifAgain = s.lifAgain := rfl
@[simp] theorem onDies_lifOk (f : Die → Die) : (s.onDies f).lifOk = s.lifOk := rfl
@[simp] theorem onDies_lifSaving (f : Die → Die) : (s.onDies f).lifSaving = s.lifSaving := rfl
@[simp] theorem onDies_lifAt (f : Die → Die) : (s.onDies f).lifAt = s.lifAt := rfl

/-! ### State.emit -/

@[simp] theorem emit_pending (o : Out) : (s.emit o).pending = s.pending := rfl
@[simp] theorem emit_part (o : Out) : (s.emit o).part = s.part := rfl
@[simp] theorem emit_phase (o : Out) : (s.emit o).phase = s.phase := rfl
@[simp] theorem emit_gts (o : Out) : (s.emit o).gts = s.gts := rfl
@[simp] theorem emit_slew (o : Out) : (s.emit o).slew = s.slew := rfl
@[simp] theorem emit_slewPhase (o : Out) : (s.emit o).slewPhase = s.slewPhase := rfl
@[simp] theorem emit_freeCtr (o : Out) : (s.emit o).freeCtr = s.freeCtr := rfl
@[simp] theorem emit_resetN (o : Out) : (s.emit o).resetN = s.resetN := rfl
@[simp] theorem emit_pwrGood (o : Out) : (s.emit o).pwrGood = s.pwrGood := rfl
@[simp] theorem emit_thermTrip (o : Out) : (s.emit o).thermTrip = s.thermTrip := rfl
@[simp] theorem emit_gtsPps (o : Out) : (s.emit o).gtsPps = s.gtsPps := rfl
@[simp] theorem emit_align (o : Out) : (s.emit o).align = s.align := rfl
@[simp] theorem emit_bootMode (o : Out) : (s.emit o).bootMode = s.bootMode := rfl
@[simp] theorem emit_bootSource (o : Out) : (s.emit o).bootSource = s.bootSource := rfl
@[simp] theorem emit_bootResult (o : Out) : (s.emit o).bootResult = s.bootResult := rfl
@[simp] theorem emit_bootDie (o : Out) : (s.emit o).bootDie = s.bootDie := rfl
@[simp] theorem emit_chainOk (o : Out) : (s.emit o).chainOk = s.chainOk := rfl
@[simp] theorem emit_image (o : Out) : (s.emit o).image = s.image := rfl
@[simp] theorem emit_rebootAt (o : Out) : (s.emit o).rebootAt = s.rebootAt := rfl
@[simp] theorem emit_allow (o : Out) : (s.emit o).allow = s.allow := rfl
@[simp] theorem emit_log (o : Out) : (s.emit o).log = s.log := rfl
@[simp] theorem emit_logSeq (o : Out) : (s.emit o).logSeq = s.logSeq := rfl
@[simp] theorem emit_logAt (o : Out) : (s.emit o).logAt = s.logAt := rfl
@[simp] theorem emit_flash (o : Out) : (s.emit o).flash = s.flash := rfl
@[simp] theorem emit_dies (o : Out) : (s.emit o).dies = s.dies := rfl
@[simp] theorem emit_hulPackage (o : Out) : (s.emit o).hulPackage = s.hulPackage := rfl
@[simp] theorem emit_hulEvtOut (o : Out) : (s.emit o).hulEvtOut = s.hulEvtOut := rfl
@[simp] theorem emit_hulT7 (o : Out) : (s.emit o).hulT7 = s.hulT7 := rfl
@[simp] theorem emit_t7At (o : Out) : (s.emit o).t7At = s.t7At := rfl
@[simp] theorem emit_mem (o : Out) : (s.emit o).mem = s.mem := rfl
@[simp] theorem emit_threads (o : Out) : (s.emit o).threads = s.threads := rfl
@[simp] theorem emit_sides (o : Out) : (s.emit o).sides = s.sides := rfl
@[simp] theorem emit_dynamic (o : Out) : (s.emit o).dynamic = s.dynamic := rfl
@[simp] theorem emit_barriers (o : Out) : (s.emit o).barriers = s.barriers := rfl
@[simp] theorem emit_istore (o : Out) : (s.emit o).istore = s.istore := rfl
@[simp] theorem emit_banks (o : Out) : (s.emit o).banks = s.banks := rfl
@[simp] theorem emit_activeBank (o : Out) : (s.emit o).activeBank = s.activeBank := rfl
@[simp] theorem emit_profiles (o : Out) : (s.emit o).profiles = s.profiles := rfl
@[simp] theorem emit_loading (o : Out) : (s.emit o).loading = s.loading := rfl
@[simp] theorem emit_sessionCtr (o : Out) : (s.emit o).sessionCtr = s.sessionCtr := rfl
@[simp] theorem emit_sessions (o : Out) : (s.emit o).sessions = s.sessions := rfl
@[simp] theorem emit_indRegs (o : Out) : (s.emit o).indRegs = s.indRegs := rfl
@[simp] theorem emit_staging (o : Out) : (s.emit o).staging = s.staging := rfl
@[simp] theorem emit_qps (o : Out) : (s.emit o).qps = s.qps := rfl
@[simp] theorem emit_streams (o : Out) : (s.emit o).streams = s.streams := rfl
@[simp] theorem emit_jobs (o : Out) : (s.emit o).jobs = s.jobs := rfl
@[simp] theorem emit_tickets (o : Out) : (s.emit o).tickets = s.tickets := rfl
@[simp] theorem emit_nextNumber (o : Out) : (s.emit o).nextNumber = s.nextNumber := rfl
@[simp] theorem emit_routing (o : Out) : (s.emit o).routing = s.routing := rfl
@[simp] theorem emit_partnerPending (o : Out) : (s.emit o).partnerPending = s.partnerPending := rfl
@[simp] theorem emit_twin (o : Out) : (s.emit o).twin = s.twin := rfl
@[simp] theorem emit_recoveries (o : Out) : (s.emit o).recoveries = s.recoveries := rfl
@[simp] theorem emit_crash (o : Out) : (s.emit o).crash = s.crash := rfl
@[simp] theorem emit_recoverySeq (o : Out) : (s.emit o).recoverySeq = s.recoverySeq := rfl
@[simp] theorem emit_activation (o : Out) : (s.emit o).activation = s.activation := rfl
@[simp] theorem emit_lifeLog (o : Out) : (s.emit o).lifeLog = s.lifeLog := rfl
@[simp] theorem emit_lifBusy (o : Out) : (s.emit o).lifBusy = s.lifBusy := rfl
@[simp] theorem emit_lifAgain (o : Out) : (s.emit o).lifAgain = s.lifAgain := rfl
@[simp] theorem emit_lifOk (o : Out) : (s.emit o).lifOk = s.lifOk := rfl
@[simp] theorem emit_lifSaving (o : Out) : (s.emit o).lifSaving = s.lifSaving := rfl
@[simp] theorem emit_lifAt (o : Out) : (s.emit o).lifAt = s.lifAt := rfl

/-! ### State.emits -/

@[simp] theorem emits_pending (o : List Out) : (s.emits o).pending = s.pending := rfl
@[simp] theorem emits_part (o : List Out) : (s.emits o).part = s.part := rfl
@[simp] theorem emits_phase (o : List Out) : (s.emits o).phase = s.phase := rfl
@[simp] theorem emits_gts (o : List Out) : (s.emits o).gts = s.gts := rfl
@[simp] theorem emits_slew (o : List Out) : (s.emits o).slew = s.slew := rfl
@[simp] theorem emits_slewPhase (o : List Out) : (s.emits o).slewPhase = s.slewPhase := rfl
@[simp] theorem emits_freeCtr (o : List Out) : (s.emits o).freeCtr = s.freeCtr := rfl
@[simp] theorem emits_resetN (o : List Out) : (s.emits o).resetN = s.resetN := rfl
@[simp] theorem emits_pwrGood (o : List Out) : (s.emits o).pwrGood = s.pwrGood := rfl
@[simp] theorem emits_thermTrip (o : List Out) : (s.emits o).thermTrip = s.thermTrip := rfl
@[simp] theorem emits_gtsPps (o : List Out) : (s.emits o).gtsPps = s.gtsPps := rfl
@[simp] theorem emits_align (o : List Out) : (s.emits o).align = s.align := rfl
@[simp] theorem emits_bootMode (o : List Out) : (s.emits o).bootMode = s.bootMode := rfl
@[simp] theorem emits_bootSource (o : List Out) : (s.emits o).bootSource = s.bootSource := rfl
@[simp] theorem emits_bootResult (o : List Out) : (s.emits o).bootResult = s.bootResult := rfl
@[simp] theorem emits_bootDie (o : List Out) : (s.emits o).bootDie = s.bootDie := rfl
@[simp] theorem emits_chainOk (o : List Out) : (s.emits o).chainOk = s.chainOk := rfl
@[simp] theorem emits_image (o : List Out) : (s.emits o).image = s.image := rfl
@[simp] theorem emits_rebootAt (o : List Out) : (s.emits o).rebootAt = s.rebootAt := rfl
@[simp] theorem emits_allow (o : List Out) : (s.emits o).allow = s.allow := rfl
@[simp] theorem emits_log (o : List Out) : (s.emits o).log = s.log := rfl
@[simp] theorem emits_logSeq (o : List Out) : (s.emits o).logSeq = s.logSeq := rfl
@[simp] theorem emits_logAt (o : List Out) : (s.emits o).logAt = s.logAt := rfl
@[simp] theorem emits_flash (o : List Out) : (s.emits o).flash = s.flash := rfl
@[simp] theorem emits_dies (o : List Out) : (s.emits o).dies = s.dies := rfl
@[simp] theorem emits_hulPackage (o : List Out) : (s.emits o).hulPackage = s.hulPackage := rfl
@[simp] theorem emits_hulEvtOut (o : List Out) : (s.emits o).hulEvtOut = s.hulEvtOut := rfl
@[simp] theorem emits_hulT7 (o : List Out) : (s.emits o).hulT7 = s.hulT7 := rfl
@[simp] theorem emits_t7At (o : List Out) : (s.emits o).t7At = s.t7At := rfl
@[simp] theorem emits_mem (o : List Out) : (s.emits o).mem = s.mem := rfl
@[simp] theorem emits_threads (o : List Out) : (s.emits o).threads = s.threads := rfl
@[simp] theorem emits_sides (o : List Out) : (s.emits o).sides = s.sides := rfl
@[simp] theorem emits_dynamic (o : List Out) : (s.emits o).dynamic = s.dynamic := rfl
@[simp] theorem emits_barriers (o : List Out) : (s.emits o).barriers = s.barriers := rfl
@[simp] theorem emits_istore (o : List Out) : (s.emits o).istore = s.istore := rfl
@[simp] theorem emits_banks (o : List Out) : (s.emits o).banks = s.banks := rfl
@[simp] theorem emits_activeBank (o : List Out) : (s.emits o).activeBank = s.activeBank := rfl
@[simp] theorem emits_profiles (o : List Out) : (s.emits o).profiles = s.profiles := rfl
@[simp] theorem emits_loading (o : List Out) : (s.emits o).loading = s.loading := rfl
@[simp] theorem emits_sessionCtr (o : List Out) : (s.emits o).sessionCtr = s.sessionCtr := rfl
@[simp] theorem emits_sessions (o : List Out) : (s.emits o).sessions = s.sessions := rfl
@[simp] theorem emits_indRegs (o : List Out) : (s.emits o).indRegs = s.indRegs := rfl
@[simp] theorem emits_staging (o : List Out) : (s.emits o).staging = s.staging := rfl
@[simp] theorem emits_qps (o : List Out) : (s.emits o).qps = s.qps := rfl
@[simp] theorem emits_streams (o : List Out) : (s.emits o).streams = s.streams := rfl
@[simp] theorem emits_jobs (o : List Out) : (s.emits o).jobs = s.jobs := rfl
@[simp] theorem emits_tickets (o : List Out) : (s.emits o).tickets = s.tickets := rfl
@[simp] theorem emits_nextNumber (o : List Out) : (s.emits o).nextNumber = s.nextNumber := rfl
@[simp] theorem emits_routing (o : List Out) : (s.emits o).routing = s.routing := rfl
@[simp] theorem emits_partnerPending (o : List Out) : (s.emits o).partnerPending = s.partnerPending := rfl
@[simp] theorem emits_twin (o : List Out) : (s.emits o).twin = s.twin := rfl
@[simp] theorem emits_recoveries (o : List Out) : (s.emits o).recoveries = s.recoveries := rfl
@[simp] theorem emits_crash (o : List Out) : (s.emits o).crash = s.crash := rfl
@[simp] theorem emits_recoverySeq (o : List Out) : (s.emits o).recoverySeq = s.recoverySeq := rfl
@[simp] theorem emits_activation (o : List Out) : (s.emits o).activation = s.activation := rfl
@[simp] theorem emits_lifeLog (o : List Out) : (s.emits o).lifeLog = s.lifeLog := rfl
@[simp] theorem emits_lifBusy (o : List Out) : (s.emits o).lifBusy = s.lifBusy := rfl
@[simp] theorem emits_lifAgain (o : List Out) : (s.emits o).lifAgain = s.lifAgain := rfl
@[simp] theorem emits_lifOk (o : List Out) : (s.emits o).lifOk = s.lifOk := rfl
@[simp] theorem emits_lifSaving (o : List Out) : (s.emits o).lifSaving = s.lifSaving := rfl
@[simp] theorem emits_lifAt (o : List Out) : (s.emits o).lifAt = s.lifAt := rfl

/-! ### State.put -/

@[simp] theorem put_pending (a : Nat) (b : List Byte) : (s.put a b).pending = s.pending := rfl
@[simp] theorem put_part (a : Nat) (b : List Byte) : (s.put a b).part = s.part := rfl
@[simp] theorem put_phase (a : Nat) (b : List Byte) : (s.put a b).phase = s.phase := rfl
@[simp] theorem put_gts (a : Nat) (b : List Byte) : (s.put a b).gts = s.gts := rfl
@[simp] theorem put_slew (a : Nat) (b : List Byte) : (s.put a b).slew = s.slew := rfl
@[simp] theorem put_slewPhase (a : Nat) (b : List Byte) : (s.put a b).slewPhase = s.slewPhase := rfl
@[simp] theorem put_freeCtr (a : Nat) (b : List Byte) : (s.put a b).freeCtr = s.freeCtr := rfl
@[simp] theorem put_out (a : Nat) (b : List Byte) : (s.put a b).out = s.out := rfl
@[simp] theorem put_resetN (a : Nat) (b : List Byte) : (s.put a b).resetN = s.resetN := rfl
@[simp] theorem put_pwrGood (a : Nat) (b : List Byte) : (s.put a b).pwrGood = s.pwrGood := rfl
@[simp] theorem put_thermTrip (a : Nat) (b : List Byte) : (s.put a b).thermTrip = s.thermTrip := rfl
@[simp] theorem put_gtsPps (a : Nat) (b : List Byte) : (s.put a b).gtsPps = s.gtsPps := rfl
@[simp] theorem put_align (a : Nat) (b : List Byte) : (s.put a b).align = s.align := rfl
@[simp] theorem put_bootMode (a : Nat) (b : List Byte) : (s.put a b).bootMode = s.bootMode := rfl
@[simp] theorem put_bootSource (a : Nat) (b : List Byte) : (s.put a b).bootSource = s.bootSource := rfl
@[simp] theorem put_bootResult (a : Nat) (b : List Byte) : (s.put a b).bootResult = s.bootResult := rfl
@[simp] theorem put_bootDie (a : Nat) (b : List Byte) : (s.put a b).bootDie = s.bootDie := rfl
@[simp] theorem put_chainOk (a : Nat) (b : List Byte) : (s.put a b).chainOk = s.chainOk := rfl
@[simp] theorem put_image (a : Nat) (b : List Byte) : (s.put a b).image = s.image := rfl
@[simp] theorem put_rebootAt (a : Nat) (b : List Byte) : (s.put a b).rebootAt = s.rebootAt := rfl
@[simp] theorem put_allow (a : Nat) (b : List Byte) : (s.put a b).allow = s.allow := rfl
@[simp] theorem put_log (a : Nat) (b : List Byte) : (s.put a b).log = s.log := rfl
@[simp] theorem put_logSeq (a : Nat) (b : List Byte) : (s.put a b).logSeq = s.logSeq := rfl
@[simp] theorem put_logAt (a : Nat) (b : List Byte) : (s.put a b).logAt = s.logAt := rfl
@[simp] theorem put_flash (a : Nat) (b : List Byte) : (s.put a b).flash = s.flash := rfl
@[simp] theorem put_dies (a : Nat) (b : List Byte) : (s.put a b).dies = s.dies := rfl
@[simp] theorem put_hulPackage (a : Nat) (b : List Byte) : (s.put a b).hulPackage = s.hulPackage := rfl
@[simp] theorem put_hulEvtOut (a : Nat) (b : List Byte) : (s.put a b).hulEvtOut = s.hulEvtOut := rfl
@[simp] theorem put_hulT7 (a : Nat) (b : List Byte) : (s.put a b).hulT7 = s.hulT7 := rfl
@[simp] theorem put_t7At (a : Nat) (b : List Byte) : (s.put a b).t7At = s.t7At := rfl
@[simp] theorem put_threads (a : Nat) (b : List Byte) : (s.put a b).threads = s.threads := rfl
@[simp] theorem put_sides (a : Nat) (b : List Byte) : (s.put a b).sides = s.sides := rfl
@[simp] theorem put_dynamic (a : Nat) (b : List Byte) : (s.put a b).dynamic = s.dynamic := rfl
@[simp] theorem put_barriers (a : Nat) (b : List Byte) : (s.put a b).barriers = s.barriers := rfl
@[simp] theorem put_istore (a : Nat) (b : List Byte) : (s.put a b).istore = s.istore := rfl
@[simp] theorem put_banks (a : Nat) (b : List Byte) : (s.put a b).banks = s.banks := rfl
@[simp] theorem put_activeBank (a : Nat) (b : List Byte) : (s.put a b).activeBank = s.activeBank := rfl
@[simp] theorem put_profiles (a : Nat) (b : List Byte) : (s.put a b).profiles = s.profiles := rfl
@[simp] theorem put_loading (a : Nat) (b : List Byte) : (s.put a b).loading = s.loading := rfl
@[simp] theorem put_sessionCtr (a : Nat) (b : List Byte) : (s.put a b).sessionCtr = s.sessionCtr := rfl
@[simp] theorem put_sessions (a : Nat) (b : List Byte) : (s.put a b).sessions = s.sessions := rfl
@[simp] theorem put_indRegs (a : Nat) (b : List Byte) : (s.put a b).indRegs = s.indRegs := rfl
@[simp] theorem put_staging (a : Nat) (b : List Byte) : (s.put a b).staging = s.staging := rfl
@[simp] theorem put_qps (a : Nat) (b : List Byte) : (s.put a b).qps = s.qps := rfl
@[simp] theorem put_streams (a : Nat) (b : List Byte) : (s.put a b).streams = s.streams := rfl
@[simp] theorem put_jobs (a : Nat) (b : List Byte) : (s.put a b).jobs = s.jobs := rfl
@[simp] theorem put_tickets (a : Nat) (b : List Byte) : (s.put a b).tickets = s.tickets := rfl
@[simp] theorem put_nextNumber (a : Nat) (b : List Byte) : (s.put a b).nextNumber = s.nextNumber := rfl
@[simp] theorem put_routing (a : Nat) (b : List Byte) : (s.put a b).routing = s.routing := rfl
@[simp] theorem put_partnerPending (a : Nat) (b : List Byte) : (s.put a b).partnerPending = s.partnerPending := rfl
@[simp] theorem put_twin (a : Nat) (b : List Byte) : (s.put a b).twin = s.twin := rfl
@[simp] theorem put_recoveries (a : Nat) (b : List Byte) : (s.put a b).recoveries = s.recoveries := rfl
@[simp] theorem put_crash (a : Nat) (b : List Byte) : (s.put a b).crash = s.crash := rfl
@[simp] theorem put_recoverySeq (a : Nat) (b : List Byte) : (s.put a b).recoverySeq = s.recoverySeq := rfl
@[simp] theorem put_activation (a : Nat) (b : List Byte) : (s.put a b).activation = s.activation := rfl
@[simp] theorem put_lifeLog (a : Nat) (b : List Byte) : (s.put a b).lifeLog = s.lifeLog := rfl
@[simp] theorem put_lifBusy (a : Nat) (b : List Byte) : (s.put a b).lifBusy = s.lifBusy := rfl
@[simp] theorem put_lifAgain (a : Nat) (b : List Byte) : (s.put a b).lifAgain = s.lifAgain := rfl
@[simp] theorem put_lifOk (a : Nat) (b : List Byte) : (s.put a b).lifOk = s.lifOk := rfl
@[simp] theorem put_lifSaving (a : Nat) (b : List Byte) : (s.put a b).lifSaving = s.lifSaving := rfl
@[simp] theorem put_lifAt (a : Nat) (b : List Byte) : (s.put a b).lifAt = s.lifAt := rfl

/-! ### State.putRuns -/

@[simp] theorem putRuns_pending (r : List (Nat × List Byte)) : (s.putRuns r).pending = s.pending := rfl
@[simp] theorem putRuns_part (r : List (Nat × List Byte)) : (s.putRuns r).part = s.part := rfl
@[simp] theorem putRuns_phase (r : List (Nat × List Byte)) : (s.putRuns r).phase = s.phase := rfl
@[simp] theorem putRuns_gts (r : List (Nat × List Byte)) : (s.putRuns r).gts = s.gts := rfl
@[simp] theorem putRuns_slew (r : List (Nat × List Byte)) : (s.putRuns r).slew = s.slew := rfl
@[simp] theorem putRuns_slewPhase (r : List (Nat × List Byte)) : (s.putRuns r).slewPhase = s.slewPhase := rfl
@[simp] theorem putRuns_freeCtr (r : List (Nat × List Byte)) : (s.putRuns r).freeCtr = s.freeCtr := rfl
@[simp] theorem putRuns_out (r : List (Nat × List Byte)) : (s.putRuns r).out = s.out := rfl
@[simp] theorem putRuns_resetN (r : List (Nat × List Byte)) : (s.putRuns r).resetN = s.resetN := rfl
@[simp] theorem putRuns_pwrGood (r : List (Nat × List Byte)) : (s.putRuns r).pwrGood = s.pwrGood := rfl
@[simp] theorem putRuns_thermTrip (r : List (Nat × List Byte)) : (s.putRuns r).thermTrip = s.thermTrip := rfl
@[simp] theorem putRuns_gtsPps (r : List (Nat × List Byte)) : (s.putRuns r).gtsPps = s.gtsPps := rfl
@[simp] theorem putRuns_align (r : List (Nat × List Byte)) : (s.putRuns r).align = s.align := rfl
@[simp] theorem putRuns_bootMode (r : List (Nat × List Byte)) : (s.putRuns r).bootMode = s.bootMode := rfl
@[simp] theorem putRuns_bootSource (r : List (Nat × List Byte)) : (s.putRuns r).bootSource = s.bootSource := rfl
@[simp] theorem putRuns_bootResult (r : List (Nat × List Byte)) : (s.putRuns r).bootResult = s.bootResult := rfl
@[simp] theorem putRuns_bootDie (r : List (Nat × List Byte)) : (s.putRuns r).bootDie = s.bootDie := rfl
@[simp] theorem putRuns_chainOk (r : List (Nat × List Byte)) : (s.putRuns r).chainOk = s.chainOk := rfl
@[simp] theorem putRuns_image (r : List (Nat × List Byte)) : (s.putRuns r).image = s.image := rfl
@[simp] theorem putRuns_rebootAt (r : List (Nat × List Byte)) : (s.putRuns r).rebootAt = s.rebootAt := rfl
@[simp] theorem putRuns_allow (r : List (Nat × List Byte)) : (s.putRuns r).allow = s.allow := rfl
@[simp] theorem putRuns_log (r : List (Nat × List Byte)) : (s.putRuns r).log = s.log := rfl
@[simp] theorem putRuns_logSeq (r : List (Nat × List Byte)) : (s.putRuns r).logSeq = s.logSeq := rfl
@[simp] theorem putRuns_logAt (r : List (Nat × List Byte)) : (s.putRuns r).logAt = s.logAt := rfl
@[simp] theorem putRuns_flash (r : List (Nat × List Byte)) : (s.putRuns r).flash = s.flash := rfl
@[simp] theorem putRuns_dies (r : List (Nat × List Byte)) : (s.putRuns r).dies = s.dies := rfl
@[simp] theorem putRuns_hulPackage (r : List (Nat × List Byte)) : (s.putRuns r).hulPackage = s.hulPackage := rfl
@[simp] theorem putRuns_hulEvtOut (r : List (Nat × List Byte)) : (s.putRuns r).hulEvtOut = s.hulEvtOut := rfl
@[simp] theorem putRuns_hulT7 (r : List (Nat × List Byte)) : (s.putRuns r).hulT7 = s.hulT7 := rfl
@[simp] theorem putRuns_t7At (r : List (Nat × List Byte)) : (s.putRuns r).t7At = s.t7At := rfl
@[simp] theorem putRuns_threads (r : List (Nat × List Byte)) : (s.putRuns r).threads = s.threads := rfl
@[simp] theorem putRuns_sides (r : List (Nat × List Byte)) : (s.putRuns r).sides = s.sides := rfl
@[simp] theorem putRuns_dynamic (r : List (Nat × List Byte)) : (s.putRuns r).dynamic = s.dynamic := rfl
@[simp] theorem putRuns_barriers (r : List (Nat × List Byte)) : (s.putRuns r).barriers = s.barriers := rfl
@[simp] theorem putRuns_istore (r : List (Nat × List Byte)) : (s.putRuns r).istore = s.istore := rfl
@[simp] theorem putRuns_banks (r : List (Nat × List Byte)) : (s.putRuns r).banks = s.banks := rfl
@[simp] theorem putRuns_activeBank (r : List (Nat × List Byte)) : (s.putRuns r).activeBank = s.activeBank := rfl
@[simp] theorem putRuns_profiles (r : List (Nat × List Byte)) : (s.putRuns r).profiles = s.profiles := rfl
@[simp] theorem putRuns_loading (r : List (Nat × List Byte)) : (s.putRuns r).loading = s.loading := rfl
@[simp] theorem putRuns_sessionCtr (r : List (Nat × List Byte)) : (s.putRuns r).sessionCtr = s.sessionCtr := rfl
@[simp] theorem putRuns_sessions (r : List (Nat × List Byte)) : (s.putRuns r).sessions = s.sessions := rfl
@[simp] theorem putRuns_indRegs (r : List (Nat × List Byte)) : (s.putRuns r).indRegs = s.indRegs := rfl
@[simp] theorem putRuns_staging (r : List (Nat × List Byte)) : (s.putRuns r).staging = s.staging := rfl
@[simp] theorem putRuns_qps (r : List (Nat × List Byte)) : (s.putRuns r).qps = s.qps := rfl
@[simp] theorem putRuns_streams (r : List (Nat × List Byte)) : (s.putRuns r).streams = s.streams := rfl
@[simp] theorem putRuns_jobs (r : List (Nat × List Byte)) : (s.putRuns r).jobs = s.jobs := rfl
@[simp] theorem putRuns_tickets (r : List (Nat × List Byte)) : (s.putRuns r).tickets = s.tickets := rfl
@[simp] theorem putRuns_nextNumber (r : List (Nat × List Byte)) : (s.putRuns r).nextNumber = s.nextNumber := rfl
@[simp] theorem putRuns_routing (r : List (Nat × List Byte)) : (s.putRuns r).routing = s.routing := rfl
@[simp] theorem putRuns_partnerPending (r : List (Nat × List Byte)) : (s.putRuns r).partnerPending = s.partnerPending := rfl
@[simp] theorem putRuns_twin (r : List (Nat × List Byte)) : (s.putRuns r).twin = s.twin := rfl
@[simp] theorem putRuns_recoveries (r : List (Nat × List Byte)) : (s.putRuns r).recoveries = s.recoveries := rfl
@[simp] theorem putRuns_crash (r : List (Nat × List Byte)) : (s.putRuns r).crash = s.crash := rfl
@[simp] theorem putRuns_recoverySeq (r : List (Nat × List Byte)) : (s.putRuns r).recoverySeq = s.recoverySeq := rfl
@[simp] theorem putRuns_activation (r : List (Nat × List Byte)) : (s.putRuns r).activation = s.activation := rfl
@[simp] theorem putRuns_lifeLog (r : List (Nat × List Byte)) : (s.putRuns r).lifeLog = s.lifeLog := rfl
@[simp] theorem putRuns_lifBusy (r : List (Nat × List Byte)) : (s.putRuns r).lifBusy = s.lifBusy := rfl
@[simp] theorem putRuns_lifAgain (r : List (Nat × List Byte)) : (s.putRuns r).lifAgain = s.lifAgain := rfl
@[simp] theorem putRuns_lifOk (r : List (Nat × List Byte)) : (s.putRuns r).lifOk = s.lifOk := rfl
@[simp] theorem putRuns_lifSaving (r : List (Nat × List Byte)) : (s.putRuns r).lifSaving = s.lifSaving := rfl
@[simp] theorem putRuns_lifAt (r : List (Nat × List Byte)) : (s.putRuns r).lifAt = s.lifAt := rfl

/-! ### State.clearMem -/

@[simp] theorem clearMem_pending (a b : Nat) : (s.clearMem a b).pending = s.pending := rfl
@[simp] theorem clearMem_part (a b : Nat) : (s.clearMem a b).part = s.part := rfl
@[simp] theorem clearMem_phase (a b : Nat) : (s.clearMem a b).phase = s.phase := rfl
@[simp] theorem clearMem_gts (a b : Nat) : (s.clearMem a b).gts = s.gts := rfl
@[simp] theorem clearMem_slew (a b : Nat) : (s.clearMem a b).slew = s.slew := rfl
@[simp] theorem clearMem_slewPhase (a b : Nat) : (s.clearMem a b).slewPhase = s.slewPhase := rfl
@[simp] theorem clearMem_freeCtr (a b : Nat) : (s.clearMem a b).freeCtr = s.freeCtr := rfl
@[simp] theorem clearMem_out (a b : Nat) : (s.clearMem a b).out = s.out := rfl
@[simp] theorem clearMem_resetN (a b : Nat) : (s.clearMem a b).resetN = s.resetN := rfl
@[simp] theorem clearMem_pwrGood (a b : Nat) : (s.clearMem a b).pwrGood = s.pwrGood := rfl
@[simp] theorem clearMem_thermTrip (a b : Nat) : (s.clearMem a b).thermTrip = s.thermTrip := rfl
@[simp] theorem clearMem_gtsPps (a b : Nat) : (s.clearMem a b).gtsPps = s.gtsPps := rfl
@[simp] theorem clearMem_align (a b : Nat) : (s.clearMem a b).align = s.align := rfl
@[simp] theorem clearMem_bootMode (a b : Nat) : (s.clearMem a b).bootMode = s.bootMode := rfl
@[simp] theorem clearMem_bootSource (a b : Nat) : (s.clearMem a b).bootSource = s.bootSource := rfl
@[simp] theorem clearMem_bootResult (a b : Nat) : (s.clearMem a b).bootResult = s.bootResult := rfl
@[simp] theorem clearMem_bootDie (a b : Nat) : (s.clearMem a b).bootDie = s.bootDie := rfl
@[simp] theorem clearMem_chainOk (a b : Nat) : (s.clearMem a b).chainOk = s.chainOk := rfl
@[simp] theorem clearMem_image (a b : Nat) : (s.clearMem a b).image = s.image := rfl
@[simp] theorem clearMem_rebootAt (a b : Nat) : (s.clearMem a b).rebootAt = s.rebootAt := rfl
@[simp] theorem clearMem_allow (a b : Nat) : (s.clearMem a b).allow = s.allow := rfl
@[simp] theorem clearMem_log (a b : Nat) : (s.clearMem a b).log = s.log := rfl
@[simp] theorem clearMem_logSeq (a b : Nat) : (s.clearMem a b).logSeq = s.logSeq := rfl
@[simp] theorem clearMem_logAt (a b : Nat) : (s.clearMem a b).logAt = s.logAt := rfl
@[simp] theorem clearMem_flash (a b : Nat) : (s.clearMem a b).flash = s.flash := rfl
@[simp] theorem clearMem_dies (a b : Nat) : (s.clearMem a b).dies = s.dies := rfl
@[simp] theorem clearMem_hulPackage (a b : Nat) : (s.clearMem a b).hulPackage = s.hulPackage := rfl
@[simp] theorem clearMem_hulEvtOut (a b : Nat) : (s.clearMem a b).hulEvtOut = s.hulEvtOut := rfl
@[simp] theorem clearMem_hulT7 (a b : Nat) : (s.clearMem a b).hulT7 = s.hulT7 := rfl
@[simp] theorem clearMem_t7At (a b : Nat) : (s.clearMem a b).t7At = s.t7At := rfl
@[simp] theorem clearMem_threads (a b : Nat) : (s.clearMem a b).threads = s.threads := rfl
@[simp] theorem clearMem_sides (a b : Nat) : (s.clearMem a b).sides = s.sides := rfl
@[simp] theorem clearMem_dynamic (a b : Nat) : (s.clearMem a b).dynamic = s.dynamic := rfl
@[simp] theorem clearMem_barriers (a b : Nat) : (s.clearMem a b).barriers = s.barriers := rfl
@[simp] theorem clearMem_istore (a b : Nat) : (s.clearMem a b).istore = s.istore := rfl
@[simp] theorem clearMem_banks (a b : Nat) : (s.clearMem a b).banks = s.banks := rfl
@[simp] theorem clearMem_activeBank (a b : Nat) : (s.clearMem a b).activeBank = s.activeBank := rfl
@[simp] theorem clearMem_profiles (a b : Nat) : (s.clearMem a b).profiles = s.profiles := rfl
@[simp] theorem clearMem_loading (a b : Nat) : (s.clearMem a b).loading = s.loading := rfl
@[simp] theorem clearMem_sessionCtr (a b : Nat) : (s.clearMem a b).sessionCtr = s.sessionCtr := rfl
@[simp] theorem clearMem_sessions (a b : Nat) : (s.clearMem a b).sessions = s.sessions := rfl
@[simp] theorem clearMem_indRegs (a b : Nat) : (s.clearMem a b).indRegs = s.indRegs := rfl
@[simp] theorem clearMem_staging (a b : Nat) : (s.clearMem a b).staging = s.staging := rfl
@[simp] theorem clearMem_qps (a b : Nat) : (s.clearMem a b).qps = s.qps := rfl
@[simp] theorem clearMem_streams (a b : Nat) : (s.clearMem a b).streams = s.streams := rfl
@[simp] theorem clearMem_jobs (a b : Nat) : (s.clearMem a b).jobs = s.jobs := rfl
@[simp] theorem clearMem_tickets (a b : Nat) : (s.clearMem a b).tickets = s.tickets := rfl
@[simp] theorem clearMem_nextNumber (a b : Nat) : (s.clearMem a b).nextNumber = s.nextNumber := rfl
@[simp] theorem clearMem_routing (a b : Nat) : (s.clearMem a b).routing = s.routing := rfl
@[simp] theorem clearMem_partnerPending (a b : Nat) : (s.clearMem a b).partnerPending = s.partnerPending := rfl
@[simp] theorem clearMem_twin (a b : Nat) : (s.clearMem a b).twin = s.twin := rfl
@[simp] theorem clearMem_recoveries (a b : Nat) : (s.clearMem a b).recoveries = s.recoveries := rfl
@[simp] theorem clearMem_crash (a b : Nat) : (s.clearMem a b).crash = s.crash := rfl
@[simp] theorem clearMem_recoverySeq (a b : Nat) : (s.clearMem a b).recoverySeq = s.recoverySeq := rfl
@[simp] theorem clearMem_activation (a b : Nat) : (s.clearMem a b).activation = s.activation := rfl
@[simp] theorem clearMem_lifeLog (a b : Nat) : (s.clearMem a b).lifeLog = s.lifeLog := rfl
@[simp] theorem clearMem_lifBusy (a b : Nat) : (s.clearMem a b).lifBusy = s.lifBusy := rfl
@[simp] theorem clearMem_lifAgain (a b : Nat) : (s.clearMem a b).lifAgain = s.lifAgain := rfl
@[simp] theorem clearMem_lifOk (a b : Nat) : (s.clearMem a b).lifOk = s.lifOk := rfl
@[simp] theorem clearMem_lifSaving (a b : Nat) : (s.clearMem a b).lifSaving = s.lifSaving := rfl
@[simp] theorem clearMem_lifAt (a b : Nat) : (s.clearMem a b).lifAt = s.lifAt := rfl

/-! ### State.stick -/

@[simp] theorem stick_pending (d : Nat) (b : Sticky) : (s.stick d b).pending = s.pending := rfl
@[simp] theorem stick_part (d : Nat) (b : Sticky) : (s.stick d b).part = s.part := rfl
@[simp] theorem stick_phase (d : Nat) (b : Sticky) : (s.stick d b).phase = s.phase := rfl
@[simp] theorem stick_gts (d : Nat) (b : Sticky) : (s.stick d b).gts = s.gts := rfl
@[simp] theorem stick_slew (d : Nat) (b : Sticky) : (s.stick d b).slew = s.slew := rfl
@[simp] theorem stick_slewPhase (d : Nat) (b : Sticky) : (s.stick d b).slewPhase = s.slewPhase := rfl
@[simp] theorem stick_freeCtr (d : Nat) (b : Sticky) : (s.stick d b).freeCtr = s.freeCtr := rfl
@[simp] theorem stick_out (d : Nat) (b : Sticky) : (s.stick d b).out = s.out := rfl
@[simp] theorem stick_resetN (d : Nat) (b : Sticky) : (s.stick d b).resetN = s.resetN := rfl
@[simp] theorem stick_pwrGood (d : Nat) (b : Sticky) : (s.stick d b).pwrGood = s.pwrGood := rfl
@[simp] theorem stick_thermTrip (d : Nat) (b : Sticky) : (s.stick d b).thermTrip = s.thermTrip := rfl
@[simp] theorem stick_gtsPps (d : Nat) (b : Sticky) : (s.stick d b).gtsPps = s.gtsPps := rfl
@[simp] theorem stick_align (d : Nat) (b : Sticky) : (s.stick d b).align = s.align := rfl
@[simp] theorem stick_bootMode (d : Nat) (b : Sticky) : (s.stick d b).bootMode = s.bootMode := rfl
@[simp] theorem stick_bootSource (d : Nat) (b : Sticky) : (s.stick d b).bootSource = s.bootSource := rfl
@[simp] theorem stick_bootResult (d : Nat) (b : Sticky) : (s.stick d b).bootResult = s.bootResult := rfl
@[simp] theorem stick_bootDie (d : Nat) (b : Sticky) : (s.stick d b).bootDie = s.bootDie := rfl
@[simp] theorem stick_chainOk (d : Nat) (b : Sticky) : (s.stick d b).chainOk = s.chainOk := rfl
@[simp] theorem stick_image (d : Nat) (b : Sticky) : (s.stick d b).image = s.image := rfl
@[simp] theorem stick_rebootAt (d : Nat) (b : Sticky) : (s.stick d b).rebootAt = s.rebootAt := rfl
@[simp] theorem stick_allow (d : Nat) (b : Sticky) : (s.stick d b).allow = s.allow := rfl
@[simp] theorem stick_log (d : Nat) (b : Sticky) : (s.stick d b).log = s.log := rfl
@[simp] theorem stick_logSeq (d : Nat) (b : Sticky) : (s.stick d b).logSeq = s.logSeq := rfl
@[simp] theorem stick_logAt (d : Nat) (b : Sticky) : (s.stick d b).logAt = s.logAt := rfl
@[simp] theorem stick_flash (d : Nat) (b : Sticky) : (s.stick d b).flash = s.flash := rfl
@[simp] theorem stick_hulPackage (d : Nat) (b : Sticky) : (s.stick d b).hulPackage = s.hulPackage := rfl
@[simp] theorem stick_hulEvtOut (d : Nat) (b : Sticky) : (s.stick d b).hulEvtOut = s.hulEvtOut := rfl
@[simp] theorem stick_hulT7 (d : Nat) (b : Sticky) : (s.stick d b).hulT7 = s.hulT7 := rfl
@[simp] theorem stick_t7At (d : Nat) (b : Sticky) : (s.stick d b).t7At = s.t7At := rfl
@[simp] theorem stick_mem (d : Nat) (b : Sticky) : (s.stick d b).mem = s.mem := rfl
@[simp] theorem stick_threads (d : Nat) (b : Sticky) : (s.stick d b).threads = s.threads := rfl
@[simp] theorem stick_sides (d : Nat) (b : Sticky) : (s.stick d b).sides = s.sides := rfl
@[simp] theorem stick_dynamic (d : Nat) (b : Sticky) : (s.stick d b).dynamic = s.dynamic := rfl
@[simp] theorem stick_barriers (d : Nat) (b : Sticky) : (s.stick d b).barriers = s.barriers := rfl
@[simp] theorem stick_istore (d : Nat) (b : Sticky) : (s.stick d b).istore = s.istore := rfl
@[simp] theorem stick_banks (d : Nat) (b : Sticky) : (s.stick d b).banks = s.banks := rfl
@[simp] theorem stick_activeBank (d : Nat) (b : Sticky) : (s.stick d b).activeBank = s.activeBank := rfl
@[simp] theorem stick_profiles (d : Nat) (b : Sticky) : (s.stick d b).profiles = s.profiles := rfl
@[simp] theorem stick_loading (d : Nat) (b : Sticky) : (s.stick d b).loading = s.loading := rfl
@[simp] theorem stick_sessionCtr (d : Nat) (b : Sticky) : (s.stick d b).sessionCtr = s.sessionCtr := rfl
@[simp] theorem stick_sessions (d : Nat) (b : Sticky) : (s.stick d b).sessions = s.sessions := rfl
@[simp] theorem stick_indRegs (d : Nat) (b : Sticky) : (s.stick d b).indRegs = s.indRegs := rfl
@[simp] theorem stick_staging (d : Nat) (b : Sticky) : (s.stick d b).staging = s.staging := rfl
@[simp] theorem stick_qps (d : Nat) (b : Sticky) : (s.stick d b).qps = s.qps := rfl
@[simp] theorem stick_streams (d : Nat) (b : Sticky) : (s.stick d b).streams = s.streams := rfl
@[simp] theorem stick_jobs (d : Nat) (b : Sticky) : (s.stick d b).jobs = s.jobs := rfl
@[simp] theorem stick_tickets (d : Nat) (b : Sticky) : (s.stick d b).tickets = s.tickets := rfl
@[simp] theorem stick_nextNumber (d : Nat) (b : Sticky) : (s.stick d b).nextNumber = s.nextNumber := rfl
@[simp] theorem stick_routing (d : Nat) (b : Sticky) : (s.stick d b).routing = s.routing := rfl
@[simp] theorem stick_partnerPending (d : Nat) (b : Sticky) : (s.stick d b).partnerPending = s.partnerPending := rfl
@[simp] theorem stick_twin (d : Nat) (b : Sticky) : (s.stick d b).twin = s.twin := rfl
@[simp] theorem stick_recoveries (d : Nat) (b : Sticky) : (s.stick d b).recoveries = s.recoveries := rfl
@[simp] theorem stick_crash (d : Nat) (b : Sticky) : (s.stick d b).crash = s.crash := rfl
@[simp] theorem stick_recoverySeq (d : Nat) (b : Sticky) : (s.stick d b).recoverySeq = s.recoverySeq := rfl
@[simp] theorem stick_activation (d : Nat) (b : Sticky) : (s.stick d b).activation = s.activation := rfl
@[simp] theorem stick_lifeLog (d : Nat) (b : Sticky) : (s.stick d b).lifeLog = s.lifeLog := rfl
@[simp] theorem stick_lifBusy (d : Nat) (b : Sticky) : (s.stick d b).lifBusy = s.lifBusy := rfl
@[simp] theorem stick_lifAgain (d : Nat) (b : Sticky) : (s.stick d b).lifAgain = s.lifAgain := rfl
@[simp] theorem stick_lifOk (d : Nat) (b : Sticky) : (s.stick d b).lifOk = s.lifOk := rfl
@[simp] theorem stick_lifSaving (d : Nat) (b : Sticky) : (s.stick d b).lifSaving = s.lifSaving := rfl
@[simp] theorem stick_lifAt (d : Nat) (b : Sticky) : (s.stick d b).lifAt = s.lifAt := rfl

/-! ### State.event -/

@[simp] theorem event_pending (d k c a : Nat) : (s.event d k c a).pending = s.pending := rfl
@[simp] theorem event_part (d k c a : Nat) : (s.event d k c a).part = s.part := rfl
@[simp] theorem event_phase (d k c a : Nat) : (s.event d k c a).phase = s.phase := rfl
@[simp] theorem event_gts (d k c a : Nat) : (s.event d k c a).gts = s.gts := rfl
@[simp] theorem event_slew (d k c a : Nat) : (s.event d k c a).slew = s.slew := rfl
@[simp] theorem event_slewPhase (d k c a : Nat) : (s.event d k c a).slewPhase = s.slewPhase := rfl
@[simp] theorem event_freeCtr (d k c a : Nat) : (s.event d k c a).freeCtr = s.freeCtr := rfl
@[simp] theorem event_out (d k c a : Nat) : (s.event d k c a).out = s.out := rfl
@[simp] theorem event_resetN (d k c a : Nat) : (s.event d k c a).resetN = s.resetN := rfl
@[simp] theorem event_pwrGood (d k c a : Nat) : (s.event d k c a).pwrGood = s.pwrGood := rfl
@[simp] theorem event_thermTrip (d k c a : Nat) : (s.event d k c a).thermTrip = s.thermTrip := rfl
@[simp] theorem event_gtsPps (d k c a : Nat) : (s.event d k c a).gtsPps = s.gtsPps := rfl
@[simp] theorem event_align (d k c a : Nat) : (s.event d k c a).align = s.align := rfl
@[simp] theorem event_bootMode (d k c a : Nat) : (s.event d k c a).bootMode = s.bootMode := rfl
@[simp] theorem event_bootSource (d k c a : Nat) : (s.event d k c a).bootSource = s.bootSource := rfl
@[simp] theorem event_bootResult (d k c a : Nat) : (s.event d k c a).bootResult = s.bootResult := rfl
@[simp] theorem event_bootDie (d k c a : Nat) : (s.event d k c a).bootDie = s.bootDie := rfl
@[simp] theorem event_chainOk (d k c a : Nat) : (s.event d k c a).chainOk = s.chainOk := rfl
@[simp] theorem event_image (d k c a : Nat) : (s.event d k c a).image = s.image := rfl
@[simp] theorem event_rebootAt (d k c a : Nat) : (s.event d k c a).rebootAt = s.rebootAt := rfl
@[simp] theorem event_allow (d k c a : Nat) : (s.event d k c a).allow = s.allow := rfl
@[simp] theorem event_log (d k c a : Nat) : (s.event d k c a).log = s.log := rfl
@[simp] theorem event_logSeq (d k c a : Nat) : (s.event d k c a).logSeq = s.logSeq := rfl
@[simp] theorem event_logAt (d k c a : Nat) : (s.event d k c a).logAt = s.logAt := rfl
@[simp] theorem event_flash (d k c a : Nat) : (s.event d k c a).flash = s.flash := rfl
@[simp] theorem event_hulPackage (d k c a : Nat) : (s.event d k c a).hulPackage = s.hulPackage := rfl
@[simp] theorem event_hulEvtOut (d k c a : Nat) : (s.event d k c a).hulEvtOut = s.hulEvtOut := rfl
@[simp] theorem event_hulT7 (d k c a : Nat) : (s.event d k c a).hulT7 = s.hulT7 := rfl
@[simp] theorem event_t7At (d k c a : Nat) : (s.event d k c a).t7At = s.t7At := rfl
@[simp] theorem event_mem (d k c a : Nat) : (s.event d k c a).mem = s.mem := rfl
@[simp] theorem event_threads (d k c a : Nat) : (s.event d k c a).threads = s.threads := rfl
@[simp] theorem event_sides (d k c a : Nat) : (s.event d k c a).sides = s.sides := rfl
@[simp] theorem event_dynamic (d k c a : Nat) : (s.event d k c a).dynamic = s.dynamic := rfl
@[simp] theorem event_barriers (d k c a : Nat) : (s.event d k c a).barriers = s.barriers := rfl
@[simp] theorem event_istore (d k c a : Nat) : (s.event d k c a).istore = s.istore := rfl
@[simp] theorem event_banks (d k c a : Nat) : (s.event d k c a).banks = s.banks := rfl
@[simp] theorem event_activeBank (d k c a : Nat) : (s.event d k c a).activeBank = s.activeBank := rfl
@[simp] theorem event_profiles (d k c a : Nat) : (s.event d k c a).profiles = s.profiles := rfl
@[simp] theorem event_loading (d k c a : Nat) : (s.event d k c a).loading = s.loading := rfl
@[simp] theorem event_sessionCtr (d k c a : Nat) : (s.event d k c a).sessionCtr = s.sessionCtr := rfl
@[simp] theorem event_sessions (d k c a : Nat) : (s.event d k c a).sessions = s.sessions := rfl
@[simp] theorem event_indRegs (d k c a : Nat) : (s.event d k c a).indRegs = s.indRegs := rfl
@[simp] theorem event_staging (d k c a : Nat) : (s.event d k c a).staging = s.staging := rfl
@[simp] theorem event_qps (d k c a : Nat) : (s.event d k c a).qps = s.qps := rfl
@[simp] theorem event_streams (d k c a : Nat) : (s.event d k c a).streams = s.streams := rfl
@[simp] theorem event_jobs (d k c a : Nat) : (s.event d k c a).jobs = s.jobs := rfl
@[simp] theorem event_tickets (d k c a : Nat) : (s.event d k c a).tickets = s.tickets := rfl
@[simp] theorem event_nextNumber (d k c a : Nat) : (s.event d k c a).nextNumber = s.nextNumber := rfl
@[simp] theorem event_routing (d k c a : Nat) : (s.event d k c a).routing = s.routing := rfl
@[simp] theorem event_partnerPending (d k c a : Nat) : (s.event d k c a).partnerPending = s.partnerPending := rfl
@[simp] theorem event_twin (d k c a : Nat) : (s.event d k c a).twin = s.twin := rfl
@[simp] theorem event_recoveries (d k c a : Nat) : (s.event d k c a).recoveries = s.recoveries := rfl
@[simp] theorem event_crash (d k c a : Nat) : (s.event d k c a).crash = s.crash := rfl
@[simp] theorem event_recoverySeq (d k c a : Nat) : (s.event d k c a).recoverySeq = s.recoverySeq := rfl
@[simp] theorem event_activation (d k c a : Nat) : (s.event d k c a).activation = s.activation := rfl
@[simp] theorem event_lifeLog (d k c a : Nat) : (s.event d k c a).lifeLog = s.lifeLog := rfl
@[simp] theorem event_lifBusy (d k c a : Nat) : (s.event d k c a).lifBusy = s.lifBusy := rfl
@[simp] theorem event_lifAgain (d k c a : Nat) : (s.event d k c a).lifAgain = s.lifAgain := rfl
@[simp] theorem event_lifOk (d k c a : Nat) : (s.event d k c a).lifOk = s.lifOk := rfl
@[simp] theorem event_lifSaving (d k c a : Nat) : (s.event d k c a).lifSaving = s.lifSaving := rfl
@[simp] theorem event_lifAt (d k c a : Nat) : (s.event d k c a).lifAt = s.lifAt := rfl

/-! ### State.setThread -/

@[simp] theorem setThread_pending (t : Thread) : (s.setThread t).pending = s.pending := rfl
@[simp] theorem setThread_part (t : Thread) : (s.setThread t).part = s.part := rfl
@[simp] theorem setThread_phase (t : Thread) : (s.setThread t).phase = s.phase := rfl
@[simp] theorem setThread_gts (t : Thread) : (s.setThread t).gts = s.gts := rfl
@[simp] theorem setThread_slew (t : Thread) : (s.setThread t).slew = s.slew := rfl
@[simp] theorem setThread_slewPhase (t : Thread) : (s.setThread t).slewPhase = s.slewPhase := rfl
@[simp] theorem setThread_freeCtr (t : Thread) : (s.setThread t).freeCtr = s.freeCtr := rfl
@[simp] theorem setThread_out (t : Thread) : (s.setThread t).out = s.out := rfl
@[simp] theorem setThread_resetN (t : Thread) : (s.setThread t).resetN = s.resetN := rfl
@[simp] theorem setThread_pwrGood (t : Thread) : (s.setThread t).pwrGood = s.pwrGood := rfl
@[simp] theorem setThread_thermTrip (t : Thread) : (s.setThread t).thermTrip = s.thermTrip := rfl
@[simp] theorem setThread_gtsPps (t : Thread) : (s.setThread t).gtsPps = s.gtsPps := rfl
@[simp] theorem setThread_align (t : Thread) : (s.setThread t).align = s.align := rfl
@[simp] theorem setThread_bootMode (t : Thread) : (s.setThread t).bootMode = s.bootMode := rfl
@[simp] theorem setThread_bootSource (t : Thread) : (s.setThread t).bootSource = s.bootSource := rfl
@[simp] theorem setThread_bootResult (t : Thread) : (s.setThread t).bootResult = s.bootResult := rfl
@[simp] theorem setThread_bootDie (t : Thread) : (s.setThread t).bootDie = s.bootDie := rfl
@[simp] theorem setThread_chainOk (t : Thread) : (s.setThread t).chainOk = s.chainOk := rfl
@[simp] theorem setThread_image (t : Thread) : (s.setThread t).image = s.image := rfl
@[simp] theorem setThread_rebootAt (t : Thread) : (s.setThread t).rebootAt = s.rebootAt := rfl
@[simp] theorem setThread_allow (t : Thread) : (s.setThread t).allow = s.allow := rfl
@[simp] theorem setThread_log (t : Thread) : (s.setThread t).log = s.log := rfl
@[simp] theorem setThread_logSeq (t : Thread) : (s.setThread t).logSeq = s.logSeq := rfl
@[simp] theorem setThread_logAt (t : Thread) : (s.setThread t).logAt = s.logAt := rfl
@[simp] theorem setThread_flash (t : Thread) : (s.setThread t).flash = s.flash := rfl
@[simp] theorem setThread_dies (t : Thread) : (s.setThread t).dies = s.dies := rfl
@[simp] theorem setThread_hulPackage (t : Thread) : (s.setThread t).hulPackage = s.hulPackage := rfl
@[simp] theorem setThread_hulEvtOut (t : Thread) : (s.setThread t).hulEvtOut = s.hulEvtOut := rfl
@[simp] theorem setThread_hulT7 (t : Thread) : (s.setThread t).hulT7 = s.hulT7 := rfl
@[simp] theorem setThread_t7At (t : Thread) : (s.setThread t).t7At = s.t7At := rfl
@[simp] theorem setThread_mem (t : Thread) : (s.setThread t).mem = s.mem := rfl
@[simp] theorem setThread_sides (t : Thread) : (s.setThread t).sides = s.sides := rfl
@[simp] theorem setThread_dynamic (t : Thread) : (s.setThread t).dynamic = s.dynamic := rfl
@[simp] theorem setThread_barriers (t : Thread) : (s.setThread t).barriers = s.barriers := rfl
@[simp] theorem setThread_istore (t : Thread) : (s.setThread t).istore = s.istore := rfl
@[simp] theorem setThread_banks (t : Thread) : (s.setThread t).banks = s.banks := rfl
@[simp] theorem setThread_activeBank (t : Thread) : (s.setThread t).activeBank = s.activeBank := rfl
@[simp] theorem setThread_profiles (t : Thread) : (s.setThread t).profiles = s.profiles := rfl
@[simp] theorem setThread_loading (t : Thread) : (s.setThread t).loading = s.loading := rfl
@[simp] theorem setThread_sessionCtr (t : Thread) : (s.setThread t).sessionCtr = s.sessionCtr := rfl
@[simp] theorem setThread_sessions (t : Thread) : (s.setThread t).sessions = s.sessions := rfl
@[simp] theorem setThread_indRegs (t : Thread) : (s.setThread t).indRegs = s.indRegs := rfl
@[simp] theorem setThread_staging (t : Thread) : (s.setThread t).staging = s.staging := rfl
@[simp] theorem setThread_qps (t : Thread) : (s.setThread t).qps = s.qps := rfl
@[simp] theorem setThread_streams (t : Thread) : (s.setThread t).streams = s.streams := rfl
@[simp] theorem setThread_jobs (t : Thread) : (s.setThread t).jobs = s.jobs := rfl
@[simp] theorem setThread_tickets (t : Thread) : (s.setThread t).tickets = s.tickets := rfl
@[simp] theorem setThread_nextNumber (t : Thread) : (s.setThread t).nextNumber = s.nextNumber := rfl
@[simp] theorem setThread_routing (t : Thread) : (s.setThread t).routing = s.routing := rfl
@[simp] theorem setThread_partnerPending (t : Thread) : (s.setThread t).partnerPending = s.partnerPending := rfl
@[simp] theorem setThread_twin (t : Thread) : (s.setThread t).twin = s.twin := rfl
@[simp] theorem setThread_recoveries (t : Thread) : (s.setThread t).recoveries = s.recoveries := rfl
@[simp] theorem setThread_crash (t : Thread) : (s.setThread t).crash = s.crash := rfl
@[simp] theorem setThread_recoverySeq (t : Thread) : (s.setThread t).recoverySeq = s.recoverySeq := rfl
@[simp] theorem setThread_activation (t : Thread) : (s.setThread t).activation = s.activation := rfl
@[simp] theorem setThread_lifeLog (t : Thread) : (s.setThread t).lifeLog = s.lifeLog := rfl
@[simp] theorem setThread_lifBusy (t : Thread) : (s.setThread t).lifBusy = s.lifBusy := rfl
@[simp] theorem setThread_lifAgain (t : Thread) : (s.setThread t).lifAgain = s.lifAgain := rfl
@[simp] theorem setThread_lifOk (t : Thread) : (s.setThread t).lifOk = s.lifOk := rfl
@[simp] theorem setThread_lifSaving (t : Thread) : (s.setThread t).lifSaving = s.lifSaving := rfl
@[simp] theorem setThread_lifAt (t : Thread) : (s.setThread t).lifAt = s.lifAt := rfl

/-! ### State.onThreads -/

@[simp] theorem onThreads_pending (f : Thread → Thread) : (s.onThreads f).pending = s.pending := rfl
@[simp] theorem onThreads_part (f : Thread → Thread) : (s.onThreads f).part = s.part := rfl
@[simp] theorem onThreads_phase (f : Thread → Thread) : (s.onThreads f).phase = s.phase := rfl
@[simp] theorem onThreads_gts (f : Thread → Thread) : (s.onThreads f).gts = s.gts := rfl
@[simp] theorem onThreads_slew (f : Thread → Thread) : (s.onThreads f).slew = s.slew := rfl
@[simp] theorem onThreads_slewPhase (f : Thread → Thread) : (s.onThreads f).slewPhase = s.slewPhase := rfl
@[simp] theorem onThreads_freeCtr (f : Thread → Thread) : (s.onThreads f).freeCtr = s.freeCtr := rfl
@[simp] theorem onThreads_out (f : Thread → Thread) : (s.onThreads f).out = s.out := rfl
@[simp] theorem onThreads_resetN (f : Thread → Thread) : (s.onThreads f).resetN = s.resetN := rfl
@[simp] theorem onThreads_pwrGood (f : Thread → Thread) : (s.onThreads f).pwrGood = s.pwrGood := rfl
@[simp] theorem onThreads_thermTrip (f : Thread → Thread) : (s.onThreads f).thermTrip = s.thermTrip := rfl
@[simp] theorem onThreads_gtsPps (f : Thread → Thread) : (s.onThreads f).gtsPps = s.gtsPps := rfl
@[simp] theorem onThreads_align (f : Thread → Thread) : (s.onThreads f).align = s.align := rfl
@[simp] theorem onThreads_bootMode (f : Thread → Thread) : (s.onThreads f).bootMode = s.bootMode := rfl
@[simp] theorem onThreads_bootSource (f : Thread → Thread) : (s.onThreads f).bootSource = s.bootSource := rfl
@[simp] theorem onThreads_bootResult (f : Thread → Thread) : (s.onThreads f).bootResult = s.bootResult := rfl
@[simp] theorem onThreads_bootDie (f : Thread → Thread) : (s.onThreads f).bootDie = s.bootDie := rfl
@[simp] theorem onThreads_chainOk (f : Thread → Thread) : (s.onThreads f).chainOk = s.chainOk := rfl
@[simp] theorem onThreads_image (f : Thread → Thread) : (s.onThreads f).image = s.image := rfl
@[simp] theorem onThreads_rebootAt (f : Thread → Thread) : (s.onThreads f).rebootAt = s.rebootAt := rfl
@[simp] theorem onThreads_allow (f : Thread → Thread) : (s.onThreads f).allow = s.allow := rfl
@[simp] theorem onThreads_log (f : Thread → Thread) : (s.onThreads f).log = s.log := rfl
@[simp] theorem onThreads_logSeq (f : Thread → Thread) : (s.onThreads f).logSeq = s.logSeq := rfl
@[simp] theorem onThreads_logAt (f : Thread → Thread) : (s.onThreads f).logAt = s.logAt := rfl
@[simp] theorem onThreads_flash (f : Thread → Thread) : (s.onThreads f).flash = s.flash := rfl
@[simp] theorem onThreads_dies (f : Thread → Thread) : (s.onThreads f).dies = s.dies := rfl
@[simp] theorem onThreads_hulPackage (f : Thread → Thread) : (s.onThreads f).hulPackage = s.hulPackage := rfl
@[simp] theorem onThreads_hulEvtOut (f : Thread → Thread) : (s.onThreads f).hulEvtOut = s.hulEvtOut := rfl
@[simp] theorem onThreads_hulT7 (f : Thread → Thread) : (s.onThreads f).hulT7 = s.hulT7 := rfl
@[simp] theorem onThreads_t7At (f : Thread → Thread) : (s.onThreads f).t7At = s.t7At := rfl
@[simp] theorem onThreads_mem (f : Thread → Thread) : (s.onThreads f).mem = s.mem := rfl
@[simp] theorem onThreads_sides (f : Thread → Thread) : (s.onThreads f).sides = s.sides := rfl
@[simp] theorem onThreads_dynamic (f : Thread → Thread) : (s.onThreads f).dynamic = s.dynamic := rfl
@[simp] theorem onThreads_barriers (f : Thread → Thread) : (s.onThreads f).barriers = s.barriers := rfl
@[simp] theorem onThreads_istore (f : Thread → Thread) : (s.onThreads f).istore = s.istore := rfl
@[simp] theorem onThreads_banks (f : Thread → Thread) : (s.onThreads f).banks = s.banks := rfl
@[simp] theorem onThreads_activeBank (f : Thread → Thread) : (s.onThreads f).activeBank = s.activeBank := rfl
@[simp] theorem onThreads_profiles (f : Thread → Thread) : (s.onThreads f).profiles = s.profiles := rfl
@[simp] theorem onThreads_loading (f : Thread → Thread) : (s.onThreads f).loading = s.loading := rfl
@[simp] theorem onThreads_sessionCtr (f : Thread → Thread) : (s.onThreads f).sessionCtr = s.sessionCtr := rfl
@[simp] theorem onThreads_sessions (f : Thread → Thread) : (s.onThreads f).sessions = s.sessions := rfl
@[simp] theorem onThreads_indRegs (f : Thread → Thread) : (s.onThreads f).indRegs = s.indRegs := rfl
@[simp] theorem onThreads_staging (f : Thread → Thread) : (s.onThreads f).staging = s.staging := rfl
@[simp] theorem onThreads_qps (f : Thread → Thread) : (s.onThreads f).qps = s.qps := rfl
@[simp] theorem onThreads_streams (f : Thread → Thread) : (s.onThreads f).streams = s.streams := rfl
@[simp] theorem onThreads_jobs (f : Thread → Thread) : (s.onThreads f).jobs = s.jobs := rfl
@[simp] theorem onThreads_tickets (f : Thread → Thread) : (s.onThreads f).tickets = s.tickets := rfl
@[simp] theorem onThreads_nextNumber (f : Thread → Thread) : (s.onThreads f).nextNumber = s.nextNumber := rfl
@[simp] theorem onThreads_routing (f : Thread → Thread) : (s.onThreads f).routing = s.routing := rfl
@[simp] theorem onThreads_partnerPending (f : Thread → Thread) : (s.onThreads f).partnerPending = s.partnerPending := rfl
@[simp] theorem onThreads_twin (f : Thread → Thread) : (s.onThreads f).twin = s.twin := rfl
@[simp] theorem onThreads_recoveries (f : Thread → Thread) : (s.onThreads f).recoveries = s.recoveries := rfl
@[simp] theorem onThreads_crash (f : Thread → Thread) : (s.onThreads f).crash = s.crash := rfl
@[simp] theorem onThreads_recoverySeq (f : Thread → Thread) : (s.onThreads f).recoverySeq = s.recoverySeq := rfl
@[simp] theorem onThreads_activation (f : Thread → Thread) : (s.onThreads f).activation = s.activation := rfl
@[simp] theorem onThreads_lifeLog (f : Thread → Thread) : (s.onThreads f).lifeLog = s.lifeLog := rfl
@[simp] theorem onThreads_lifBusy (f : Thread → Thread) : (s.onThreads f).lifBusy = s.lifBusy := rfl
@[simp] theorem onThreads_lifAgain (f : Thread → Thread) : (s.onThreads f).lifAgain = s.lifAgain := rfl
@[simp] theorem onThreads_lifOk (f : Thread → Thread) : (s.onThreads f).lifOk = s.lifOk := rfl
@[simp] theorem onThreads_lifSaving (f : Thread → Thread) : (s.onThreads f).lifSaving = s.lifSaving := rfl
@[simp] theorem onThreads_lifAt (f : Thread → Thread) : (s.onThreads f).lifAt = s.lifAt := rfl

/-! ### State.setStream -/

@[simp] theorem setStream_pending (x : Stream) : (s.setStream x).pending = s.pending := rfl
@[simp] theorem setStream_part (x : Stream) : (s.setStream x).part = s.part := rfl
@[simp] theorem setStream_phase (x : Stream) : (s.setStream x).phase = s.phase := rfl
@[simp] theorem setStream_gts (x : Stream) : (s.setStream x).gts = s.gts := rfl
@[simp] theorem setStream_slew (x : Stream) : (s.setStream x).slew = s.slew := rfl
@[simp] theorem setStream_slewPhase (x : Stream) : (s.setStream x).slewPhase = s.slewPhase := rfl
@[simp] theorem setStream_freeCtr (x : Stream) : (s.setStream x).freeCtr = s.freeCtr := rfl
@[simp] theorem setStream_out (x : Stream) : (s.setStream x).out = s.out := rfl
@[simp] theorem setStream_resetN (x : Stream) : (s.setStream x).resetN = s.resetN := rfl
@[simp] theorem setStream_pwrGood (x : Stream) : (s.setStream x).pwrGood = s.pwrGood := rfl
@[simp] theorem setStream_thermTrip (x : Stream) : (s.setStream x).thermTrip = s.thermTrip := rfl
@[simp] theorem setStream_gtsPps (x : Stream) : (s.setStream x).gtsPps = s.gtsPps := rfl
@[simp] theorem setStream_align (x : Stream) : (s.setStream x).align = s.align := rfl
@[simp] theorem setStream_bootMode (x : Stream) : (s.setStream x).bootMode = s.bootMode := rfl
@[simp] theorem setStream_bootSource (x : Stream) : (s.setStream x).bootSource = s.bootSource := rfl
@[simp] theorem setStream_bootResult (x : Stream) : (s.setStream x).bootResult = s.bootResult := rfl
@[simp] theorem setStream_bootDie (x : Stream) : (s.setStream x).bootDie = s.bootDie := rfl
@[simp] theorem setStream_chainOk (x : Stream) : (s.setStream x).chainOk = s.chainOk := rfl
@[simp] theorem setStream_image (x : Stream) : (s.setStream x).image = s.image := rfl
@[simp] theorem setStream_rebootAt (x : Stream) : (s.setStream x).rebootAt = s.rebootAt := rfl
@[simp] theorem setStream_allow (x : Stream) : (s.setStream x).allow = s.allow := rfl
@[simp] theorem setStream_log (x : Stream) : (s.setStream x).log = s.log := rfl
@[simp] theorem setStream_logSeq (x : Stream) : (s.setStream x).logSeq = s.logSeq := rfl
@[simp] theorem setStream_logAt (x : Stream) : (s.setStream x).logAt = s.logAt := rfl
@[simp] theorem setStream_flash (x : Stream) : (s.setStream x).flash = s.flash := rfl
@[simp] theorem setStream_dies (x : Stream) : (s.setStream x).dies = s.dies := rfl
@[simp] theorem setStream_hulPackage (x : Stream) : (s.setStream x).hulPackage = s.hulPackage := rfl
@[simp] theorem setStream_hulEvtOut (x : Stream) : (s.setStream x).hulEvtOut = s.hulEvtOut := rfl
@[simp] theorem setStream_hulT7 (x : Stream) : (s.setStream x).hulT7 = s.hulT7 := rfl
@[simp] theorem setStream_t7At (x : Stream) : (s.setStream x).t7At = s.t7At := rfl
@[simp] theorem setStream_mem (x : Stream) : (s.setStream x).mem = s.mem := rfl
@[simp] theorem setStream_threads (x : Stream) : (s.setStream x).threads = s.threads := rfl
@[simp] theorem setStream_sides (x : Stream) : (s.setStream x).sides = s.sides := rfl
@[simp] theorem setStream_dynamic (x : Stream) : (s.setStream x).dynamic = s.dynamic := rfl
@[simp] theorem setStream_barriers (x : Stream) : (s.setStream x).barriers = s.barriers := rfl
@[simp] theorem setStream_istore (x : Stream) : (s.setStream x).istore = s.istore := rfl
@[simp] theorem setStream_banks (x : Stream) : (s.setStream x).banks = s.banks := rfl
@[simp] theorem setStream_activeBank (x : Stream) : (s.setStream x).activeBank = s.activeBank := rfl
@[simp] theorem setStream_profiles (x : Stream) : (s.setStream x).profiles = s.profiles := rfl
@[simp] theorem setStream_loading (x : Stream) : (s.setStream x).loading = s.loading := rfl
@[simp] theorem setStream_sessionCtr (x : Stream) : (s.setStream x).sessionCtr = s.sessionCtr := rfl
@[simp] theorem setStream_sessions (x : Stream) : (s.setStream x).sessions = s.sessions := rfl
@[simp] theorem setStream_indRegs (x : Stream) : (s.setStream x).indRegs = s.indRegs := rfl
@[simp] theorem setStream_staging (x : Stream) : (s.setStream x).staging = s.staging := rfl
@[simp] theorem setStream_qps (x : Stream) : (s.setStream x).qps = s.qps := rfl
@[simp] theorem setStream_jobs (x : Stream) : (s.setStream x).jobs = s.jobs := rfl
@[simp] theorem setStream_tickets (x : Stream) : (s.setStream x).tickets = s.tickets := rfl
@[simp] theorem setStream_nextNumber (x : Stream) : (s.setStream x).nextNumber = s.nextNumber := rfl
@[simp] theorem setStream_routing (x : Stream) : (s.setStream x).routing = s.routing := rfl
@[simp] theorem setStream_partnerPending (x : Stream) : (s.setStream x).partnerPending = s.partnerPending := rfl
@[simp] theorem setStream_twin (x : Stream) : (s.setStream x).twin = s.twin := rfl
@[simp] theorem setStream_recoveries (x : Stream) : (s.setStream x).recoveries = s.recoveries := rfl
@[simp] theorem setStream_crash (x : Stream) : (s.setStream x).crash = s.crash := rfl
@[simp] theorem setStream_recoverySeq (x : Stream) : (s.setStream x).recoverySeq = s.recoverySeq := rfl
@[simp] theorem setStream_activation (x : Stream) : (s.setStream x).activation = s.activation := rfl
@[simp] theorem setStream_lifeLog (x : Stream) : (s.setStream x).lifeLog = s.lifeLog := rfl
@[simp] theorem setStream_lifBusy (x : Stream) : (s.setStream x).lifBusy = s.lifBusy := rfl
@[simp] theorem setStream_lifAgain (x : Stream) : (s.setStream x).lifAgain = s.lifAgain := rfl
@[simp] theorem setStream_lifOk (x : Stream) : (s.setStream x).lifOk = s.lifOk := rfl
@[simp] theorem setStream_lifSaving (x : Stream) : (s.setStream x).lifSaving = s.lifSaving := rfl
@[simp] theorem setStream_lifAt (x : Stream) : (s.setStream x).lifAt = s.lifAt := rfl

/-! ### State.setJob -/

@[simp] theorem setJob_pending (j : Job) : (s.setJob j).pending = s.pending := rfl
@[simp] theorem setJob_part (j : Job) : (s.setJob j).part = s.part := rfl
@[simp] theorem setJob_phase (j : Job) : (s.setJob j).phase = s.phase := rfl
@[simp] theorem setJob_gts (j : Job) : (s.setJob j).gts = s.gts := rfl
@[simp] theorem setJob_slew (j : Job) : (s.setJob j).slew = s.slew := rfl
@[simp] theorem setJob_slewPhase (j : Job) : (s.setJob j).slewPhase = s.slewPhase := rfl
@[simp] theorem setJob_freeCtr (j : Job) : (s.setJob j).freeCtr = s.freeCtr := rfl
@[simp] theorem setJob_out (j : Job) : (s.setJob j).out = s.out := rfl
@[simp] theorem setJob_resetN (j : Job) : (s.setJob j).resetN = s.resetN := rfl
@[simp] theorem setJob_pwrGood (j : Job) : (s.setJob j).pwrGood = s.pwrGood := rfl
@[simp] theorem setJob_thermTrip (j : Job) : (s.setJob j).thermTrip = s.thermTrip := rfl
@[simp] theorem setJob_gtsPps (j : Job) : (s.setJob j).gtsPps = s.gtsPps := rfl
@[simp] theorem setJob_align (j : Job) : (s.setJob j).align = s.align := rfl
@[simp] theorem setJob_bootMode (j : Job) : (s.setJob j).bootMode = s.bootMode := rfl
@[simp] theorem setJob_bootSource (j : Job) : (s.setJob j).bootSource = s.bootSource := rfl
@[simp] theorem setJob_bootResult (j : Job) : (s.setJob j).bootResult = s.bootResult := rfl
@[simp] theorem setJob_bootDie (j : Job) : (s.setJob j).bootDie = s.bootDie := rfl
@[simp] theorem setJob_chainOk (j : Job) : (s.setJob j).chainOk = s.chainOk := rfl
@[simp] theorem setJob_image (j : Job) : (s.setJob j).image = s.image := rfl
@[simp] theorem setJob_rebootAt (j : Job) : (s.setJob j).rebootAt = s.rebootAt := rfl
@[simp] theorem setJob_allow (j : Job) : (s.setJob j).allow = s.allow := rfl
@[simp] theorem setJob_log (j : Job) : (s.setJob j).log = s.log := rfl
@[simp] theorem setJob_logSeq (j : Job) : (s.setJob j).logSeq = s.logSeq := rfl
@[simp] theorem setJob_logAt (j : Job) : (s.setJob j).logAt = s.logAt := rfl
@[simp] theorem setJob_flash (j : Job) : (s.setJob j).flash = s.flash := rfl
@[simp] theorem setJob_dies (j : Job) : (s.setJob j).dies = s.dies := rfl
@[simp] theorem setJob_hulPackage (j : Job) : (s.setJob j).hulPackage = s.hulPackage := rfl
@[simp] theorem setJob_hulEvtOut (j : Job) : (s.setJob j).hulEvtOut = s.hulEvtOut := rfl
@[simp] theorem setJob_hulT7 (j : Job) : (s.setJob j).hulT7 = s.hulT7 := rfl
@[simp] theorem setJob_t7At (j : Job) : (s.setJob j).t7At = s.t7At := rfl
@[simp] theorem setJob_mem (j : Job) : (s.setJob j).mem = s.mem := rfl
@[simp] theorem setJob_threads (j : Job) : (s.setJob j).threads = s.threads := rfl
@[simp] theorem setJob_sides (j : Job) : (s.setJob j).sides = s.sides := rfl
@[simp] theorem setJob_dynamic (j : Job) : (s.setJob j).dynamic = s.dynamic := rfl
@[simp] theorem setJob_barriers (j : Job) : (s.setJob j).barriers = s.barriers := rfl
@[simp] theorem setJob_istore (j : Job) : (s.setJob j).istore = s.istore := rfl
@[simp] theorem setJob_banks (j : Job) : (s.setJob j).banks = s.banks := rfl
@[simp] theorem setJob_activeBank (j : Job) : (s.setJob j).activeBank = s.activeBank := rfl
@[simp] theorem setJob_profiles (j : Job) : (s.setJob j).profiles = s.profiles := rfl
@[simp] theorem setJob_loading (j : Job) : (s.setJob j).loading = s.loading := rfl
@[simp] theorem setJob_sessionCtr (j : Job) : (s.setJob j).sessionCtr = s.sessionCtr := rfl
@[simp] theorem setJob_sessions (j : Job) : (s.setJob j).sessions = s.sessions := rfl
@[simp] theorem setJob_indRegs (j : Job) : (s.setJob j).indRegs = s.indRegs := rfl
@[simp] theorem setJob_staging (j : Job) : (s.setJob j).staging = s.staging := rfl
@[simp] theorem setJob_qps (j : Job) : (s.setJob j).qps = s.qps := rfl
@[simp] theorem setJob_streams (j : Job) : (s.setJob j).streams = s.streams := rfl
@[simp] theorem setJob_tickets (j : Job) : (s.setJob j).tickets = s.tickets := rfl
@[simp] theorem setJob_nextNumber (j : Job) : (s.setJob j).nextNumber = s.nextNumber := rfl
@[simp] theorem setJob_routing (j : Job) : (s.setJob j).routing = s.routing := rfl
@[simp] theorem setJob_partnerPending (j : Job) : (s.setJob j).partnerPending = s.partnerPending := rfl
@[simp] theorem setJob_twin (j : Job) : (s.setJob j).twin = s.twin := rfl
@[simp] theorem setJob_recoveries (j : Job) : (s.setJob j).recoveries = s.recoveries := rfl
@[simp] theorem setJob_crash (j : Job) : (s.setJob j).crash = s.crash := rfl
@[simp] theorem setJob_recoverySeq (j : Job) : (s.setJob j).recoverySeq = s.recoverySeq := rfl
@[simp] theorem setJob_activation (j : Job) : (s.setJob j).activation = s.activation := rfl
@[simp] theorem setJob_lifeLog (j : Job) : (s.setJob j).lifeLog = s.lifeLog := rfl
@[simp] theorem setJob_lifBusy (j : Job) : (s.setJob j).lifBusy = s.lifBusy := rfl
@[simp] theorem setJob_lifAgain (j : Job) : (s.setJob j).lifAgain = s.lifAgain := rfl
@[simp] theorem setJob_lifOk (j : Job) : (s.setJob j).lifOk = s.lifOk := rfl
@[simp] theorem setJob_lifSaving (j : Job) : (s.setJob j).lifSaving = s.lifSaving := rfl
@[simp] theorem setJob_lifAt (j : Job) : (s.setJob j).lifAt = s.lifAt := rfl

/-! ### State.setSession -/

@[simp] theorem setSession_pending (x : Session) : (s.setSession x).pending = s.pending := rfl
@[simp] theorem setSession_part (x : Session) : (s.setSession x).part = s.part := rfl
@[simp] theorem setSession_phase (x : Session) : (s.setSession x).phase = s.phase := rfl
@[simp] theorem setSession_gts (x : Session) : (s.setSession x).gts = s.gts := rfl
@[simp] theorem setSession_slew (x : Session) : (s.setSession x).slew = s.slew := rfl
@[simp] theorem setSession_slewPhase (x : Session) : (s.setSession x).slewPhase = s.slewPhase := rfl
@[simp] theorem setSession_freeCtr (x : Session) : (s.setSession x).freeCtr = s.freeCtr := rfl
@[simp] theorem setSession_out (x : Session) : (s.setSession x).out = s.out := rfl
@[simp] theorem setSession_resetN (x : Session) : (s.setSession x).resetN = s.resetN := rfl
@[simp] theorem setSession_pwrGood (x : Session) : (s.setSession x).pwrGood = s.pwrGood := rfl
@[simp] theorem setSession_thermTrip (x : Session) : (s.setSession x).thermTrip = s.thermTrip := rfl
@[simp] theorem setSession_gtsPps (x : Session) : (s.setSession x).gtsPps = s.gtsPps := rfl
@[simp] theorem setSession_align (x : Session) : (s.setSession x).align = s.align := rfl
@[simp] theorem setSession_bootMode (x : Session) : (s.setSession x).bootMode = s.bootMode := rfl
@[simp] theorem setSession_bootSource (x : Session) : (s.setSession x).bootSource = s.bootSource := rfl
@[simp] theorem setSession_bootResult (x : Session) : (s.setSession x).bootResult = s.bootResult := rfl
@[simp] theorem setSession_bootDie (x : Session) : (s.setSession x).bootDie = s.bootDie := rfl
@[simp] theorem setSession_chainOk (x : Session) : (s.setSession x).chainOk = s.chainOk := rfl
@[simp] theorem setSession_image (x : Session) : (s.setSession x).image = s.image := rfl
@[simp] theorem setSession_rebootAt (x : Session) : (s.setSession x).rebootAt = s.rebootAt := rfl
@[simp] theorem setSession_allow (x : Session) : (s.setSession x).allow = s.allow := rfl
@[simp] theorem setSession_log (x : Session) : (s.setSession x).log = s.log := rfl
@[simp] theorem setSession_logSeq (x : Session) : (s.setSession x).logSeq = s.logSeq := rfl
@[simp] theorem setSession_logAt (x : Session) : (s.setSession x).logAt = s.logAt := rfl
@[simp] theorem setSession_flash (x : Session) : (s.setSession x).flash = s.flash := rfl
@[simp] theorem setSession_dies (x : Session) : (s.setSession x).dies = s.dies := rfl
@[simp] theorem setSession_hulPackage (x : Session) : (s.setSession x).hulPackage = s.hulPackage := rfl
@[simp] theorem setSession_hulEvtOut (x : Session) : (s.setSession x).hulEvtOut = s.hulEvtOut := rfl
@[simp] theorem setSession_hulT7 (x : Session) : (s.setSession x).hulT7 = s.hulT7 := rfl
@[simp] theorem setSession_t7At (x : Session) : (s.setSession x).t7At = s.t7At := rfl
@[simp] theorem setSession_mem (x : Session) : (s.setSession x).mem = s.mem := rfl
@[simp] theorem setSession_threads (x : Session) : (s.setSession x).threads = s.threads := rfl
@[simp] theorem setSession_sides (x : Session) : (s.setSession x).sides = s.sides := rfl
@[simp] theorem setSession_dynamic (x : Session) : (s.setSession x).dynamic = s.dynamic := rfl
@[simp] theorem setSession_barriers (x : Session) : (s.setSession x).barriers = s.barriers := rfl
@[simp] theorem setSession_istore (x : Session) : (s.setSession x).istore = s.istore := rfl
@[simp] theorem setSession_banks (x : Session) : (s.setSession x).banks = s.banks := rfl
@[simp] theorem setSession_activeBank (x : Session) : (s.setSession x).activeBank = s.activeBank := rfl
@[simp] theorem setSession_profiles (x : Session) : (s.setSession x).profiles = s.profiles := rfl
@[simp] theorem setSession_loading (x : Session) : (s.setSession x).loading = s.loading := rfl
@[simp] theorem setSession_sessionCtr (x : Session) : (s.setSession x).sessionCtr = s.sessionCtr := rfl
@[simp] theorem setSession_indRegs (x : Session) : (s.setSession x).indRegs = s.indRegs := rfl
@[simp] theorem setSession_staging (x : Session) : (s.setSession x).staging = s.staging := rfl
@[simp] theorem setSession_qps (x : Session) : (s.setSession x).qps = s.qps := rfl
@[simp] theorem setSession_streams (x : Session) : (s.setSession x).streams = s.streams := rfl
@[simp] theorem setSession_jobs (x : Session) : (s.setSession x).jobs = s.jobs := rfl
@[simp] theorem setSession_tickets (x : Session) : (s.setSession x).tickets = s.tickets := rfl
@[simp] theorem setSession_nextNumber (x : Session) : (s.setSession x).nextNumber = s.nextNumber := rfl
@[simp] theorem setSession_routing (x : Session) : (s.setSession x).routing = s.routing := rfl
@[simp] theorem setSession_partnerPending (x : Session) : (s.setSession x).partnerPending = s.partnerPending := rfl
@[simp] theorem setSession_twin (x : Session) : (s.setSession x).twin = s.twin := rfl
@[simp] theorem setSession_recoveries (x : Session) : (s.setSession x).recoveries = s.recoveries := rfl
@[simp] theorem setSession_crash (x : Session) : (s.setSession x).crash = s.crash := rfl
@[simp] theorem setSession_recoverySeq (x : Session) : (s.setSession x).recoverySeq = s.recoverySeq := rfl
@[simp] theorem setSession_activation (x : Session) : (s.setSession x).activation = s.activation := rfl
@[simp] theorem setSession_lifeLog (x : Session) : (s.setSession x).lifeLog = s.lifeLog := rfl
@[simp] theorem setSession_lifBusy (x : Session) : (s.setSession x).lifBusy = s.lifBusy := rfl
@[simp] theorem setSession_lifAgain (x : Session) : (s.setSession x).lifAgain = s.lifAgain := rfl
@[simp] theorem setSession_lifOk (x : Session) : (s.setSession x).lifOk = s.lifOk := rfl
@[simp] theorem setSession_lifSaving (x : Session) : (s.setSession x).lifSaving = s.lifSaving := rfl
@[simp] theorem setSession_lifAt (x : Session) : (s.setSession x).lifAt = s.lifAt := rfl

/-! ### State.setQp -/

@[simp] theorem setQp_pending (q : QueuePair) : (s.setQp q).pending = s.pending := rfl
@[simp] theorem setQp_part (q : QueuePair) : (s.setQp q).part = s.part := rfl
@[simp] theorem setQp_phase (q : QueuePair) : (s.setQp q).phase = s.phase := rfl
@[simp] theorem setQp_gts (q : QueuePair) : (s.setQp q).gts = s.gts := rfl
@[simp] theorem setQp_slew (q : QueuePair) : (s.setQp q).slew = s.slew := rfl
@[simp] theorem setQp_slewPhase (q : QueuePair) : (s.setQp q).slewPhase = s.slewPhase := rfl
@[simp] theorem setQp_freeCtr (q : QueuePair) : (s.setQp q).freeCtr = s.freeCtr := rfl
@[simp] theorem setQp_out (q : QueuePair) : (s.setQp q).out = s.out := rfl
@[simp] theorem setQp_resetN (q : QueuePair) : (s.setQp q).resetN = s.resetN := rfl
@[simp] theorem setQp_pwrGood (q : QueuePair) : (s.setQp q).pwrGood = s.pwrGood := rfl
@[simp] theorem setQp_thermTrip (q : QueuePair) : (s.setQp q).thermTrip = s.thermTrip := rfl
@[simp] theorem setQp_gtsPps (q : QueuePair) : (s.setQp q).gtsPps = s.gtsPps := rfl
@[simp] theorem setQp_align (q : QueuePair) : (s.setQp q).align = s.align := rfl
@[simp] theorem setQp_bootMode (q : QueuePair) : (s.setQp q).bootMode = s.bootMode := rfl
@[simp] theorem setQp_bootSource (q : QueuePair) : (s.setQp q).bootSource = s.bootSource := rfl
@[simp] theorem setQp_bootResult (q : QueuePair) : (s.setQp q).bootResult = s.bootResult := rfl
@[simp] theorem setQp_bootDie (q : QueuePair) : (s.setQp q).bootDie = s.bootDie := rfl
@[simp] theorem setQp_chainOk (q : QueuePair) : (s.setQp q).chainOk = s.chainOk := rfl
@[simp] theorem setQp_image (q : QueuePair) : (s.setQp q).image = s.image := rfl
@[simp] theorem setQp_rebootAt (q : QueuePair) : (s.setQp q).rebootAt = s.rebootAt := rfl
@[simp] theorem setQp_allow (q : QueuePair) : (s.setQp q).allow = s.allow := rfl
@[simp] theorem setQp_log (q : QueuePair) : (s.setQp q).log = s.log := rfl
@[simp] theorem setQp_logSeq (q : QueuePair) : (s.setQp q).logSeq = s.logSeq := rfl
@[simp] theorem setQp_logAt (q : QueuePair) : (s.setQp q).logAt = s.logAt := rfl
@[simp] theorem setQp_flash (q : QueuePair) : (s.setQp q).flash = s.flash := rfl
@[simp] theorem setQp_dies (q : QueuePair) : (s.setQp q).dies = s.dies := rfl
@[simp] theorem setQp_hulPackage (q : QueuePair) : (s.setQp q).hulPackage = s.hulPackage := rfl
@[simp] theorem setQp_hulEvtOut (q : QueuePair) : (s.setQp q).hulEvtOut = s.hulEvtOut := rfl
@[simp] theorem setQp_hulT7 (q : QueuePair) : (s.setQp q).hulT7 = s.hulT7 := rfl
@[simp] theorem setQp_t7At (q : QueuePair) : (s.setQp q).t7At = s.t7At := rfl
@[simp] theorem setQp_mem (q : QueuePair) : (s.setQp q).mem = s.mem := rfl
@[simp] theorem setQp_threads (q : QueuePair) : (s.setQp q).threads = s.threads := rfl
@[simp] theorem setQp_sides (q : QueuePair) : (s.setQp q).sides = s.sides := rfl
@[simp] theorem setQp_dynamic (q : QueuePair) : (s.setQp q).dynamic = s.dynamic := rfl
@[simp] theorem setQp_barriers (q : QueuePair) : (s.setQp q).barriers = s.barriers := rfl
@[simp] theorem setQp_istore (q : QueuePair) : (s.setQp q).istore = s.istore := rfl
@[simp] theorem setQp_banks (q : QueuePair) : (s.setQp q).banks = s.banks := rfl
@[simp] theorem setQp_activeBank (q : QueuePair) : (s.setQp q).activeBank = s.activeBank := rfl
@[simp] theorem setQp_profiles (q : QueuePair) : (s.setQp q).profiles = s.profiles := rfl
@[simp] theorem setQp_loading (q : QueuePair) : (s.setQp q).loading = s.loading := rfl
@[simp] theorem setQp_sessionCtr (q : QueuePair) : (s.setQp q).sessionCtr = s.sessionCtr := rfl
@[simp] theorem setQp_sessions (q : QueuePair) : (s.setQp q).sessions = s.sessions := rfl
@[simp] theorem setQp_indRegs (q : QueuePair) : (s.setQp q).indRegs = s.indRegs := rfl
@[simp] theorem setQp_staging (q : QueuePair) : (s.setQp q).staging = s.staging := rfl
@[simp] theorem setQp_streams (q : QueuePair) : (s.setQp q).streams = s.streams := rfl
@[simp] theorem setQp_jobs (q : QueuePair) : (s.setQp q).jobs = s.jobs := rfl
@[simp] theorem setQp_tickets (q : QueuePair) : (s.setQp q).tickets = s.tickets := rfl
@[simp] theorem setQp_nextNumber (q : QueuePair) : (s.setQp q).nextNumber = s.nextNumber := rfl
@[simp] theorem setQp_routing (q : QueuePair) : (s.setQp q).routing = s.routing := rfl
@[simp] theorem setQp_partnerPending (q : QueuePair) : (s.setQp q).partnerPending = s.partnerPending := rfl
@[simp] theorem setQp_twin (q : QueuePair) : (s.setQp q).twin = s.twin := rfl
@[simp] theorem setQp_recoveries (q : QueuePair) : (s.setQp q).recoveries = s.recoveries := rfl
@[simp] theorem setQp_crash (q : QueuePair) : (s.setQp q).crash = s.crash := rfl
@[simp] theorem setQp_recoverySeq (q : QueuePair) : (s.setQp q).recoverySeq = s.recoverySeq := rfl
@[simp] theorem setQp_activation (q : QueuePair) : (s.setQp q).activation = s.activation := rfl
@[simp] theorem setQp_lifeLog (q : QueuePair) : (s.setQp q).lifeLog = s.lifeLog := rfl
@[simp] theorem setQp_lifBusy (q : QueuePair) : (s.setQp q).lifBusy = s.lifBusy := rfl
@[simp] theorem setQp_lifAgain (q : QueuePair) : (s.setQp q).lifAgain = s.lifAgain := rfl
@[simp] theorem setQp_lifOk (q : QueuePair) : (s.setQp q).lifOk = s.lifOk := rfl
@[simp] theorem setQp_lifSaving (q : QueuePair) : (s.setQp q).lifSaving = s.lifSaving := rfl
@[simp] theorem setQp_lifAt (q : QueuePair) : (s.setQp q).lifAt = s.lifAt := rfl

@[simp] theorem onDie_dies (d : Nat) (f : Die → Die) : (s.onDie d f).dies = modifyAt s.dies d f := rfl
@[simp] theorem onDies_dies (f : Die → Die) : (s.onDies f).dies = s.dies.map f := rfl
@[simp] theorem emit_out (o : Out) : (s.emit o).out = s.out ++ [o] := rfl
@[simp] theorem emits_out (o : List Out) : (s.emits o).out = s.out ++ o := rfl
@[simp] theorem put_mem (a : Nat) (b : List Byte) : (s.put a b).mem = Memory.writeBytes s.mem a b := rfl
@[simp] theorem putRuns_mem (r : List (Nat × List Byte)) : (s.putRuns r).mem = Memory.writeRuns s.mem r := rfl
@[simp] theorem clearMem_mem (a b : Nat) : (s.clearMem a b).mem = Memory.clear s.mem a b := rfl
@[simp] theorem draw_value : s.draw.1 = Sys2Proof.Config.freeValue s.freeCtr := rfl
@[simp] theorem draw_state : s.draw.2 = { s with freeCtr := s.freeCtr + 1 } := rfl

end Sys2Proof.Laws
end

