-- ==== Sys2Proof/Laws/Protocol.lean ====
section
/-! SUPPORT. What the order of checks of 13 R299 does with a request: one lemma for each way it can end. -/

namespace Sys2Proof.Laws

open Sys2Proof Sys2Proof.Machine

/-- The heard state keeps every die. -/
@[simp] theorem heard_dies (s : State) (x : Session) : (s.heard x).dies = s.dies := rfl
@[simp] theorem heard_gts (s : State) (x : Session) : (s.heard x).gts = s.gts := rfl
@[simp] theorem heard_phase (s : State) (x : Session) : (s.heard x).phase = s.phase := rfl
@[simp] theorem heard_part (s : State) (x : Session) : (s.heard x).part = s.part := rfl
@[simp] theorem heard_mem (s : State) (x : Session) : (s.heard x).mem = s.mem := rfl

/-- A new sequence number within the window of every pending request executes (13 R295, R297). -/
theorem seqCase_execute (x : Session) (n : Nat) (tag : List Byte) (hf : x.h < n)
    (hr : ∀ c ∈ x.cache, c.pending = true → n ≤ c.sequence + 63) : x.seqCase n tag = .execute := by
  have : (x.cache.any fun c => c.pending && decide (c.sequence + 63 < n)) = false := by
    rw [List.any_eq_false]
    intro c hc
    cases hp : c.pending
    · simp
    · have := hr c hc hp
      simp; omega
  simp [Session.seqCase, hf, this]

/-- A request that passes every check is handed to its command, and its answer is sent and cached. -/
theorem serve_accepted {s : State} {d : Datagram} {op : Nat} {priv : Bool} {owner : Option (List Byte)} {target : Option Nat}
    {x : Session} (h : Accepted s d op priv owner target x) (f : Session → State → State × Answer) :
    s.serve d op priv owner target f = (f (x.heard s) (s.heard x)).1.answer d op (f (x.heard s) (s.heard x)).2 := by
  obtain ⟨h1, h2, h3, h4, h5, h6, h7, h8, h9, h10, h11, h12, h13⟩ := h
  have hx : (if x.isOpen = true then ({ x with lastAt := s.gts } : Session) else x) = x.heard s := by rw [if_pos h9]; rfl
  have hs : (x.heard s).seqCase d.sequence.toNat d.tag = .execute := seqCase_execute _ _ _ h5 h6
  have h8' : (s.setSession (x.heard s)).opcodeAllowed op = true := h8
  have h9' : (x.heard s).isOpen = true := h9
  have h12' : (s.setSession (x.heard s)).packageRecovering = false := h12
  have hp : (priv && !(x.heard s).privileged) = false := by
    cases priv
    · rfl
    · show (true && !x.privileged) = false
      simp [h10 rfl]
  unfold State.serve State.inSequence
  simp only [h1, h2, h3, h4, Bool.not_true, Bool.false_eq_true, if_false, ne_eq, not_true_eq_false, hx, hs, h7, h8', h9', h12',
    Bool.false_or, hp, Bool.or_self]
  rw [if_neg, if_neg]
  · rfl
  · cases target with
    | none => simp
    | some t => exact fun h => absurd (h13 t rfl) (by rw [show s.dieRecovering t = true from h]; simp)
  · cases owner with
    | none => simp
    | some k =>
      show ¬ (k != x.hostKey && !x.privileged) = true
      rcases h11 k rfl with hk | hk <;> simp [hk]

/-- A datagram that is not framed is discarded and counted. -/
theorem serve_unframed {s : State} {d : Datagram} (op : Nat) (priv : Bool) (owner : Option (List Byte)) (target : Option Nat)
    (f : Session → State → State × Answer) (h1 : s.answersOn d.port = true) (h2 : dgFramed d = false) :
    s.serve d op priv owner target f = s.cmdDrop d.port := by
  simp [State.serve, h1, h2]

/-- A datagram whose tag is not its session's is discarded and counted. -/
theorem serve_wrongTag {s : State} {d : Datagram} {op : Nat} {x : Session} (priv : Bool) (owner : Option (List Byte))
    (target : Option Nat) (f : Session → State → State × Answer) (h1 : s.answersOn d.port = true) (h2 : dgFramed d = true)
    (h3 : s.session d.session.toNat = some x) (h4 : cmdTag x.keyIn (dgHeader d op ++ d.params) ≠ d.tag) :
    s.serve d op priv owner target f = s.cmdDrop d.port := by
  simp [State.serve, h1, h2, h3, h4]

end Sys2Proof.Laws
end

