-- ==== Sys2Proof/Laws/Sound.lean ====
section
/-! SUPPORT. What the shared operations do to `State.Sound`: each keeps it. One lemma per operation, tagged
for `simp`, so that a proof that a meaning keeps the invariant cites them and unfolds no operation. The
first lemmas read the invariant's five clauses off a state and off a record update. -/

namespace Sys2Proof.Laws

open Sys2Proof Sys2Proof.Machine

@[simp] theorem sound_mem {s : State} (h : s.Sound) : Memory.wf s.mem = true := h.mem
@[simp] theorem sound_dies {s : State} (h : s.Sound) : s.dies.length = 8 := h.dies
@[simp] theorem sound_gts {s : State} (h : s.Sound) : s.gts < 18446744073709551616 := h.gts
@[simp] theorem sound_banks {s : State} (h : s.Sound) : s.banks.length = 2 := h.banks
@[simp] theorem sound_active {s : State} (h : s.Sound) : s.activeBank < 2 := h.active
@[simp] theorem sound_active_le {s : State} (h : s.Sound) : s.activeBank ≤ 1 := Nat.le_of_lt_succ h.active
/-- The invariant of a record update, read off its fields. -/
@[simp] theorem sound_mk {x_pending x_part x_phase x_gts x_slew x_slewPhase x_freeCtr x_out x_resetN x_pwrGood x_thermTrip x_gtsPps x_align x_bootMode x_bootSource x_bootResult x_bootDie x_chainOk x_image x_rebootAt x_allow x_log x_logSeq x_logAt x_flash x_dies x_hulPackage x_hulEvtOut x_hulT7 x_t7At x_mem x_threads x_sides x_dynamic x_barriers x_istore x_banks x_activeBank x_profiles x_loading x_sessionCtr x_sessions x_indRegs x_staging x_qps x_streams x_jobs x_tickets x_nextNumber x_routing x_partnerPending x_twin x_recoveries x_crash x_recoverySeq x_activation x_lifeLog x_lifBusy x_lifAgain x_lifOk x_lifSaving x_lifAt} : (State.mk x_pending x_part x_phase x_gts x_slew x_slewPhase x_freeCtr x_out x_resetN x_pwrGood x_thermTrip x_gtsPps x_align x_bootMode x_bootSource x_bootResult x_bootDie x_chainOk x_image x_rebootAt x_allow x_log x_logSeq x_logAt x_flash x_dies x_hulPackage x_hulEvtOut x_hulT7 x_t7At x_mem x_threads x_sides x_dynamic x_barriers x_istore x_banks x_activeBank x_profiles x_loading x_sessionCtr x_sessions x_indRegs x_staging x_qps x_streams x_jobs x_tickets x_nextNumber x_routing x_partnerPending x_twin x_recoveries x_crash x_recoverySeq x_activation x_lifeLog x_lifBusy x_lifAgain x_lifOk x_lifSaving x_lifAt).Sound ↔
    Memory.wf x_mem = true ∧ x_dies.length = 8 ∧ x_gts < 18446744073709551616 ∧ x_banks.length = 2 ∧ x_activeBank < 2 :=
  ⟨fun h => ⟨h.mem, h.dies, h.gts, h.banks, h.active⟩, fun h => ⟨h.1, h.2.1, h.2.2.1, h.2.2.2.1, h.2.2.2.2⟩⟩
@[simp] theorem stays_write {m : List Host.Cell} {a : Nat} {b : Byte} (h : Memory.wf m = true) : Memory.wf (Memory.write m a b) = true := wf_write m a b h
@[simp] theorem stays_writeBytes {m : List Host.Cell} {a : Nat} {bs : List Byte} (h : Memory.wf m = true) : Memory.wf (Memory.writeBytes m a bs) = true := wf_writeBytes m a bs h
@[simp] theorem stays_writeRuns {m : List Host.Cell} {rs : List (Nat × List Byte)} (h : Memory.wf m = true) : Memory.wf (Memory.writeRuns m rs) = true := wf_writeRuns m rs h
@[simp] theorem stays_clear {m : List Host.Cell} {lo hi : Nat} (h : Memory.wf m = true) : Memory.wf (Memory.clear m lo hi) = true := wf_clear m lo hi h
@[simp] theorem modifyAt_length {α : Type} (l : List α) (i : Nat) (f : α → α) : (modifyAt l i f).length = l.length := by
  simp [modifyAt]
theorem sound_foldl {α : Type} (f : State → α → State) (hf : ∀ s a, s.Sound → (f s a).Sound) (l : List α) (s : State) (h : s.Sound) :
    (l.foldl f s).Sound := by
  induction l generalizing s with
  | nil => exact h
  | cons a l ih => exact ih _ (hf _ _ h)

@[simp] theorem sound_put (s : State) (a : Nat) (bs : List Byte) (h_s : s.Sound) : (State.put s a bs).Sound := by
  unfold State.put
  simp +contextual (maxDischargeDepth := 12) [*]
@[simp] theorem sound_putRuns (s : State) (rs : List (Nat × List Byte)) (h_s : s.Sound) : (State.putRuns s rs).Sound := by
  unfold State.putRuns
  simp +contextual (maxDischargeDepth := 12) [*]
@[simp] theorem sound_clearMem (s : State) (lo : Nat) (hi : Nat) (h_s : s.Sound) : (State.clearMem s lo hi).Sound := by
  unfold State.clearMem
  simp +contextual (maxDischargeDepth := 12) [*]
@[simp] theorem sound_onDie (s : State) (d : Nat) (f : Die → Die) (h_s : s.Sound) : (State.onDie s d f).Sound := by
  unfold State.onDie
  simp +contextual (maxDischargeDepth := 12) [*]
@[simp] theorem sound_onDies (s : State) (f : Die → Die) (h_s : s.Sound) : (State.onDies s f).Sound := by
  unfold State.onDies
  simp +contextual (maxDischargeDepth := 12) [*]
@[simp] theorem sound_emit (s : State) (o : Out) (h_s : s.Sound) : (State.emit s o).Sound := by
  unfold State.emit
  simp +contextual (maxDischargeDepth := 12) [*]
@[simp] theorem sound_emits (s : State) (os : List Out) (h_s : s.Sound) : (State.emits s os).Sound := by
  unfold State.emits
  simp +contextual (maxDischargeDepth := 12) [*]
@[simp] theorem sound_draw (s : State) (h_s : s.Sound) : (State.draw s).2.Sound := by
  unfold State.draw
  simp +contextual (maxDischargeDepth := 12) [*]
@[simp] theorem sound_drawBytes (s : State) (k : Nat) (h_s : s.Sound) : (State.drawBytes s k).2.Sound := by
  unfold State.drawBytes
  simp +contextual (maxDischargeDepth := 12) [*]
@[simp] theorem sound_newNumber (s : State) (h_s : s.Sound) : (State.newNumber s).2.Sound := by
  unfold State.newNumber
  simp +contextual (maxDischargeDepth := 12) [*]
@[simp] theorem sound_stick (s : State) (d : Nat) (b : Sticky) (h_s : s.Sound) : (State.stick s d b).Sound := by
  unfold State.stick
  simp +contextual (maxDischargeDepth := 12) [*]
@[simp] theorem sound_event (s : State) (d : Nat) (blk : Nat) (code : Nat) (arg : Nat) (h_s : s.Sound) :
    (State.event s d blk code arg).Sound := by
  unfold State.event
  simp +contextual (maxDischargeDepth := 12) [*]
@[simp] theorem sound_setThread (s : State) (t : Thread) (h_s : s.Sound) : (State.setThread s t).Sound := by
  unfold State.setThread
  simp +contextual (maxDischargeDepth := 12) [*]
@[simp] theorem sound_onThreads (s : State) (f : Thread → Thread) (h_s : s.Sound) : (State.onThreads s f).Sound := by
  unfold State.onThreads
  simp +contextual (maxDischargeDepth := 12) [*]
@[simp] theorem sound_setStream (s : State) (st : Stream) (h_s : s.Sound) : (State.setStream s st).Sound := by
  unfold State.setStream
  simp +contextual (maxDischargeDepth := 12) [*]
@[simp] theorem sound_setJob (s : State) (j : Job) (h_s : s.Sound) : (State.setJob s j).Sound := by
  unfold State.setJob
  simp +contextual (maxDischargeDepth := 12) [*]
@[simp] theorem sound_setSession (s : State) (x : Session) (h_s : s.Sound) : (State.setSession s x).Sound := by
  unfold State.setSession
  simp +contextual (maxDischargeDepth := 12) [*]
@[simp] theorem sound_setQp (s : State) (q : QueuePair) (h_s : s.Sound) : (State.setQp s q).Sound := by
  unfold State.setQp
  simp +contextual (maxDischargeDepth := 12) [*]
@[simp] theorem sound_servePools (s : State) (h_s : s.Sound) : (State.servePools s).Sound := by
  unfold State.servePools
  simp +contextual (maxDischargeDepth := 12) [*]
@[simp] theorem sound_releasePools (s : State) (owner : Nat) (h_s : s.Sound) : (State.releasePools s owner).Sound := by
  unfold State.releasePools
  simp +contextual (maxDischargeDepth := 12) [*]
@[simp] theorem sound_releaseTile (s : State) (owner : Nat) (picture : Nat) (tile : Nat) (h_s : s.Sound) :
    (State.releaseTile s owner picture tile).Sound := by
  unfold State.releaseTile
  simp +contextual (maxDischargeDepth := 12) [*]
@[simp] theorem sound_releaseRegions (s : State) (owner : Nat) (h_s : s.Sound) : (State.releaseRegions s owner).Sound := by
  unfold State.releaseRegions
  simp +contextual (maxDischargeDepth := 12) [*]
@[simp] theorem sound_unbindThreads (s : State) (owner : Nat) (h_s : s.Sound) : (State.unbindThreads s owner).Sound := by
  unfold State.unbindThreads
  simp +contextual (maxDischargeDepth := 12) [*]
@[simp] theorem sound_stopStream (s : State) (n : Nat) (st : Status) (h_s : s.Sound) : (State.stopStream s n st).Sound := by
  unfold State.stopStream
  (repeat' split) <;> simp +contextual (maxDischargeDepth := 12) [*]
@[simp] theorem sound_stopJob (s : State) (n : Nat) (st : Status) (h_s : s.Sound) : (State.stopJob s n st).Sound := by
  unfold State.stopJob
  (repeat' split) <;> simp +contextual (maxDischargeDepth := 12) [*]
@[simp] theorem sound_stopOwner (s : State) (t : Thread) (st : Status) (h_s : s.Sound) :
    (State.stopOwner s t st).Sound := by
  unfold State.stopOwner
  (repeat' split) <;> simp +contextual (maxDischargeDepth := 12) [*]
@[simp] theorem sound_condemned (s : State) (t : Thread) (st : Status) (h_s : s.Sound) :
    (State.condemned s t st).Sound := by
  unfold State.condemned
  (repeat' split) <;> simp +contextual (maxDischargeDepth := 12) [*]
@[simp] theorem sound_haltThread (s : State) (t : Thread) (st : Status) (h_s : s.Sound) :
    (State.haltThread s t st).Sound := by
  unfold State.haltThread
  simp +contextual (maxDischargeDepth := 12) [*]
@[simp] theorem sound_stopThread (s : State) (t : Thread) (st : Status) (h_s : s.Sound) :
    (State.stopThread s t st).Sound := by
  unfold State.stopThread
  simp +contextual (maxDischargeDepth := 12) [*]
@[simp] theorem sound_installAllow (s : State) (img : List Byte) (h_s : s.Sound) : (State.installAllow s img).Sound := by
  unfold State.installAllow
  (repeat' split) <;> simp +contextual (maxDischargeDepth := 12) [*]
@[simp] theorem sound_raiseRollback (s : State) (img : List Byte) (h_s : s.Sound) : (State.raiseRollback s img).Sound := by
  unfold State.raiseRollback
  simp +contextual (maxDischargeDepth := 12) [*]
@[simp] theorem sound_migrateFrom (s : State) (port : Nat) (h_s : s.Sound) : (State.migrateFrom s port).Sound := by
  unfold State.migrateFrom
  simp +contextual (maxDischargeDepth := 12) [*]
@[simp] theorem sound_unboundPort (s : State) (port : Nat) (h_s : s.Sound) : (State.unboundPort s port).Sound := by
  unfold State.unboundPort
  simp +contextual (maxDischargeDepth := 12) [*]
@[simp] theorem sound_dropPort (s : State) (port : Nat) (h_s : s.Sound) : (State.dropPort s port).Sound := by
  unfold State.dropPort
  simp +contextual (maxDischargeDepth := 12) [*]
@[simp] theorem sound_portDown (s : State) (port : Nat) (h_s : s.Sound) : (State.portDown s port).Sound := by
  unfold State.portDown
  simp +contextual (maxDischargeDepth := 12) [*]
@[simp] theorem sound_countRetrain (s : State) (d : Nat) (i : Nat) (h_s : s.Sound) : (State.countRetrain s d i).Sound := by
  unfold State.countRetrain
  simp +contextual (maxDischargeDepth := 12) [*]
@[simp] theorem sound_portUp (s : State) (port : Nat) (h_s : s.Sound) : (State.portUp s port).Sound := by
  unfold State.portUp
  (repeat' split) <;> simp +contextual (maxDischargeDepth := 12) [*]
@[simp] theorem sound_startLifSave (s : State) (h_s : s.Sound) : (State.startLifSave s).Sound := by
  unfold State.startLifSave
  (repeat' split) <;> simp +contextual (maxDischargeDepth := 12) [*]
@[simp] theorem sound_closeQp (s : State) (qpn : Nat) (h_s : s.Sound) : (State.closeQp s qpn).Sound := by
  unfold State.closeQp
  simp +contextual (maxDischargeDepth := 12) [*]
@[simp] theorem sound_setInd (s : State) (m : Master) (d : Nat) (v : Word × BitVec 2) (h_s : s.Sound) :
    (State.setInd s m d v).Sound := by
  unfold State.setInd
  simp +contextual (maxDischargeDepth := 12) [*]
@[simp] theorem sound_violation (s : State) (m : Master) (h_s : s.Sound) : (State.violation s m).Sound := by
  unfold State.violation
  (repeat' split) <;> simp +contextual (maxDischargeDepth := 12) [*]
@[simp] theorem sound_smbusRead (s : State) (f : Nat → Die → Nat) (h_s : s.Sound) : (State.smbusRead s f).Sound := by
  unfold State.smbusRead
  (repeat' split) <;> simp +contextual (maxDischargeDepth := 12) [*]
@[simp] theorem sound_cycleOver (s : State) (h_s : s.Sound) : (State.cycleOver s).Sound := by
  unfold State.cycleOver
  simp +contextual (maxDischargeDepth := 12) [*]
@[simp] theorem sound_bootEnds (s : State) (ph : Phase) (source : Nat) (result : Nat) (die : Nat) (h_s : s.Sound) :
    (State.bootEnds s ph source result die).Sound := by
  unfold State.bootEnds
  (repeat' split) <;> simp +contextual (maxDischargeDepth := 12) [*]
@[simp] theorem sound_levelRollback (s : State) (h_s : s.Sound) : (State.levelRollback s).Sound := by
  unfold State.levelRollback
  simp +contextual (maxDischargeDepth := 12) [*]
@[simp] theorem sound_bootFromFlash (s : State) (h_s : s.Sound) : (State.bootFromFlash s).Sound := by
  unfold State.bootFromFlash
  (repeat' split) <;> simp +contextual (maxDischargeDepth := 12) [*]
@[simp] theorem sound_holdReset (s : State) (h_s : s.Sound) : (State.holdReset s).Sound := by
  unfold State.holdReset
  (repeat' split) <;> simp +contextual (maxDischargeDepth := 12) [*]
@[simp] theorem sound_cmdDrop (s : State) (port : Nat) (h_s : s.Sound) : (State.cmdDrop s port).Sound := by
  unfold State.cmdDrop
  simp +contextual (maxDischargeDepth := 12) [*]
@[simp] theorem sound_releaseStagingOf (s : State) (session : Nat) (h_s : s.Sound) :
    (State.releaseStagingOf s session).Sound := by
  unfold State.releaseStagingOf
  (repeat' split) <;> simp +contextual (maxDischargeDepth := 12) [*]
@[simp] theorem sound_endSession (s : State) (n : Nat) (h_s : s.Sound) : (State.endSession s n).Sound := by
  unfold State.endSession
  simp +contextual (maxDischargeDepth := 12) [*]
@[simp] theorem sound_answerOnly (s : State) (d : Datagram) (opcode : Nat) (x : Session) (st : Status) (h_s : s.Sound) :
    (State.answerOnly s d opcode x st).Sound := by
  unfold State.answerOnly
  simp +contextual (maxDischargeDepth := 12) [*]
@[simp] theorem sound_resend (s : State) (d : Datagram) (x : Session) (c : CacheEntry) (h_s : s.Sound) :
    (State.resend s d x c).Sound := by
  unfold State.resend
  simp +contextual (maxDischargeDepth := 12) [*]
@[simp] theorem sound_onPlk (s : State) (p : Nat) (f : Plk → Plk) (h_s : s.Sound) : (State.onPlk s p f).Sound := by
  unfold State.onPlk
  simp +contextual (maxDischargeDepth := 12) [*]
@[simp] theorem sound_pumpPort (s : State) (port : Nat) (h_s : s.Sound) : (State.pumpPort s port).Sound := by
  unfold State.pumpPort
  simp +contextual (maxDischargeDepth := 12) [*]
@[simp] theorem sound_sendPacket (s : State) (p : PartnerPacket) (type : Nat) (h_s : s.Sound) :
    (State.sendPacket s p type).Sound := by
  unfold State.sendPacket
  simp +contextual (maxDischargeDepth := 12) [*]
@[simp] theorem sound_sendMsg (s : State) (port : Nat) (kind : Nat) (data : List Byte) (h_s : s.Sound) :
    (State.sendMsg s port kind data).Sound := by
  unfold State.sendMsg
  simp +contextual (maxDischargeDepth := 12) [*]
@[simp] theorem sound_sendRetry (s : State) (port : Nat) (number : Nat) (h_s : s.Sound) :
    (State.sendRetry s port number).Sound := by
  unfold State.sendRetry
  simp +contextual (maxDischargeDepth := 12) [*]
@[simp] theorem sound_retrain (s : State) (port : Nat) (h_s : s.Sound) : (State.retrain s port).Sound := by
  unfold State.retrain
  simp +contextual (maxDischargeDepth := 12) [*]
@[simp] theorem sound_fenceOut (s : State) (th : Thread) (l : Loc) (h_s : s.Sound) : (State.fenceOut s th l).Sound := by
  unfold State.fenceOut
  (repeat' split) <;> simp +contextual (maxDischargeDepth := 12) [*]
@[simp] theorem sound_tileDamage (s : State) (n : Nat) (picture : Nat) (tile : Nat) (cause : Nat) (detail : Nat) (h_s : s.Sound) :
    (State.tileDamage s n picture tile cause detail).Sound := by
  unfold State.tileDamage
  (repeat' split) <;> simp +contextual (maxDischargeDepth := 12) [*]
@[simp] theorem sound_pruneStores (s : State) (h_s : s.Sound) : (State.pruneStores s).Sound := by
  unfold State.pruneStores
  simp +contextual (maxDischargeDepth := 12) [*]
@[simp] theorem sound_fetch (s : State) (t : ThreadId) (a : Nat) (h_s : s.Sound) : (State.fetch s t a).Sound := by
  unfold State.fetch
  (repeat' split) <;> simp +contextual (maxDischargeDepth := 12) [*]
@[simp] theorem sound_holdEarly (s : State) (t : ThreadId) (c : CurList) (x : Option Stop) (h_s : s.Sound) :
    (State.holdEarly s t c x).Sound := by
  unfold State.holdEarly
  (repeat' split) <;> simp +contextual (maxDischargeDepth := 12) [*]
@[simp] theorem sound_jobIdle (s : State) (n : Nat) (h_s : s.Sound) : (State.jobIdle s n).Sound := by
  unfold State.jobIdle
  (repeat' split) <;> simp +contextual (maxDischargeDepth := 12) [*]
@[simp] theorem sound_block (s : State) (th : Thread) (w : WaitOn) (h_s : s.Sound) : (State.block s th w).Sound := by
  unfold State.block
  simp +contextual (maxDischargeDepth := 12) [*]
@[simp] theorem sound_dropStage (s : State) (id : Nat) (h_s : s.Sound) : (State.dropStage s id).Sound := by
  unfold State.dropStage
  (repeat' split) <;> simp +contextual (maxDischargeDepth := 12) [*]
@[simp] theorem sound_commitEnds (s : State) (id : Nat) (st : Status) (ps : List Byte) (detail : Nat) (h_s : s.Sound) :
    (State.commitEnds s id st ps detail).1.Sound := by
  unfold State.commitEnds
  simp +contextual (maxDischargeDepth := 12) [*]
@[simp] theorem sound_placeWeights (s : State) (slot : Nat) (img : List Byte) (h_s : s.Sound) :
    (State.placeWeights s slot img).Sound := by
  unfold State.placeWeights
  simp +contextual (maxDischargeDepth := 12) [*]
@[simp] theorem sound_reservePools (s : State) (dies : List Nat) (owner : Nat) (lp : Nat) (ds : Nat) (h_s : s.Sound) :
    (State.reservePools s dies owner lp ds).Sound := by
  unfold State.reservePools
  simp +contextual (maxDischargeDepth := 12) [*]
@[simp] theorem sound_takeRegions (s : State) (owner : Nat) (l : List (Nat × Nat)) (h_s : s.Sound) :
    (State.takeRegions s owner l).Sound := by
  unfold State.takeRegions
  simp +contextual (maxDischargeDepth := 12) [*]
@[simp] theorem sound_dropTicket (s : State) (t : Ticket) (h_s : s.Sound) : (State.dropTicket s t).Sound := by
  unfold State.dropTicket
  simp +contextual (maxDischargeDepth := 12) [*]
@[simp] theorem sound_sendTwin (s : State) (kind : Nat) (data : List Byte) (h_s : s.Sound) :
    (State.sendTwin s kind data).Sound := by
  unfold State.sendTwin
  simp +contextual (maxDischargeDepth := 12) [*]
@[simp] theorem sound_addStream (s : State) (a : Ask) (x : Stream) (h_s : s.Sound) : (State.addStream s a x).Sound := by
  unfold State.addStream
  (repeat' split) <;> simp +contextual (maxDischargeDepth := 12) [*]
@[simp] theorem sound_answerTag (s : State) (port : Nat) (tag : Nat) (data : List Byte) (h_s : s.Sound) :
    (State.answerTag s port tag data).Sound := by
  unfold State.answerTag
  simp +contextual (maxDischargeDepth := 12) [*]
@[simp] theorem sound_fenced (s : State) (th : Thread) (k : State) (h_s : s.Sound) (h_k : k.Sound) :
    (State.fenced s th k).Sound := by
  unfold State.fenced
  (repeat' split) <;> simp +contextual (maxDischargeDepth := 12) [*]
@[simp] theorem sound_onBarrier (s : State) (die : Nat) (counter : Nat) (f : Barrier → Barrier) (h_s : s.Sound) :
    (State.onBarrier s die counter f).Sound := by
  unfold State.onBarrier
  simp +contextual (maxDischargeDepth := 12) [*]
@[simp] theorem sound_markQueued (s : State) (n : Nat) (t : Nat) (tile : Nat) (addr : Nat) (h_s : s.Sound) :
    (State.markQueued s n t tile addr).Sound := by
  unfold State.markQueued
  (repeat' split) <;> simp +contextual (maxDischargeDepth := 12) [*]
@[simp] theorem sound_layList (s : State) (x : Stream) (z : Setting) (l : Bound) (h_s : s.Sound) :
    (State.layList s x z l).Sound := by
  unfold State.layList
  simp +contextual (maxDischargeDepth := 12) [*]
@[simp] theorem sound_putNear (s : State) (l : List (Nat × List Byte)) (h_s : s.Sound) : (State.putNear s l).Sound := by
  unfold State.putNear
  simp +contextual (maxDischargeDepth := 12) [*]
@[simp] theorem sound_writeTensor (s : State) (d : Tensor) (f : Nat → Nat → Nat → Int) (h_s : s.Sound) :
    (State.writeTensor s d f).Sound := by
  unfold State.writeTensor
  (repeat' split) <;> simp +contextual (maxDischargeDepth := 12) [*]
@[simp] theorem sound_writeCodes (s : State) (d : Tensor) (f : Nat → Nat → Nat → Nat) (h_s : s.Sound) :
    (State.writeCodes s d f).Sound := by
  unfold State.writeCodes
  simp +contextual (maxDischargeDepth := 12) [*]
@[simp] theorem sound_layPyramids (s : State) (d : Tensor) (at_ : Nat → Nat → Nat → Int) (h_s : s.Sound) :
    (State.layPyramids s d at_).Sound := by
  unfold State.layPyramids
  simp +contextual (maxDischargeDepth := 12) [*]
@[simp] theorem sound_layUnits (s : State) (z : Setting) (l : Bound) (h_s : s.Sound) : (State.layUnits s z l).Sound := by
  unfold State.layUnits
  simp +contextual (maxDischargeDepth := 12) [*]
@[simp] theorem sound_bind (s : State) (t : ThreadId) (owner : Nat) (isJob : Bool) (cls : Nat) (h_s : s.Sound) :
    (State.bind s t owner isJob cls).Sound := by
  unfold State.bind
  (repeat' split) <;> simp +contextual (maxDischargeDepth := 12) [*]
@[simp] theorem sound_askBuffers (s : State) (x : Stream) (stages : List (Nat × Nat)) (t : Nat) (tile : Nat) (th : ThreadId) (h_s : s.Sound) :
    (State.askBuffers s x stages t tile th).Sound := by
  unfold State.askBuffers
  simp +contextual (maxDischargeDepth := 12) [*]
@[simp] theorem sound_onEth (s : State) (p : Nat) (f : Eth → Eth) (h_s : s.Sound) : (State.onEth s p f).Sound := by
  unfold State.onEth
  simp +contextual (maxDischargeDepth := 12) [*]
@[simp] theorem sound_count (s : State) (d : Nat) (i : Nat) (h_s : s.Sound) : (State.count s d i).Sound := by
  unfold State.count
  simp +contextual (maxDischargeDepth := 12) [*]
@[simp] theorem sound_discardThreads (s : State) (n : Nat) (h_s : s.Sound) : (State.discardThreads s n).Sound := by
  unfold State.discardThreads
  simp +contextual (maxDischargeDepth := 12) [*]
@[simp] theorem sound_writeEnd (s : State) (x : Stream) (h_s : s.Sound) : (State.writeEnd s x).Sound := by
  unfold State.writeEnd
  (repeat' split) <;> simp +contextual (maxDischargeDepth := 12) [*]
@[simp] theorem sound_emitUnits (s : State) (x : Stream) (us : List (List Byte)) (h_s : s.Sound) :
    (State.emitUnits s x us).Sound := by
  unfold State.emitUnits
  simp +contextual (maxDischargeDepth := 12) [*]
@[simp] theorem sound_giveUnit (s : State) (n : Nat) (t : Nat) (u : List Byte) (h_s : s.Sound) :
    (State.giveUnit s n t u).Sound := by
  unfold State.giveUnit
  (repeat' split) <;> simp +contextual (maxDischargeDepth := 12) [*]
@[simp] theorem sound_encodeTile (s : State) (x : Stream) (p : Pic) (w : TileWork) (lossy : List (List Int)) (h_s : s.Sound) :
    (State.encodeTile s x p w lossy).Sound := by
  unfold State.encodeTile
  (repeat' split) <;> simp +contextual (maxDischargeDepth := 12) [*]
@[simp] theorem sound_addWindow (s : State) (d : Nat) (region : Option Nat) (w : Nat × Option Nat × Nat) (h_s : s.Sound) :
    (State.addWindow s d region w).Sound := by
  unfold State.addWindow
  (repeat' split) <;> simp +contextual (maxDischargeDepth := 12) [*]
@[simp] theorem sound_noteEngaged (s : State) (d : Nat) (kind : Nat) (target : Nat) (h_s : s.Sound) :
    (State.noteEngaged s d kind target).Sound := by
  unfold State.noteEngaged
  simp +contextual (maxDischargeDepth := 12) [*]
@[simp] theorem sound_spareGone (s : State) (d : Nat) (kind : Nat) (target : Nat) (h_s : s.Sound) :
    (State.spareGone s d kind target).Sound := by
  unfold State.spareGone
  (repeat' split) <;> simp +contextual (maxDischargeDepth := 12) [*]
@[simp] theorem sound_correctable (s : State) (die : Nat) (e : Element) (h_s : s.Sound) :
    (State.correctable s die e).Sound := by
  unfold State.correctable
  (repeat' split) <;> simp +contextual (maxDischargeDepth := 12) [*]
@[simp] theorem sound_onRegions (s : State) (x : Domain) (f : Region → Region) (h_s : s.Sound) :
    (State.onRegions s x f).Sound := by
  unfold State.onRegions
  simp +contextual (maxDischargeDepth := 12) [*]
@[simp] theorem sound_setHul (s : State) (x : Domain) (v : Nat) (h_s : s.Sound) : (State.setHul s x v).Sound := by
  unfold State.setHul
  (repeat' split) <;> simp +contextual (maxDischargeDepth := 12) [*]
@[simp] theorem sound_leaveHul (s : State) (x : Domain) (h_s : s.Sound) : (State.leaveHul s x).Sound := by
  unfold State.leaveHul
  (repeat' split) <;> simp +contextual (maxDischargeDepth := 12) [*]
@[simp] theorem sound_unboundDomain (s : State) (x : Domain) (h_s : s.Sound) : (State.unboundDomain s x).Sound := by
  unfold State.unboundDomain
  simp +contextual (maxDischargeDepth := 12) [*]
@[simp] theorem sound_updateCrash (s : State) (r : Recovery) (f : CrashRec → CrashRec) (h_s : s.Sound) :
    (State.updateCrash s r f).Sound := by
  unfold State.updateCrash
  simp +contextual (maxDischargeDepth := 12) [*]
@[simp] theorem sound_countRecovery (s : State) (x : Domain) (h_s : s.Sound) : (State.countRecovery s x).Sound := by
  unfold State.countRecovery
  (repeat' split) <;> simp +contextual (maxDischargeDepth := 12) [*]
@[simp] theorem sound_undoStop (s : State) (u : Nat × Bool × StreamState × List (Nat × Nat)) (h_s : s.Sound) :
    (State.undoStop s u).Sound := by
  unfold State.undoStop
  (repeat' split) <;> simp +contextual (maxDischargeDepth := 12) [*]
@[simp] theorem sound_retireRange (s : State) (d : Nat) (range : Nat) (h_s : s.Sound) :
    (State.retireRange s d range).Sound := by
  unfold State.retireRange
  (repeat' split) <;> simp +contextual (maxDischargeDepth := 12) [*]
@[simp] theorem sound_placeCrash (s : State) (c : CrashRec) (h_s : s.Sound) : (State.placeCrash s c).Sound := by
  unfold State.placeCrash
  (repeat' split) <;> simp +contextual (maxDischargeDepth := 12) [*]
@[simp] theorem sound_writeCrash (s : State) (r : Recovery) (h_s : s.Sound) : (State.writeCrash s r).Sound := by
  unfold State.writeCrash
  simp +contextual (maxDischargeDepth := 12) [*]
@[simp] theorem sound_onRecovery (s : State) (x : Domain) (f : Recovery → Recovery) (h_s : s.Sound) :
    (State.onRecovery s x f).Sound := by
  unfold State.onRecovery
  simp +contextual (maxDischargeDepth := 12) [*]
@[simp] theorem sound_clearRegion (s : State) (r : Nat × Nat) (h_s : s.Sound) : (State.clearRegion s r).Sound := by
  unfold State.clearRegion
  simp +contextual (maxDischargeDepth := 12) [*]
@[simp] theorem sound_beginRound (s : State) (x : Domain) (k : Nat) (h_s : s.Sound) : (State.beginRound s x k).Sound := by
  unfold State.beginRound
  (repeat' split) <;> simp +contextual (maxDischargeDepth := 12) [*]
@[simp] theorem sound_parkRound (s : State) (r : Recovery) (h_s : s.Sound) : (State.parkRound s r).Sound := by
  unfold State.parkRound
  simp +contextual (maxDischargeDepth := 12) [*]
@[simp] theorem sound_idleResumes (s : State) (began : Nat) (h_s : s.Sound) : (State.idleResumes s began).Sound := by
  unfold State.idleResumes
  simp +contextual (maxDischargeDepth := 12) [*]
@[simp] theorem sound_closeWindows (s : State) (d : Nat) (h_s : s.Sound) : (State.closeWindows s d).Sound := by
  unfold State.closeWindows
  simp +contextual (maxDischargeDepth := 12) [*]
@[simp] theorem sound_openIsland (s : State) (d : Nat) (i : Island) (h_s : s.Sound) : (State.openIsland s d i).Sound := by
  unfold State.openIsland
  (repeat' split) <;> simp +contextual (maxDischargeDepth := 12) [*]
@[simp] theorem sound_dropModuleService (s : State) (d : Nat) (h_s : s.Sound) : (State.dropModuleService s d).Sound := by
  unfold State.dropModuleService
  (repeat' split) <;> simp +contextual (maxDischargeDepth := 12) [*]
@[simp] theorem sound_setService (s : State) (d : Nat) (v : Option IslandService) (h_s : s.Sound) :
    (State.setService s d v).Sound := by
  unfold State.setService
  simp +contextual (maxDischargeDepth := 12) [*]
@[simp] theorem sound_moveRegion (s : State) (a : Nat × Nat) (b : Nat × Nat) (h_s : s.Sound) :
    (State.moveRegion s a b).Sound := by
  unfold State.moveRegion
  (repeat' split) <;> simp +contextual (maxDischargeDepth := 12) [*]
@[simp] theorem sound_beginResume (s : State) (d : Nat) (v : IslandService) (h_s : s.Sound) :
    (State.beginResume s d v).Sound := by
  unfold State.beginResume
  (repeat' split) <;> simp +contextual (maxDischargeDepth := 12) [*]
end Sys2Proof.Laws
end

