-- ==== Sys2Proof/Tests/Slice0.lean ====
section
/-! SUPPORT. Tests of the model: what WellFormed refuses, the worked examples of the spec, and, for each statement of the certificates
that has hypotheses, states and operands that meet them. -/

namespace Sys2Proof.Tests

set_option Elab.async false

open Sys2Proof Sys2Proof.Machine Sys2Proof.Laws

/-! ### Terms that are not well formed -/

/-- A datagram of session 1 with sequence number 1, untagged. -/
def dg0 (ps : List Byte) : Datagram where
  port := 0
  srcAddr := 5
  srcPort := 4000
  fragment := false
  ahead := 0
  magic := 0x5A43
  version := 1
  flags := 0
  session := 1
  sequence := 1
  paramLen := BitVec.ofNat 16 ps.length
  status := 0
  reserved1 := 0
  gts := 0
  reserved2 := 0
  params := ps
  tag := zeros 16

def th0 : ThreadId := ⟨0, 0, 0⟩

def packet0 : PartnerPacket where
  port := 0
  vc := 0
  tag := 0
  length := 64
  status := .ok
  addr := 0
  data := []

theorem test_wellformed_datagram : wellFormed (.regRead (dg0 [])) = true := by decide
theorem test_illformed_datagram_port : wellFormed (.regRead { dg0 [] with port := 8 }) = false := by decide
theorem test_illformed_datagram_addr : wellFormed (.regRead { dg0 [] with srcAddr := 2 ^ 128 }) = false := by decide
theorem test_illformed_datagram_udp : wellFormed (.regRead { dg0 [] with srcPort := 65536 }) = false := by decide
theorem test_illformed_datagram_tag : wellFormed (.regRead { dg0 [1] with tag := zeros 15 }) = false := by decide
theorem test_illformed_master : wellFormed (.pwrLimit ⟨.session 0, 0, 0⟩) = false := by decide
theorem test_illformed_access_die : wellFormed (.pwrLimit ⟨.shell, 8, 0⟩) = false := by decide
theorem test_illformed_clk_region : wellFormed (.clkRgn ⟨.shell, 0, 0⟩ 8) = false := by decide
theorem test_illformed_threshold_kind : wellFormed (.sprThresh ⟨.shell, 0, 0⟩ 5) = false := by decide
theorem test_illformed_thread_unit : wellFormed (.matmul ⟨0, 256, 0⟩) = false := by decide
theorem test_illformed_thread_ctx : wellFormed (.enc ⟨0, 0, 16⟩) = false := by decide
theorem test_illformed_thread_die : wellFormed (.fence ⟨8, 0, 0⟩) = false := by decide
theorem test_illformed_domain : wellFormed (.sampleComplete (.region 0 8)) = false := by decide
theorem test_illformed_domain_die : wellFormed (.fenceDrainComplete (.die 8)) = false := by decide
theorem test_illformed_element :
    wellFormed (.correctableError 0 (.memCh 16) 0) = false ∧ wellFormed (.correctableError 0 (.d2d 4) 0) = false ∧
      wellFormed (.correctableError 0 (.dsr 2) 0) = false ∧ wellFormed (.correctableError 0 (.ent 40) 0) = false ∧
      wellFormed (.correctableError 0 (.lze 8) 0) = false ∧ wellFormed (.correctableError 0 (.mse 10) 0) = false ∧
      wellFormed (.correctableError 0 (.rgn 0 36) 0) = false ∧ wellFormed (.correctableError 8 (.dsr 0) 0) = false := by decide
theorem test_illformed_selftest : wellFormed (.resetSelftestComplete .package [(0, .mse 10)]) = false := by decide
theorem test_illformed_restore : wellFormed (.restoreComplete .package [(0, 4)]) = false := by decide
theorem test_illformed_spare_kind : wellFormed (.spareEngaged 0 5 0) = false := by decide
theorem test_illformed_tile_return : wellFormed (.quiesceTileReturn 0 [(th0, ⟨0, 256, 0⟩)]) = false := by decide
theorem test_illformed_list_address : wellFormed (.listQueued th0 (2 ^ 64)) = false := by decide
theorem test_illformed_monitor : wellFormed (.progressMonitor 0 8) = false := by decide
theorem test_illformed_pool : wellFormed (.poolStall 0 2) = false := by decide
theorem test_illformed_error_address : wellFormed (.uncorrectableError .lpddr (2 ^ 64) none) = false := by decide
theorem test_illformed_bridge : wellFormed (.bridgeError 0 4 true) = false := by decide
theorem test_illformed_placement : wellFormed (.pictureStart 1 [⟨2 ^ 32, th0, 0, 0, 0, [], [], []⟩]) = false ∧
    wellFormed (.pictureStart 1 [⟨0, th0, 0, 256, 0, [], [], []⟩]) = false := by decide
theorem test_illformed_stream_number : wellFormed (.tile (2 ^ 32)) = false ∧ wellFormed (.pictureComplete (2 ^ 32)) = false := by decide
theorem test_illformed_merge_base : wellFormed (.adaptMerge 1 ⟨[(0, [2 ^ 64])], []⟩) = false ∧ wellFormed (.adaptMerge 1 ⟨[(8, [])], []⟩) = false := by decide
theorem test_illformed_tile_number : wellFormed (.tileComplete 1 0 (2 ^ 32) ⟨0, 0, 0⟩) = false ∧ wellFormed (.tileComplete 1 (2 ^ 24) 0 ⟨0, 0, 0⟩) = false := by decide
theorem test_illformed_gradients : wellFormed (.trainIterationEnd 1 ⟨th0, 2 ^ 64, [], 0, 0, [], []⟩) = false ∧
    wellFormed (.trainIterationEnd 1 ⟨th0, 0, [], 0, 0, [2 ^ 16], []⟩) = false := by decide
theorem test_illformed_qpn : wellFormed (.cnp (2 ^ 24)) = false ∧ wellFormed (.rdmaWrite 1 0 (2 ^ 32) []) = false := by decide
theorem test_illformed_cm_gid : wellFormed (.cmReq 1 0 4096 (some (2 ^ 128)) 0) = false := by decide
theorem test_illformed_pfc : wellFormed (.pfcFrame 0 []) = false := by decide
theorem test_illformed_arp : wellFormed (.arp 0 (2 ^ 48) 0 0) = false := by decide
theorem test_illformed_solicitation : wellFormed (.neighbourDiscovery 0 0 0 (2 ^ 128)) = false := by decide
theorem test_illformed_echo : wellFormed (.icmpEcho 8 true 0 0 0 []) = false := by decide
theorem test_illformed_sync : wellFormed (.sync 0 128 0) = false ∧ wellFormed (.sync 0 0 65536) = false := by decide
theorem test_illformed_ptp_ns : wellFormed (.followUp 0 0 0 ⟨0, 1000000000⟩) = false ∧
    wellFormed (.delayResp 0 0 0 ⟨0, 1000000000⟩) = false := by decide
theorem test_illformed_port : wellFormed (.ethPortDown 8) = false ∧ wellFormed (.unsupportedFrame 8 .oversize) = false := by decide
theorem test_illformed_network : wellFormed (.networkDownTimeout 2) = false := by decide
theorem test_illformed_flit : wellFormed (.badFlit 0 (zeros 255)) = false := by decide +kernel
theorem test_illformed_flit_number : wellFormed (.retryReq 0 4096) = false := by decide
theorem test_illformed_lane : wellFormed (.laneMap 0 8) = false ∧ wellFormed (.partnerLaneFailure 0 8) = false := by decide
theorem test_illformed_idle_flit : wellFormed (.idleFlit 0 4096 0 0) = false ∧ wellFormed (.idleFlit 0 0 4 0) = false ∧
    wellFormed (.idleFlit 0 0 0 16) = false := by decide
theorem test_illformed_packet : wellFormed (.rdReq { packet0 with vc := 4 }) = false ∧ wellFormed (.wr { packet0 with tag := 65536 }) = false ∧
    wellFormed (.err { packet0 with port := 8 }) = false ∧ wellFormed (.rdResp { packet0 with addr := 2 ^ 64 }) = false ∧
    wellFormed (.wrAck { packet0 with length := 65536 }) = false := by decide
theorem test_illformed_ident : wellFormed (.ident 0 [] (zeros 32) (zeros 32) (zeros 114)) = false := by decide
theorem test_illformed_align : wellFormed (.align 0 ⟨2 ^ 64, 0, 0, 0⟩) = false ∧ wellFormed (.timeSyncTrack ⟨0, 0, 0, 2 ^ 64⟩) = false := by decide
theorem test_illformed_twin_digest : wellFormed (.digest 0 1 0 (zeros 31)) = false ∧ wellFormed (.config 0 1 (zeros 31)) = false := by decide
theorem test_illformed_partner_timeout : wellFormed (.partnerAccessTimeout 0 65536) = false := by decide
theorem test_illformed_expiry : wellFormed (.provisionalSessionExpiry (2 ^ 32)) = false ∧ wellFormed (.sessionIdleExpiry (2 ^ 32)) = false ∧
    wellFormed (.ticketExpiry (2 ^ 32)) = false ∧ wellFormed (.twinDigestTimeout (2 ^ 32)) = false := by decide
theorem test_illformed_sensors : wellFormed (.powerControllerTick 0 0 0 []) = false := by decide
theorem test_illformed_trip : wellFormed (.thermalTrip 0 16 0) = false := by decide
theorem test_illformed_die_number : wellFormed (.vcoreTargetWait 8 0) = false ∧ wellFormed (.classGateTimer 8) = false ∧
    wellFormed (.lpddr5xTrained 8 true) = false ∧ wellFormed (.imageCheckComplete 8 true true) = false ∧
    wellFormed (.chunkComplete 8 .tensor 0 true) = false := by decide
theorem test_illformed_deviations : wellFormed (.lifelogSample []) = false := by decide

/-! ### Worked examples of the spec -/

/-- 02 R45: the product of two LNS16 operands on the grid. -/
theorem test_lns_product : place 12 ((decodeLns .lns16 0x0180).mul (decodeLns .lns16 0x80C0)) = ⟨-19484, false, false⟩ := by decide +kernel

def stage49 : Stage := { bias := 34, mult := 3, shift := 5, zp := 5, act := 0, leak := 0, clipLo := 0x80, clipHi := 0x7F, sat := true }

/-- 02 R49: requantisation with a tie. -/
theorem test_requant_tie : (stageExact .int8 stage49 0 (1262 + 34) 0 0).code = 0x7F := by decide +kernel
theorem test_requant_saturates : (stageExact .int8 { stage49 with zp := 7 } 0 1296 0 0).code = 127 ∧
    (stageExact .int8 { stage49 with zp := 7 } 0 1296 0 0).sat = 1 := by decide +kernel
theorem test_requant_negative : (stageExact .int8 stage49 0 (-1330 + 34) 0 0).code = 0x8B := by decide +kernel

/-- 02 R52: edges of float conversion. -/
theorem test_bf16_ties : (toFloat .bf16 true 385 256 0 false).code = 0x3FC0 ∧ (toFloat .bf16 true 387 256 0 false).code = 0x3FC2 ∧
    (toFloat .bf16 true (-385) 256 0 false).code = 0xBFC0 := by decide +kernel
theorem test_e4m3_edges : (toFloat .e4m3 true 460 1 0 false).code = 0x7E ∧ (toFloat .e4m3 false 464 1 0 false) = ⟨0x7E, false, false⟩ ∧
    (toFloat .e4m3 true 465 1 0 false) = ⟨0x7E, true, false⟩ ∧ (toFloat .e4m3 false 465 1 0 false).code = 0x7F := by decide +kernel
theorem test_fp16_overflow : (toFloat .fp16 true 65520 1 0 false).code = 0x7BFF ∧ (toFloat .fp16 false 65520 1 0 false).code = 0x7C00 := by
  decide +kernel
theorem test_lns16_back : (toLns .lns16 (-19484) 4096 0).code = 0x8240 := by decide +kernel

def fp (n d : Int) : EV := decodeFloat .fp32 (toFloat .fp32 true n d.toNat 0 false).code
def row63 : List EV := [fp (-3) 4, fp 1 10, fp 23 10, fp 5 1, fp 5 4, fp (-1) 5, fp 0 1, fp 31 10]

/-- 03 R63, R62: two-pass INT8 conversion. -/
theorem test_qscan_scale : scanScale .int8 (fp 1 1) row63 = (0x3CB8B8B9, -95) := by decide +kernel
theorem test_qconv_codes : (row63.map fun v => (convertCell .int8 0 true false (0x3CB8B8B9, -95) none v).code) =
    [0x80, 0xA5, 0x07, 0x7F, 0xD8, 0x98, 0xA1, 0x2A] := by decide +kernel

/-- 03 R66: the zero-point correction (activation codes 5, 9 with z 2; weight codes 3, -4 with z 1: P = -21, sum (3)(2) + (7)(-5)). -/
theorem test_correction : -21 + correction 2 1 [(.ofInt 5, .ofInt 3), (.ofInt 9, .ofInt (-4))] 0 = -29 := by decide +kernel

/-- 03 R75: exceeding a carried scale. -/
theorem test_exceeds : exceeds .int8 32 (-95) (399 - 95) = false ∧ exceeds .int8 32 (-95) (532 - 95) = true ∧
    exceeds .int8 48 (-95) (532 - 95) = false := by decide +kernel

/-- 05 R104: output sizes at the edges. -/
theorem test_output_sizes : outSize 4 7 1 1 3 3 = some 4 ∧ outSize 4 7 1 1 0 0 = none ∧ outSize 16 3 8 1 0 0 = some 2 ∧
    outSize 16 3 2 1 0 1 = some 8 ∧ outSize 2 3 2 1 0 0 = none ∧ outSize 3 3 1 3 3 3 = some 3 ∧ outSize 1 1 1 1 0 0 = some 1 := by decide

/-- 05 R108: averages, to nearest even. -/
theorem test_averages : rneDiv 57 4 = 14 ∧ rneDiv 57 9 = 6 ∧ rneDiv 58 4 = 14 := by decide

/-- 05 R114: the byte map of a CB16 tensor. -/
def map114 : Tensor where
  base := 0
  planePitch := 256
  rowPitch := 128
  c := 40
  h := 2
  w := 3
  fmt := .bf16
  layout := 1
  gran := 0
  block := 16
  scale := 0
  room := 0

theorem test_cb16_map : map114.bitOff 37 1 2 = 8 * 714 ∧ map114.bitOff 0 0 1 = 8 * 32 ∧ map114.rowBytes = 96 ∧ map114.planes = 3 := by decide

/-- 06 R121: forming addresses. -/
theorem test_addresses : locate 8 0x00C500007040 = .lpddr 3 0x500007040 ∧ locate 8 0x310053700000 = .scratch 5 110 0 ∧
    locate 8 0x200051800000 = .pod 5 6 0 ∧ locate 8 0x100560000000 = .deepSram 5 0x60000000 ∧ locate 8 0x1005C0000000 = .none_ := by
  decide +kernel

/-- 06 R145: centred numbers. -/
theorem test_centred : rngCode 2 0x800000FF = 0 ∧ rngCode 2 0x000000FF = 0xBF000000 := by decide +kernel

def laplace32 : List Nat := [4621, 12562, 25791, 12562, 4621, 5379]
def steps17 : List Nat := [2, 1] ++ List.replicate 14 2 ++ [4]

/-- 07 R155 to R158: a step of 17 symbols, there and back. -/
theorem test_rans_encode : ransEncode (steps17.map (entryOf laplace32)) =
    [0xBE, 0x8F, 0x25, 0, 0xB3, 0x1C, 0x05, 0] ++ (List.replicate 14 [0xA1, 0x79, 0x02, (0 : Byte)]).flatten := by decide +kernel
theorem test_rans_first_symbol : (ransSymbol [] laplace32 0 ⟨[0x00258FBE], 64⟩ |>.toOption) = some (2, ⟨[973882], 64⟩) := by decide +kernel
theorem test_rans_renormalises : encodeOne ([0x90000000], []) (0, 0, 4621) = ([0x000711A5], [0]) ∧
    (ransSymbol [0, 0] laplace32 0 ⟨[0x000711A5], 0⟩ |>.toOption) = some (0, ⟨[0x90000000], 2⟩) := by decide +kernel

/-- 07 R159, R160: two escapes in one byte. -/
theorem test_escapes : packBits (escapeBits ⟨2, laplace32⟩ 5 ++ escapeBits ⟨2, laplace32⟩ (-4)) = [0x3A] ∧
    (readEscape [0x3A] ⟨2, laplace32⟩ 0 |>.toOption) = some (5, 4) ∧ (readEscape [0x3A] ⟨2, laplace32⟩ 4 |>.toOption) = some (-4, 8) := by decide +kernel

def abc : List Byte := [97, 98, 99, 97, 98, 99, 97, 98, 99, 97, 98, 99, 88]

/-- 07 R174: a short input that stays stored. -/
theorem test_lz_stored : (lzPack abc 1 1000 0 0).out.length = 48 ∧ leAt ((lzPack abc 1 1000 0 0).out.drop 16) 0 1 = 3 ∧
    leAt (lzHeader 1 13) 0 2 = 0x5A4C ∧ lzAll (lzPack abc 1 1000 0 0).out = some abc := by decide +kernel

/-- 09 R212: merging one element, s_u 2^-4, s_v 2^-5, s_w 2^-7. -/
theorem test_merge : ([11, 13, 21, 10, -10].map fun p => (mergeCode 37 p (.num 1 16 0 false) (.num 1 32 0 false) (.num 1 128 0 false)).1) =
      [40, 40, 42, 39, 35] ∧
    mergeCode 126 11 (.num 1 16 0 false) (.num 1 32 0 false) (.num 1 128 0 false) = (127, true) := by decide +kernel

/-- 11 R254: a bounded range residual. -/
theorem test_range_residual : ([((12345 : Int), (12339 : Int)), (12350, 12352), (65535, 65530), (1000, 1005)].map fun p =>
      (zigzag (resEncode p.1 p.2 3), resDecode (resEncode p.1 p.2 3) p.2 3 1)) = [(2, 12346), (0, 12352), (2, 65535), (1, 998)] := by decide +kernel

/-- 12: headers around a refresh boundary, T = 512, N = 64. -/
theorem test_refresh : refreshPos 64 64 = 63 ∧ refreshComplete 64 64 = true ∧ intraFrom 64 64 4 = 3 ∧ endColumn 64 64 4 = 4 ∧
    refreshPos 65 64 = 0 ∧ endColumn 65 64 4 = 0 ∧ endColumn 80 64 4 = 1 := by decide

/-- 12 R269: CRC-32C. -/
theorem test_crc32c : crc32c [0x31, 0x32, 0x33, 0x34, 0x35, 0x36, 0x37, 0x38, 0x39] = 0xE3069283 := by decide +kernel

/-- 12: the media fields of the stream header of 1,920 x 1,080, 10-bit 4:2:0. -/
def video : StreamParams := { width := 1920, height := 1080, bitDepth := 10, sampling := 0, tileSize := 512, refreshN := 64, reconDigest := 1 }
theorem test_stream_header : (streamHeaderBody video 0 64 (zeros 32) 0).drop 36 =
    [0, 1, 0, 0x40, 0, 0, 0, 0, 0x07, 0x80, 0x04, 0x38, 0x0A, 0, 0x02, 0, 0x04, 0x03] ++ zeros 6 := by decide +kernel

/-! ### States and requests of the witnesses -/

/-- An open privileged session. -/
def peer : Session where
  number := 1
  isOpen := true
  hostKey := [7]
  keyIn := []
  keyOut := []
  transcript := []
  privileged := true
  lastAt := 0

/-- An open session that is not privileged. -/
def guest : Session := { peer with privileged := false }

/-- A running part with port E0 up. -/
def live : State := { State.reset with
  phase := .running, resetN := true, gts := 20000000000, sessions := [peer],
  dies := modifyAt State.reset.dies 0 fun d => { d with eth := { d.eth with up := true } } }

/-- The same with a session that is not privileged. -/
def open1 : State := { live with sessions := [guest] }

/-- The request of an opcode with its tag. -/
def dg (op : Nat) (ps : List Byte) : Datagram := { dg0 ps with tag := cmdTag [] (dgHeader (dg0 ps) op ++ ps) }

theorem dg_framed (op : Nat) (ps : List Byte) (h : ps.length ≤ 4096) : dgFramed (dg op ps) = true := by
  have h2 : ps.length % 65536 = ps.length := Nat.mod_eq_of_lt (by omega)
  simp [dgFramed, dg, dg0, h, h2, bit]

/-- What a request of session 1 needs to be accepted. -/
theorem accepted_dg {s : State} {op : Nat} {ps : List Byte} {priv : Bool} {owner : Option (List Byte)} {target : Option Nat} {x : Session}
    (hp : s.answersOn 0 = true) (hl : ps.length ≤ 4096) (hs : s.session 1 = some x) (hk : x.keyIn = [])
    (hh : x.h = 0) (hc : x.cache = []) (ha : s.opcodeAllowed op = true) (ho : x.isOpen = true) (hr : priv = true → x.privileged = true)
    (hw : ∀ k, owner = some k → k = x.hostKey ∨ x.privileged = true) (hpk : s.packageRecovering = false)
    (hd : ∀ t, target = some t → s.dieRecovering t = false) : Accepted s (dg op ps) op priv owner target x where
  port := hp
  framed := dg_framed op ps hl
  known := hs
  tag := by simp only [hk]; rfl
  fresh := by rw [hh]; exact (by decide : 0 < (1 : BitVec 32).toNat)
  room := by rw [hc]; simp
  clean := by simp [dgClean, dg, dg0]
  allowed := ha
  isOpen := ho
  rank := hr
  owns := hw
  package := hpk
  die := hd

/-- The same on a state without recoveries, from the privileged session. -/
theorem accepted_peer {s : State} {op : Nat} {ps : List Byte} (priv : Bool) (owner : Option (List Byte)) (target : Option Nat)
    (hp : s.answersOn 0 = true) (hl : ps.length ≤ 4096) (hs : s.session 1 = some peer) (ha : s.opcodeAllowed op = true)
    (hr : s.recoveries = []) : Accepted s (dg op ps) op priv owner target peer :=
  accepted_dg hp hl hs rfl rfl rfl ha rfl (fun _ => rfl) (fun _ _ => .inr rfl) (by simp [State.packageRecovering, hr])
    (fun _ _ => by simp [State.dieRecovering, hr])

theorem accepted_guest {s : State} {op : Nat} {ps : List Byte} (target : Option Nat)
    (hp : s.answersOn 0 = true) (hl : ps.length ≤ 4096) (hs : s.session 1 = some guest) (ha : s.opcodeAllowed op = true)
    (hr : s.recoveries = []) : Accepted s (dg op ps) op false none target guest :=
  accepted_dg hp hl hs rfl rfl rfl ha rfl (fun h => by cases h) (fun _ h => by cases h) (by simp [State.packageRecovering, hr])
    (fun _ _ => by simp [State.dieRecovering, hr])

/-! ### Hypotheses that are met: time, registers, the management bus -/

/-- `accepted_peer` with its facts found by evaluation. -/
theorem acc {s : State} {op : Nat} {ps : List Byte} {priv : Bool} {owner : Option (List Byte)} {target : Option Nat}
    (hp : s.answersOn 0 = true := by decide +kernel) (hl : ps.length ≤ 4096 := by decide +kernel)
    (hs : s.session 1 = some peer := by decide +kernel) (ha : s.opcodeAllowed op = true := by decide +kernel)
    (hr : s.recoveries = [] := by rfl) : Accepted s (dg op ps) op priv owner target peer :=
  accepted_peer priv owner target hp hl hs ha hr

theorem writable_live (d : Nat) (h : d < 8) : Writable live .shell d := ⟨rfl, h, rfl, rfl⟩

theorem witness_StepRunsFrontCommand : ({ live with pending := [.ppsIn, .status] } : State).pending = .ppsIn :: [.status] := rfl

theorem witness_IdleStep : live.pending = [] ∧ live.counts = true ∧ live.slew = 0 ∧ live.slewPhase % 16 ≠ 15 ∧
    ({ live with slewPhase := 15, slew := 1 } : State).slewPhase % 16 = 15 ∧ (0 : Int) < ({ live with slewPhase := 15, slew := 1 } : State).slew ∧
    ({ live with slewPhase := 15, slew := -1 } : State).slew < 0 ∧ State.reset.pending = [] ∧ State.reset.counts = false := by decide +kernel

theorem witness_ResetRegisters : 7 < 8 ∧ 4 < 5 ∧ 27 < 28 ∧ State.reset.regValue .shell 7 0x060020 = 0x0E100010 := by decide +kernel

theorem witness_PackageWideWrites : Writable live .shell 7 ∧ live.diesOk ∧
    ([(0x00010001 : Word), 0x03E82710].all fun v => 1 ≤ v.toNat % 65536 && v.toNat % 65536 ≤ 10000 && 1 ≤ v.toNat / 65536 && v.toNat / 65536 ≤ 1000) :=
  ⟨writable_live 7 (by decide), by decide +kernel, by decide⟩

theorem witness_DieRegisterWrites : Writable live .shell 0 ∧ (0x400 : Word).toNat / 256 % 8 ≤ 4 ∧ 7 < 8 ∧
    ([(480 : Word), 1200].all fun v => 480 ≤ v.toNat % 65536 && v.toNat % 65536 ≤ 1200) ∧ (0x00010001 : Word).toNat % 65536 ≠ 0 ∧
    (0x00010001 : Word).toNat / 65536 ≠ 0 ∧ 0 < live.dies.length := ⟨writable_live 0 (by decide), by decide +kernel⟩

/-- A queue pair of port 0. -/
def qp0 : QueuePair := { qpn := 3, ofStream := false, owner := 0, cls := 3, network := 0, port := 0, alt := none, connected := true }

def bound0 : State := { live with
  qps := [qp0], dies := modifyAt live.dies 0 fun d => { d with eth := { d.eth with pendingCfg := { flags := 1, ipv4 := 5 } } } }

theorem witness_PortAndTimer_ports : BitVec.ofNat 2 (0 : Word).toNat = (live.die 0).eth.mode ∧ (0 : Word).toNat % 4 ≠ 3 ∧
    BitVec.ofNat 2 (2 : Word).toNat ≠ (live.die 7).eth.mode ∧ (live.die 7).eth.up = false ∧
    (live.qps.any fun q => q.connected && (q.port == 0)) = false ∧ (bound0.qps.any fun q => q.connected && (q.port == 0)) = true ∧
    (bound0.die 0).eth.pendingCfg.addresses ≠ (bound0.die 0).eth.current.addresses ∧ Writable bound0 .shell 0 ∧ Writable live .shell 7 := by
  and_intros <;> first | rfl | exact writable_live 7 (by decide) | exact ⟨rfl, by decide, rfl, rfl⟩ | decide +kernel

theorem witness_PortAndTimer_pins :
    (0x100 : Word).toNat % 4 ≠ 3 ∧ (0x100 : Word).toNat / 256 % 256 ≠ 0 ∧ (0x100 : Word).toNat % 4 = 0 ∧
    (0x102 : Word).toNat % 4 ≠ 0 ∧ (0x102 : Word).toNat % 4 ≠ live.hulEvtOut.toNat % 4 ∧ live.hulEvtOut.toNat % 4 ≠ 0 ∧
    ([(256001 : Word), 153600001].all fun v => v.toNat % 4 == 1 && 1000 ≤ v.toNat / 256 && v.toNat / 256 ≤ 600000) ∧ live.hulT7.toNat % 4 = 1 ∧
    ([(25602 : Word), 256000002].all fun v => v.toNat % 4 == 2 && 100 ≤ v.toNat / 256 && v.toNat / 256 ≤ 1000000) ∧
    ({ live with hulT7 := 0 } : State).hulT7.toNat % 4 = 0 := by decide +kernel

/-- The shell's window on die 0 stands at a word. -/
def window (w : Word) : State := { live with indRegs := [((.shell, 0), (w, 0))] }

theorem witness_IndirectWindow : Writable (window 0x10000000) .shell 0 ∧
    ([(0x00000000 : Word), 0x12000000, 0x78000000].all fun w => let v := ((window w).indOf .shell 0).1.toNat; indInstances (v / 2 ^ 28 % 8) ≤ v / 2 ^ 24 % 16) ∧
    ([(0x10000000 : Word), 0x29000000, 0x40000000, 0x90FFFFFC].all fun w => let v := ((window w).indOf .shell 0).1.toNat
      v / 2 ^ 24 % 16 < indInstances (v / 2 ^ 28 % 8) && (v / 2 ^ 28 % 8 == 1 || v / 2 ^ 28 % 8 == 2 || v / 2 ^ 28 % 8 == 4)) ∧
    (let v := ((window 0x90FFFFFC).indOf .shell 0).1.toNat; 2 ^ 31 ≤ v ∧ v / 4 % 2 ^ 22 + 1 = 2 ^ 22) ∧
    0 < (window 0x10000000).dies.length := ⟨⟨rfl, by decide, rfl, rfl⟩, by decide +kernel⟩

theorem witness_Unreachable : open1.phase = .running ∧ 0 < open1.dieCount ∧ open1.dieRecovering 0 = false ∧
    open1.reaches (.session 1) = false := by decide +kernel

theorem witness_OutOfRange : Writable live .shell 0 ∧ 4 < (0x500 : Word).toNat / 256 % 8 ∧ (479 : Word).toNat % 65536 < 480 ∧
    1200 < (1201 : Word).toNat % 65536 ∧ (0x00010000 : Word).toNat % 65536 = 0 ∧ (1 : Word).toNat / 65536 = 0 ∧
    (0x00010000 : Word).toNat % 65536 < 1 ∧ 10000 < (0x00012711 : Word).toNat % 65536 ∧ (1 : Word).toNat / 65536 < 1 ∧
    1000 < (0x03E90001 : Word).toNat / 65536 ∧ (3 : Word).toNat % 4 = 3 ∧ (0x001 : Word).toNat / 256 % 256 = 0 ∧
    ((255745 : Word).toNat % 4 = 1 ∧ (255745 : Word).toNat / 256 < 1000) ∧ ((25346 : Word).toNat % 4 = 2 ∧ (25346 : Word).toNat / 256 < 100) :=
  ⟨writable_live 0 (by decide), by decide⟩

theorem witness_ManagementBus : live.firmwareRuns = true ∧ State.reset.firmwareRuns = false := by decide +kernel

/-! ### Hypotheses that are met: the protocol -/

/-- A datagram with the tag of a key. -/
def tagged (key : List Byte) (op : Nat) (d : Datagram) : Datagram := { d with tag := cmdTag key (dgHeader d op ++ d.params) }

/-- Some tag of 16 bytes is not the one computed. -/
theorem wrong_tag (k b : List Byte) : ∃ t : List Byte, t.length = 16 ∧ cmdTag k b ≠ t := by
  by_cases h : cmdTag k b = zeros 16
  · exact ⟨List.replicate 16 1, rfl, by rw [h]; decide⟩
  · exact ⟨zeros 16, rfl, h⟩

theorem witness_Framing_unframed : live.answersOn 0 = true ∧
    (∀ d ∈ [{ dg0 [] with fragment := true }, { dg0 [] with tag := zeros 15 }, { dg0 [] with paramLen := 1 }, { dg0 [] with magic := 0 },
        { dg0 [] with version := 2 }, { dg0 [] with flags := 4 }, { dg0 [] with ahead := 1024 }],
      request (.capsQuery d) = some (d, 0x0004) ∧ dgFramed d = false) := by decide +kernel

theorem witness_Framing_wrongTag : ∃ d : Datagram, request (.capsQuery d) = some (d, 0x0004) ∧ live.answersOn d.port = true ∧ dgFramed d = true ∧
    d.session ≠ 0 ∧ live.session d.session.toNat = some peer ∧ cmdTag peer.keyIn (dgHeader d 0x0004 ++ d.params) ≠ d.tag := by
  obtain ⟨t, h, n⟩ := wrong_tag [] (dgHeader (dg0 []) 0x0004)
  exact ⟨{ dg0 [] with tag := t }, rfl, (by decide +kernel : live.answersOn 0 = true), by simp [dgFramed, dg0, h, bit], by simp [dg0],
    (by decide +kernel : live.session 1 = some peer), by
    simpa [peer, dg0, dgHeader] using n⟩

/-- A HELLO as a host sends it. -/
def hello0 (ps : List Byte) : Datagram := { dg0 ps with session := 0, sequence := 0, flags := 4 }

theorem witness_Framing_hello : ∃ d : Datagram, live.answersOn d.port = true ∧ dgFramed d = true ∧ d.session = 0 ∧
    cmdTag (zeros 32) (dgHeader d 0x0001 ++ d.params) ≠ d.tag := by
  obtain ⟨t, h, n⟩ := wrong_tag (zeros 32) (dgHeader (hello0 []) 0x0001)
  exact ⟨{ hello0 [] with tag := t }, (by decide +kernel : live.answersOn 0 = true), by simp [dgFramed, hello0, dg0, h, bit], rfl, by
    simpa [hello0, dg0, dgHeader] using n⟩

theorem witness_Framing_unknown : let d := { dg0 [] with session := 2 }
    request (.capsQuery d) = some (d, 0x0004) ∧ live.answersOn d.port = true ∧ dgFramed d = true ∧ d.session ≠ 0 ∧
    live.session d.session.toNat = none ∧ (live.die 0).eth.authSecond + 10 ^ 9 ≤ live.gts ∧
    (let e : Eth := { authSecond := 19000000001, authCount := 99 }; live.gts < e.authSecond + 10 ^ 9 ∧ e.authCount < 100) ∧
    (let e : Eth := { authSecond := 19000000001, authCount := 100 }; live.gts < e.authSecond + 10 ^ 9 ∧ 100 ≤ e.authCount) := by
  decide +kernel

def reply0 : Reply := { port := 0, addr := 5, udp := 4000, flags := 1, session := 1, sequence := 1, opcode := 4, status := .ok, gts := 0, params := [], tag := [] }

/-- A session far on in its numbers, with one reply cached and one pending. -/
def late : Session := { peer with h := 64, cache := [⟨1, zeros 16, 4, reply0, true⟩, ⟨2, cmdTag [] (dgHeader { dg0 [] with sequence := 2 } 4), 4, reply0, false⟩] }

/-- 13 R297: the window of the worked example, H = 1,000. -/
theorem test_sequence_window : let x := { peer with h := 1000, cache := [⟨995, [1], 0x41, reply0, false⟩] }
    x.seqCase 1001 [1] = .execute ∧ x.seqCase 995 [1] = .cached ⟨995, [1], 0x41, reply0, false⟩ ∧ x.seqCase 995 [2] = .conflict ∧
    ({ x with h := 1001 } : Session).seqCase 937 [1] = .stale ∧ ({ x with h := 1003 } : Session).seqCase 1002 [1] = .execute ∧
    ({ x with h := 1004, cache := [⟨1004, [1], 0x10, reply0, true⟩] } : Session).seqCase 1068 [1] = .busy ∧
    ({ x with h := 1004, cache := [⟨1004, [1], 0x10, reply0, true⟩] } : Session).seqCase 1067 [1] = .execute := by decide +kernel

theorem tagged_tag (k : List Byte) (op : Nat) (d : Datagram) :
    cmdTag k (dgHeader (tagged k op d) op ++ (tagged k op d).params) = (tagged k op d).tag := rfl

/-- A request whose tag is right, framed and clean, of any sequence number. -/
theorem tagged_framed {s : State} (n : BitVec 32) (op : Nat) (hp : s.answersOn 0 = true) :
    let d := tagged [] op { dg0 [] with sequence := n }
    s.answersOn d.port = true ∧ dgFramed d = true ∧ d.session ≠ 0 ∧ cmdTag [] (dgHeader d op ++ d.params) = d.tag ∧ dgClean d = true :=
  ⟨hp, by simp [dgFramed, tagged, dg0, bit], by simp [tagged, dg0], rfl, by simp [dgClean, tagged, dg0]⟩

/-- A session far on in its numbers; the reply to number 1 is cached under a tag, that to 2 is pending. -/
def far (tag : List Byte) : Session :=
  { peer with h := 64, cache := [⟨1, tag, 4, reply0, false⟩, ⟨2, zeros 16, 4, reply0, true⟩] }
def farState (tag : List Byte) : State := { live with sessions := [far tag] }

theorem far_session (t : List Byte) : (farState t).session 1 = some (far t) := rfl
theorem far_answers (t : List Byte) : (farState t).answersOn 0 = true := (by decide +kernel : live.answersOn 0 = true)

/-- The four cases at their ends: 0 stale, 1 cached or in conflict, 66 would push the pending 2 out. -/
theorem witness_SequenceNumberCases : (∀ n op, let d := tagged [] op { dg0 [] with sequence := n }
      (farState []).answersOn d.port = true ∧ dgFramed d = true ∧ d.session ≠ 0 ∧ cmdTag [] (dgHeader d op ++ d.params) = d.tag ∧ dgClean d = true) ∧
    (farState []).session 1 = some (far []) ∧ (far []).isOpen = true ∧ (far []).keyIn = [] ∧
    (∀ d, request (.capsQuery d) = some (d, 4)) ∧ 0 + 63 < (far []).h ∧ 1 ≤ (far []).h ∧ (far []).h ≤ 1 + 63 ∧
    ((far []).cache.find? (·.sequence == 1) = some ⟨1, [], 4, reply0, false⟩) ∧ (far []).h < 66 ∧
    (∃ e ∈ (far []).cache, e.pending = true ∧ e.sequence + 63 < 66) ∧
    (∀ t, (far t).cache.find? (·.sequence == 1) = some ⟨1, t, 4, reply0, false⟩) ∧
    [] ≠ cmdTag [] (dgHeader (dg0 []) 4) := by
  refine ⟨fun n op => tagged_framed n op (far_answers []), rfl, rfl, rfl, fun _ => rfl, by decide, by decide, by decide, by decide, by decide, by decide,
    fun _ => rfl, fun h => ?_⟩
  have := cmdTag_length [] (dgHeader (dg0 []) 4)
  rw [← h] at this
  exact absurd this (by decide)

/-- A recovery of a domain, at a step since a GTS. -/
def rec0 (x : Domain) (step : Nat) : Recovery := { dom := x, trigger := 7, event := none, step := step, beganAt := 0, stepAt := 0, seq := 1 }

theorem witness_ChecksOfRank : (let d := dg 0x0010 []; live.answersOn d.port = true ∧ dgFramed d = true ∧ live.session d.session.toNat = some peer ∧
      cmdTag peer.keyIn (dgHeader d 0x0010 ++ d.params) = d.tag ∧ dgClean d = true ∧ peer.h < d.sequence.toNat) ∧
    live.phase = .running ∧ guest.privileged = false ∧ open1.session 1 = some guest ∧ peer.privileged = true ∧ peer.cache = [] ∧
    ({ live with recoveries := [rec0 .package 0] } : State).packageRecovering = true := by
  have h := acc (s := live) (op := 0x0010) (ps := []) (priv := false) (owner := none) (target := none)
  exact ⟨⟨h.port, h.framed, h.known, h.tag, h.clean, h.fresh⟩, by decide +kernel⟩

theorem witness_AnswerIsSent : live.session (dg0 []).session.toNat = some peer ∧ peer.h ≤ (dg0 []).sequence.toNat + 63 := by decide +kernel

theorem tagged_ok (k : List Byte) (op : Nat) (ps : List Byte) (n : BitVec 32) (h : ps.length ≤ 4096) :
    dgFramed (tagged k op { dg0 ps with sequence := n }) = true ∧ dgClean (tagged k op { dg0 ps with sequence := n }) = true ∧
    dgFramed (tagged k op (hello0 ps)) = true ∧
    (let d := tagged k op (hello0 ps); dgClean { d with flags := d.flags &&& 0xFB } = true) := by
  have h2 : ps.length % 65536 = ps.length := Nat.mod_eq_of_lt (by omega)
  simp [dgFramed, dgClean, tagged, hello0, dg0, h, h2, bit]

/-- HELLO's parameters: HOST_X448, HOST_ED448, reserved, nonce. -/
theorem witness_Hello : let d := tagged (zeros 32) 1 (hello0 (zeros 148))
    live.answersOn d.port = true ∧ dgFramed d = true ∧ d.session = 0 ∧ cmdTag (zeros 32) (dgHeader d 1 ++ d.params) = d.tag ∧
    dgClean { d with flags := d.flags &&& 0xFB } = true ∧ d.params = zeros 148 :=
  ⟨(by decide +kernel : live.answersOn 0 = true), (tagged_ok _ _ _ 0 (by decide +kernel)).2.2.1, rfl, tagged_tag _ _ _,
    (tagged_ok _ _ _ 0 (by decide +kernel)).2.2.2, rfl⟩

theorem witness_Hello_counts : live.packageRecovering = false ∧ (zeros 148).length = 148 ∧ beAt (zeros 148) 113 3 = 0 ∧
    (live.sessions.filter fun x => !x.isOpen).length < 16 ∧
    16 ≤ (({ live with sessions := List.replicate 16 { peer with isOpen := false } } : State).sessions.filter fun x => !x.isOpen).length ∧
    live.sessions.length < 128 := by decide +kernel

/-- A provisional session, and SESSION_OPEN's parameters with the longest idle time. -/
def early : Session := { peer with isOpen := false, privileged := false }
def openParams (priv : Byte) : List Byte := [priv, 0, 0x0E, 0x10] ++ zeros 116

theorem witness_SessionOpen (priv : Byte) : let s := { live with sessions := [early] }
    let d := tagged [] 2 { dg0 (openParams priv) with sequence := 0 }
    s.answersOn d.port = true ∧ dgFramed d = true ∧ s.session d.session.toNat = some early ∧ early.isOpen = false ∧
    cmdTag early.keyIn (dgHeader d 2 ++ d.params) = d.tag ∧ dgClean d = true ∧ d.params = openParams priv ∧ d.sequence = 0 :=
  ⟨(by decide +kernel : live.answersOn 0 = true), (tagged_ok _ _ _ 0 (by simp [openParams, zeros])).1, rfl, rfl, tagged_tag _ _ _,
    (tagged_ok _ _ _ 0 (by simp [openParams, zeros])).2.1, rfl, rfl⟩

theorem witness_SessionOpen_params : (([0, 1] : List Byte).all fun b => (openParams b).length == 120 && beAt (openParams b) 0 1 ≤ 1 &&
      beAt (openParams b) 1 1 == 0 && beAt (openParams b) 2 2 ≤ 3600 && beAt (openParams b) 118 2 == 0) = true ∧
    early.h ≤ 63 ∧ early.cache = [] ∧ ([early].filter (·.isOpen)).length < 4 ∧ 64 ≤ ((List.replicate 64 peer).filter (·.isOpen)).length := by decide +kernel

theorem witness_SessionsEnd : Accepted live (dg 0x0003 []) 0x0003 false none none peer ∧
    (let s := { live with sessions := [early] }; s.session 1 = some early ∧ early.isOpen = false ∧ early.lastAt + 5 * 10 ^ 9 ≤ s.gts ∧
      ({ s with gts := 4999999999 } : State).gts < early.lastAt + 5 * 10 ^ 9 ∧ s.session 2 = none) ∧
    (let s := { live with gts := 60000000000 }; s.session 1 = some peer ∧ peer.isOpen = true ∧ peer.lastAt + peer.idle * 10 ^ 9 ≤ s.gts ∧
      s.packageRecovering = false) ∧ live.gts < peer.lastAt + peer.idle * 10 ^ 9 :=
  ⟨acc (s := live) (op := 3) (ps := []) (priv := false) (owner := none) (target := none), by decide +kernel⟩

/-- REG_READ and REG_WRITE parameters: DIE, OFFSET, COUNT, FLAGS. -/
def sticky0 : List Byte := [7, 0x02, 0x00, 0x10, 0, 2, 0, 0]
def limit0 : List Byte := [0, 0x05, 0x00, 0x08, 0, 1, 0, 0]

theorem witness_RegisterCommands : Accepted live (dg 0x0040 sticky0) 0x0040 false none (some 7) peer ∧ sticky0.length = 8 ∧
    regParamFault live sticky0 1024 = none ∧
    (∀ o ∈ regOffsets (beAt sticky0 1 3) (beAt sticky0 4 2) (beAt sticky0 6 2 == 1), o ≠ 0x030004 ∧ (guarded 7 o = true → peer.privileged = true)) ∧
    Accepted live (dg 0x0041 (limit0 ++ [0, 0, 0x01, 0xE0])) 0x0041 false none (some 0) peer ∧
    regParamFault live (limit0 ++ [0, 0, 0x01, 0xE0]) 1021 = none ∧ (limit0 ++ [0, 0, 0x01, (0xE0 : Byte)]).length = 8 + 4 * beAt limit0 4 2 ∧
    Accepted open1 (dg 0x0040 limit0) 0x0040 false none (some 0) guest ∧ regParamFault open1 limit0 1024 = none ∧ beAt limit0 4 2 = 1 ∧
    guarded 0 (beAt limit0 1 3) = true :=
  ⟨acc (s := live) (op := 0x40) (ps := sticky0) (priv := false) (owner := none) (target := some 7), by decide, by decide +kernel, by decide +kernel, acc (s := live) (op := 0x41) (priv := false) (owner := none) (target := some 0), by decide +kernel,
    by decide, accepted_guest (some 0) (by decide +kernel) (by decide) (by decide +kernel) (by decide +kernel) rfl, by decide +kernel, by decide, by decide +kernel⟩

def event0 : EventRec := ⟨5, 0x1000, 0x0901, 1⟩
/-- Die 0 holds one record. -/
def oneEvent : State := live.onDie 0 fun d => { d with events := [event0] }

theorem witness_EventQueue : 0 < live.dies.length ∧ (oneEvent.die 0).events.length < 4096 ∧ (oneEvent.die 0).discarded = 0 ∧
    (oneEvent.die 0).events.Pairwise (fun a b => EventRec.le a b = true) ∧
    ((oneEvent.onDie 0 fun d => { d with discarded := 1 }).die 0).discarded ≠ 0 := by decide +kernel

/-- A crash record of a region. -/
def crash0 : CrashRec := { offset := 0, dom := .region 0 5, trigger := 1, compat := false, seq := 1, gtsBegin := 0, event := none, contexts := [], descrs := [], samples := zeros 64, nUnits := 0 }
def crashed : State := { live with crash := [crash0] }

theorem witness_RecordCommands : Accepted oneEvent (dg 0x0050 [0, 1, 0, 0]) 0x0050 false none (some 0) peer ∧ oneEvent.diesOk ∧
    beAt ([0, 1, 0, 0] : List Byte) 1 1 ≠ 0 ∧
    Accepted live (dg 0x0051 ([7, 0, 0, 0] ++ zeros 8)) 0x0051 true none (some 7) peer ∧
    Accepted live (dg 0x0052 [0, 0x22, 0, 0, 2, 0, 0, 0]) 0x0052 false none (some 0) peer ∧
    Accepted live (dg 0x0052 [7, 0x22, 0xFF, 0xF8, 0, 1, 0, 0]) 0x0052 false none (some 7) peer ∧
    (([[0, 0x22, 0, 0, 2, 0, 0, 0], [7, 0x22, 0xFF, 0xF8, 0, 1, 0, 0]] : List (List Byte)).all fun p => 0x220000 ≤ beAt p 1 3 &&
      beAt p 1 3 % 8 == 0 && 0 < beAt p 4 2 && beAt p 4 2 ≤ 512 && beAt p 1 3 + 8 * beAt p 4 2 ≤ 0x230000 && beAt p 6 2 == 0) = true ∧
    Accepted live (dg 0x0004 []) 0x0004 false none none peer ∧ (0x0005 : BitVec 16).toNat ∉ knownOpcodes ∧
    Accepted crashed (dg 0x0054 [0, 0, 0, 1, 0, 0, 0, 0, 0, 8, 0, 0]) 0x0054 true none none peer ∧ crashed.crash.length ≤ 1 ∧
    Accepted crashed (dg 0x0054 [0, 0, 0, 0, 0, 0, 0, 0, 0x0F, 0xF0, 0, 0]) 0x0054 true none none peer ∧ crashed.crash[0]? = some crash0 ∧
    crashed.recoveries = [] ∧ 0 < crashed.crashLength crash0 :=
  ⟨acc, by decide +kernel, by decide, acc, acc, acc, by decide, acc, by decide,
    acc, by decide, acc, rfl, rfl, by decide +kernel⟩

def unit5 : List Byte := [0, 0, 0, 0, 0, 0, 0, 5]
def engaging0 (kind target : Nat) : State := live.onDie 0 fun d => { d with engaging := [⟨kind, target, 0, []⟩], retired := [target] }

theorem witness_SpareCommands : Accepted live (dg 0x0070 [7, 0, 0, 0]) 0x0070 false none (some 7) peer ∧
    Accepted live (dg 0x0071 unit5) 0x0071 true none (some 0) peer ∧ unit5.length = 8 ∧ live.diesOk ∧ beAt unit5 1 1 = 0 ∧
    spareTargetOk 0 (beAt unit5 4 4) = true ∧ live.regionRecovering 0 (targetRegion 0 5) = false ∧ (live.die 0).isEngaging 0 5 = false ∧
    (live.die 0).alreadyRetired 0 5 = false ∧ (live.die 0).spareLeft 0 5 = true ∧ live.engagesAtOnce 0 0 5 = false ∧
    ((live.onDie 0 fun d => { d with retired := [7] }).die 0).alreadyRetired 4 7 = true ∧ spareTargetOk 4 50331647 = true ∧
    ((live.onDie 0 fun d => { d with rgn := modifyAt d.rgn 8 fun r => { r with spare := false } }).die 0).spareLeft 0 5 = false ∧
    (([(0, 255), (1, 31), (2, 7), (3, 2 ^ 28 + 1572863), (4, 9)] : List (Nat × Nat)).all fun k => spareTargetOk k.1 k.2 &&
      ((engaging0 k.1 k.2).die 0).engaging.find? (fun y => y.kind == k.1 && y.target == k.2) == some ⟨k.1, k.2, 0, []⟩ &&
      (engaging0 k.1 k.2).firmwareRuns && (engaging0 k.1 k.2).engageDue 0 k.1 k.2) = true ∧
    (live.die 0).rgn.length = 288 ∧ (live.die 0).ent.length = 40 :=
  ⟨acc, acc, by decide, by decide +kernel⟩

def linked : State := live.onDie 0 fun d => { d with plk := { d.plk with up := true, lanes := 8, identOk := true } }

theorem witness_MemoryErrors : live.phase = .running ∧ 7 < live.dieCount ∧ live.diesOk ∧ 50331647 % 16 = 15 ∧ (live.die 7).memCh.length = 16 ∧
    (live.die 7).cnt.length = 14 ∧ (live.die 7).lze.length = 8 ∧ (linked.die 0).plk.lanes = 8 ∧ (linked.die 0).plk.up = true ∧
    (linked.die 0).spareLeft 2 7 = true ∧ (linked.die 0).isEngaging 2 7 = false ∧ bit (linked.die 0).svcMode.toNat 0 = true ∧
    bit ((linked.onDie 0 fun d => { d with svcMode := 2 }).die 0).svcMode.toNat 0 = false := by decide +kernel

/-- Die 7's service of an island, at a stage. -/
def serving (kind index stage : Nat) : State := live.onDie 7 fun d => { d with service := some ⟨⟨kind, index⟩, stage, 0, [], [], [], false, false⟩ }

theorem witness_Islands_requests : ([[7, 0, 7, 0], [7, 1, 0, 0], [7, 2, 0, 0], [7, 3, 15, 0]] : List (List Byte)).all (fun p =>
      live.islandFault p == none && !live.islandRecovering 7 (islandOf p) && !live.islandBusy 7 (islandOf p)) = true ∧
    Accepted live (dg 0x0072 [7, 0, 7, 0]) 0x0072 true none (some 7) peer ∧ Accepted live (dg 0x0074 [7, 3, 15, 0]) 0x0074 true none (some 7) peer ∧
    live.activation = none ∧ (live.die 7).service = none ∧ live.diesOk ∧ (live.die 7).regions[7]? = some ({} : Region) ∧
    Accepted (serving 0 7 1) (dg 0x0073 [7, 0, 7, 0]) 0x0073 true none (some 7) peer ∧
    Accepted (serving 0 7 1) (dg 0x0074 [7, 0, 7, 0]) 0x0074 true none (some 7) peer ∧
    ((serving 0 7 1).die 7).service = some ⟨islandOf [7, 0, 7, 0], 1, 0, [], [], [], false, false⟩ :=
  ⟨by decide +kernel, acc, acc, by decide +kernel, by decide +kernel, by decide +kernel, by decide +kernel, acc,
    acc, by decide +kernel⟩

theorem witness_Islands_events : (serving 0 7 0).firmwareRuns = true ∧ (serving 0 7 0).islandDrained 7 ⟨0, 7⟩ = true ∧ (serving 0 7 0).diesOk ∧
    (serving 0 7 2).islandRecovering 7 ⟨0, 7⟩ = false ∧ (serving 0 7 3).islandReady 7 ⟨0, 7⟩ = true ∧
    ((serving 3 15 1).die 7).service = some ⟨⟨3, 15⟩, 1, 0, [], [], [], false, false⟩ ∧ 0 + 30000000 ≤ (serving 3 15 1).gts ∧
    ({ serving 3 15 1 with gts := 29999999 } : State).gts < 0 + 30000000 := by decide +kernel

/-! ### Hypotheses that are met: operations -/

/-- The scratchpad of unit 0, deep SRAM, the list, a scale stream and the motion field. -/
def sp (i : Nat) : Nat := 0x310000000000 + 0x1000 * i
def deep (i : Nat) : Nat := 0x100000000000 + 0x1000 * i
def listAt : Nat := 0x1000
def scaleAt : Nat := deep 15

/-- A tensor descriptor with rows of 256 bytes. -/
def tn (base c h w fmt layout : Nat) (scale : Nat := 0) : List Byte :=
  leBytes 8 base ++ leBytes 8 (256 * h) ++ leBytes 4 256 ++ leBytes 2 c ++ leBytes 2 h ++ leBytes 2 w ++ leBytes 1 fmt ++ leBytes 1 layout ++
    zeros 4 ++ leBytes 8 scale ++ zeros 8
/-- A byte range. -/
def rg (base len : Nat) : List Byte := leBytes 8 base ++ leBytes 4 len ++ zeros 4
/-- A target descriptor. -/
def tgt (c h w fmt : Nat) (scale : Nat) : List Byte :=
  zeros 20 ++ leBytes 2 c ++ leBytes 2 h ++ leBytes 2 w ++ leBytes 1 fmt ++ zeros 5 ++ leBytes 8 scale ++ zeros 8

/-- An operation: opcode, FLAGS, operands, own fields. -/
def opOf (r : OpRow) (flags : Nat) (operands : List Byte) (own : Nat) (stage : List Byte := []) : List Byte :=
  let body := operands ++ leBytes r.ownLen own ++ stage
  leBytes 1 r.code ++ leBytes 1 ((32 + body.length) / 16) ++ zeros 2 ++ leBytes 2 flags ++ zeros 26 ++ body

/-- A profile image of a table set and two weights of BF16. -/
def sec (tag index : Nat) (content : List Byte) : List Byte :=
  leBytes 2 tag ++ leBytes 2 index ++ leBytes 4 content.length ++ content ++ zeros (roundUp (8 + content.length) 16 - (8 + content.length))
def weightBody (cout : Nat) : List Byte := [1, 0] ++ leBytes 2 cout ++ [1, 1] ++ leBytes 2 1 ++ zeros 6 ++ zeros (2 * cout)
def img0 : List Byte := zeros 4 ++ leBytes 4 3 ++ zeros 56 ++ sec 3 0 (zeros 180) ++ sec 0x20 0 (weightBody 1) ++ sec 0x20 1 (weightBody 2)
def prof0 : Profile := { image := img0, digest := zeros 32, setSlots := [0] }
def ref0 (id : Nat) : Nat := 2 ^ 56 + id

/-- A thread at the first of the two operations of its list. -/
def list0 : CurList := { addr := listAt, exact := false, lastList := true, opCount := 2, length := 512, stream := 1, tile := 0, picture := 0 }
def thread0 : Thread := { id := th0, state := .ready, binding := 1, cur := some list0 }

/-- The state in which thread 0's next operation is this one, followed by a FENCE; a stream of scale 1 stands ready. -/
def opState (o : List Byte) (extra : Nat × List Byte := (0, [])) : State := { live with
  threads := [thread0], profiles := [none, some prof0, none, none], banks := [[[⟨2, laplace32⟩]], []]
  mem := Memory.writeBytes (Memory.writeBytes (Memory.writeBytes [] extra.1 extra.2) (listAt + 32) (o ++ opOf rowFence 0 [] 0)) scaleAt (packetBytes 0x3F800000 0 0 0 ++ endMarker) }

/-- The conditions under which the first operation of a state's thread 0 executes normally, reads no partner and stops nothing. -/
def mayRunIn (s : State) (r : OpRow) (f : OpFn) : Bool :=
  match parseOp th0 r (s.opBytes th0 list0) with
  | .error _ => false
  | .ok x => match f { s := s, th := thread0, cur := list0, op := x } with
    | .error _ => false
    | .ok w => decide (s.phase = .running) && decide (s.thread th0 = some thread0) && s.opCode th0 list0 == r.code &&
        overlapOk r.code x w && !meetsCheckpoint thread0 w.writes &&
        (moverCodes.contains r.code || (w.reads ++ w.writes).all fun sp => !s.inOtherScratch th0 sp) &&
        ((w.reads ++ w.writes).all fun sp => s.accessOk sp && !touchesRegisters sp && !s.fencedAt (some th0) (locate s.dieCount sp.base) &&
          !s.shutAt th0 (locate s.dieCount sp.base)) && (w.run s).stop.isNone && !s.readsFar w.reads && Memory.wf s.mem

theorem mayRun_of {s : State} {r : OpRow} {f : OpFn} (h : mayRunIn s r f = true) : ∃ (x : Op) (w : Work),
    MayRun s th0 r f thread0 list0 x w ∧ (w.run s).stop = none ∧ s.readsFar w.reads = false ∧ s.memOk := by
  unfold mayRunIn at h
  split at h
  · simp at h
  · rename_i x hx
    split at h
    · simp at h
    · rename_i w hw
      simp only [Bool.and_eq_true, decide_eq_true_eq, beq_iff_eq, Bool.not_eq_true', List.all_eq_true, Option.isNone_iff_eq_none,
        Bool.or_eq_true, List.contains_iff_mem] at h
      obtain ⟨⟨⟨⟨⟨⟨⟨⟨⟨h1, h2⟩, h3⟩, h4⟩, h5⟩, h6⟩, h7⟩, h8⟩, h9⟩, h10⟩ := h
      exact ⟨x, w, ⟨h1, h2, rfl, rfl, (by decide : (0 : Nat) < 2), h3, hx, hw, ⟨h4, h5⟩, h6, (fun h => by cases h),
        (fun sp hs => (h7 sp hs).1.1), (fun sp hs => ⟨(h7 sp hs).1.2, (h7 sp hs).2⟩), (fun _ hq => by cases hq),
        (fun _ _ => (by decide : (0 : Nat) < 4))⟩, h8, h9, h10⟩

def launches (r : OpRow) (f : OpFn) (o : List Byte) (extra : Nat × List Byte := (0, [])) : Bool := mayRunIn (opState o extra) r f

def window1 (groups : Nat) : Nat := leNat [1, 1, 1, 1, 1, 1, 0, 0, 0, 0, byte groups, 0, 1]

theorem witness_Operation_matmul : launches rowMatmul matmulWork
    (opOf rowMatmul 0 (tn (sp 0) 1 1 1 1 1 ++ tn (sp 1) 1 1 1 1 1 ++ tn (sp 2) 1 1 1 9 1) 0) = true := by decide +kernel
theorem witness_Operation_matmul_weights : launches rowMatmul matmulWork
    (opOf rowMatmul 0 (tn (sp 0) 1 1 1 1 1 ++ zeros 48 ++ tn (sp 2) 1 1 1 9 1) (ref0 0)) = true := by decide +kernel
theorem witness_Operation_conv : launches rowConv convFn
    (opOf rowConv 0 (tn (sp 0) 1 1 1 1 1 ++ tn (sp 2) 1 1 1 9 1) (window1 1 + 2 ^ weightBit * ref0 0)) = true := by decide +kernel
theorem witness_Operation_dwconv : launches rowDwconv dwconvFn
    (opOf rowDwconv 0 (tn (sp 0) 1 1 1 1 1 ++ tn (sp 2) 1 1 1 9 1) (window1 1 + 2 ^ weightBit * ref0 0)) = true := by decide +kernel
theorem witness_Operation_gconv : launches rowGconv gconvFn
    (opOf rowGconv 0 (tn (sp 0) 2 1 1 1 1 ++ tn (sp 2) 2 1 1 9 1) (window1 2 + 2 ^ weightBit * ref0 1)) = true := by decide +kernel
theorem witness_Operation_splitk : launches rowSplitk splitkWork
    (opOf rowSplitk 0 (tn (sp 0) 1 1 1 9 1 ++ tn (sp 1) 1 1 1 9 1 ++ tn (sp 2) 1 1 1 9 1) 0) = true := by decide +kernel
theorem witness_Operation_eltwise : launches rowEltwise eltwiseWork
    (opOf rowEltwise 0 (tn (sp 0) 1 1 1 1 1 ++ tn (sp 1) 1 1 1 1 1 ++ tn (sp 2) 1 1 1 9 1) 0) = true := by decide +kernel
theorem witness_Operation_reduce : launches rowReduce reduceWork
    (opOf rowReduce 0 (tn (sp 0) 2 1 1 1 1 ++ tn (sp 2) 1 1 1 9 1) 0) = true := by decide +kernel
theorem witness_Operation_poolMax : launches rowPoolMax poolMaxWork
    (opOf rowPoolMax 0 (tn (sp 0) 1 1 1 1 1 ++ tn (sp 2) 1 1 1 1 1) (window1 1)) = true := by decide +kernel
theorem witness_Operation_poolAvg : launches rowPoolAvg poolAvgWork
    (opOf rowPoolAvg 0 (tn (sp 0) 1 1 1 1 1 ++ tn (sp 2) 1 1 1 9 1) (window1 1)) = true := by decide +kernel
theorem witness_Operation_s2d : launches rowS2d s2dWork
    (opOf rowS2d 0 (tn (sp 0) 1 2 2 1 1 ++ tn (sp 2) 4 1 1 1 1) 2) = true := by decide +kernel
theorem witness_Operation_d2s : launches rowD2s d2sWork
    (opOf rowD2s 0 (tn (sp 0) 4 1 1 1 1 ++ tn (sp 2) 1 2 2 1 1) 2) = true := by decide +kernel
theorem witness_Operation_upsample : launches rowUpsample upsampleWork
    (opOf rowUpsample 0 (tn (sp 0) 1 1 1 1 1 ++ tn (sp 2) 1 2 2 1 1) 2) = true := by decide +kernel
theorem witness_Operation_copy : launches rowCopy copyWork
    (opOf rowCopy 0 (tn (sp 0) 1 1 1 1 1 ++ tn (sp 2) 1 1 1 1 1) 0) = true := by decide +kernel
theorem witness_Operation_transpose : launches rowTranspose transposeWork
    (opOf rowTranspose 0 (tn (sp 0) 1 2 3 1 0 ++ tn (sp 2) 1 3 2 1 0) 2) = true := by decide +kernel
theorem witness_Operation_concat : launches rowConcat concatWork
    (opOf rowConcat 0 (tn (sp 0) 1 1 1 1 0 ++ tn (sp 1) 1 1 1 1 0 ++ tn (sp 2) 2 1 1 1 0) 0) = true := by decide +kernel
theorem witness_Operation_sfu : launches rowSfu sfuWork
    (opOf rowSfu 0 (tn (sp 0) 1 1 1 1 1 ++ tn (sp 2) 1 1 1 1 1) 0) = true := by decide +kernel
theorem witness_Operation_gate : launches rowGate gateWork
    (opOf rowGate 0 (tn (sp 0) 2 1 1 1 1 ++ tn (sp 2) 1 1 1 1 1) 5) = true := by decide +kernel
theorem witness_Operation_norm : launches rowNorm normWork
    (opOf rowNorm 0 (tn (sp 0) 1 1 1 1 1 ++ tn (sp 2) 1 1 1 1 1 ++ rg (sp 3) 4096) (2 ^ 3 + 2 ^ 8 * 0x3F800000)) = true := by decide +kernel
theorem witness_Operation_softmax : launches rowSoftmax softmaxWork
    (opOf rowSoftmax 0 (tn (sp 0) 1 1 1 1 1 ++ tn (sp 2) 1 1 1 1 1 ++ rg (sp 3) 4096) 1) = true := by decide +kernel
theorem witness_Operation_qscan : launches rowQscan qscanWork
    (opOf rowQscan 0 (tn (sp 0) 1 1 1 1 1 ++ tgt 1 1 1 5 (sp 2)) 0) = true := by decide +kernel
theorem witness_Operation_qconv : launches rowQconv qconvWork
    (opOf rowQconv 0 (tn (sp 0) 1 1 1 1 1 ++ tn (sp 2) 1 1 1 5 2 scaleAt) 0) = true := by decide +kernel
theorem witness_Operation_requant : launches rowRequant requantWork
    (opOf rowRequant 0 (tn (sp 0) 1 1 1 5 2 scaleAt ++ tn (sp 2) 1 1 1 5 2 scaleAt) 0) = true := by decide +kernel
theorem witness_Operation_rng : launches rowRng rngWork
    (opOf rowRng 0 (tn (sp 2) 1 1 1 0 1) 0) = true := by decide +kernel
theorem witness_Operation_enc : launches rowEnc encWork
    (opOf rowEnc 0 (tn (sp 0) 1 1 1 1 1 ++ tn (sp 1) 1 1 1 1 0 ++ tn (sp 2) 1 1 1 7 0 ++ rg (sp 3) 4096) (1 + 2 ^ 48 + 2 ^ 64 * (sp 4) + 2 ^ 128 * 64 + 2 ^ 224 * (sp 5))) = true := by decide +kernel
theorem witness_Operation_dec : launches rowDec decWork
    (opOf rowDec 0 (rg (sp 3) 64 ++ tn (sp 1) 1 1 1 1 0 ++ tn (sp 2) 1 1 1 7 0 ++ tn (sp 0) 1 1 1 1 1) (1 + 2 ^ 48 + 2 ^ 64 * (sp 4) + 2 ^ 128 * 64 + 2 ^ 224 * (sp 5))) (sp 3, ransEncode [entryOf laplace32 2]) = true := by decide +kernel
theorem witness_Operation_lzPack : launches rowLzPack lzPackWork
    (opOf rowLzPack 0 (rg (deep 0) 16 ++ rg (deep 1) 4096) (1 + 2 ^ 32 * (deep 2) + 2 ^ 96 * deep 4096)) = true := by decide +kernel
theorem witness_Operation_lzUnpack : launches rowLzUnpack lzUnpackWork
    (opOf rowLzUnpack 0 (rg (deep 0) 48 ++ rg (deep 1) 4096) (1 + 2 ^ 32 * (deep 2) + 2 ^ 96 * deep 4096)) (deep 0, (lzPack abc 1 1000 0 0).out) = true := by decide +kernel
theorem witness_Operation_msearch : launches rowMsearch msearchWork
    (opOf rowMsearch 0 (tn (sp 0) 3 16 16 2 0 ++ tn (sp 12) 3 16 16 2 0 ++ rg (deep 0) 4096) (2 ^ 64 + 2 ^ 96 * 16)) = true := by decide +kernel
theorem witness_Operation_warp : launches rowWarp warpWork
    (opOf rowWarp 0 (tn (sp 0) 1 1 1 1 1 ++ rg (deep 0) 8 ++ tn (sp 2) 1 1 1 9 1) (8 + 2 ^ 16 * 8)) = true := by decide +kernel
theorem witness_Operation_load : launches rowLoad loadWork
    (opOf rowLoad 0 (tn (deep 0) 1 1 1 1 1 ++ tn (sp 2) 1 1 1 1 1) 0) = true := by decide +kernel
theorem witness_Operation_store : launches rowStore storeWork
    (opOf rowStore 0 (tn (sp 0) 1 1 1 1 1 ++ tn (deep 2) 1 1 1 1 1) 0) = true := by decide +kernel
theorem witness_Operation_prefetch : launches rowPrefetch prefetchWork
    (opOf rowPrefetch 0 (tn (deep 0) 1 1 1 1 1) (sp 2)) = true := by decide +kernel
theorem witness_Operation_atomicAdd : launches rowAtomicAdd atomicAddWork
    (opOf rowAtomicAdd 0 (tn (sp 0) 1 1 1 9 1 ++ tn (deep 2) 1 1 1 9 1) 0) = true := by decide +kernel

/-- Every premise of OperationLaunches together, and of its clauses for ENC and DEC. -/
theorem witness_OperationLaunches : (∃ (x : Op) (w : Work),
      MayRun (opState (opOf rowCopy 0 (tn (sp 0) 1 1 1 1 1 ++ tn (sp 2) 1 1 1 1 1) 0)) th0 rowCopy copyWork thread0 list0 x w) ∧
    (∀ o e, (opState o e).noneWaits) ∧ (∀ o e, (opState o e).lanesStand 0 0) ∧ thread0.early = [] ∧ thread0.skip = 0 ∧
    (∀ o e, (opState o e).hasRoom 0 .lane 0 = true) ∧ (∀ o e, (opState o e).tagsOpen th0 list0.here = false) ∧
    ((live.die 0).gated.contains thread0.cls) = false ∧ threadPresent live th0 = true := by
  refine ⟨?_, ?_, ?_, rfl, rfl, fun _ _ => rfl, fun _ _ => rfl, by decide +kernel, by decide +kernel⟩
  · obtain ⟨x, w, h, _⟩ := mayRun_of (s := opState (opOf rowCopy 0 (tn (sp 0) 1 1 1 1 1 ++ tn (sp 2) 1 1 1 1 1) 0)) (r := rowCopy)
      (f := copyWork) (by decide +kernel)
    exact ⟨x, w, h⟩
  · intro o e t ht g
    rw [List.mem_singleton.mp ht]
    simp [thread0]
  · intro o e
    refine ⟨fun t ht _ q hq => ?_, fun t ht _ q hq => ?_⟩ <;>
      · rw [List.mem_singleton.mp ht] at hq
        cases hq

/-- A region whose lanes have no room: other threads' operations run on all four. -/
theorem witness_OperationLaunches_full : let o : Outst := { engine := .lane, opIndex := 0, opcode := 0x28, reads := [], writes := [], taken := some 0, bank := some 0 }
    (({ live with threads := thread0 :: (List.range 4).map fun k => { thread0 with id := ⟨0, k + 1, 0⟩, out := [{ o with lane := k }] } } : State).hasRoom 0 .lane 0) = false := by decide +kernel
/-- What a decision is: 0 idle, 1 stop, 2 fenced, 3 blocked, 4 go. -/
def issueKind : Issue → Nat
  | .idle => 0
  | .stop _ _ => 1
  | .fenced _ _ => 2
  | .blocked _ _ => 3
  | .go _ _ _ _ => 4

def copyOp : List Byte := opOf rowCopy 0 (tn (sp 0) 1 1 1 1 1 ++ tn (sp 2) 1 1 1 1 1) 0
/-- An operation of thread 0 on the vector lanes, its chunk taken at GTS 0. -/
def out0 : Outst := { engine := .vector, opIndex := 0, opcode := 0x0F, reads := [⟨sp 0, 2⟩], writes := [⟨sp 2, 2⟩], taken := some 0, descr := 7 }
/-- The state of a copy whose thread stands so. -/
def copyState (f : Thread → Thread) : State := { opState copyOp with threads := [f thread0] }

theorem witness_OperationRefusedOrWaits : threadPresent live ⟨7, 255, 16⟩ = false ∧ threadPresent live ⟨7, 255, 15⟩ = true ∧
    thread0.skip = 0 ∧ thread0.early = [] ∧
    issueKind ((opState (opOf rowCopy 0 (tn (sp 0) 1 1 1 1 1 ++ tn (sp 2) 2 1 1 1 1) 0)).decideOp th0 rowCopy copyWork) = 1 ∧
    issueKind ((copyState fun t => { t with out := [out0] }).decideOp th0 rowCopy copyWork) = 3 ∧
    issueKind ((copyState fun t => { t with out := List.replicate 4 { out0 with reads := [], writes := [] } }).decideOp th0 rowCopy copyWork) = 3 ∧
    issueKind ((copyState fun t => { t with state := .blocked }).decideOp th0 rowCopy copyWork) = 0 ∧
    issueKind ((opState copyOp).decideOp th0 rowSfu sfuWork) = 0 ∧
    issueKind ((opState copyOp).decideOp th0 rowCopy copyWork) = 4 := by decide +kernel

/-- Control operations are decided to run. -/
def signalOp : List Byte := opOf rowSignal 0 [] (deep 0 + 2 ^ 64 * 5)
def waitOp (target us : Nat) : List Byte := opOf rowWait 0 [] (deep 0 + 2 ^ 64 * target + 2 ^ 128 * us)
def ckptOp : List Byte := opOf rowCheckpoint 0 [] (1 + 2 ^ 64 * (sp 0) + 2 ^ 128 * 64)
def barrierOp (counter n : Nat) : List Byte := opOf rowBarrier 0 [] (counter + 2 ^ 16 * n)

theorem witness_ControlOperations : issueKind ((opState (opOf rowFence 0 [] 5)).decideOp th0 rowFence fenceWork) = 4 ∧
    issueKind ((opState signalOp).decideOp th0 rowSignal signalWork) = 4 ∧ issueKind ((opState (waitOp 5 10)).decideOp th0 rowWait waitWork) = 4 ∧
    issueKind ((opState ckptOp).decideOp th0 rowCheckpoint checkpointWork) = 4 ∧
    issueKind (({ opState signalOp with threads := [{ thread0 with out := [{ out0 with writes := [] }] }] } : State).decideOp th0 rowSignal signalWork) = 4 ∧
    issueKind (({ opState (opOf rowFence 0 [] 0) with threads := [{ thread0 with out := [out0] }] } : State).decideOp th0 rowFence fenceWork) = 4 ∧
    reached 5 5 = true ∧ reached 4 5 = false ∧ reached (2 ^ 63 + 4) 5 = true ∧ reached (2 ^ 63 + 5) 5 = false ∧
    (({ opState signalOp with threads := [{ thread0 with skip := 1 }] } : State).dueOp th0 rowSignal).isSome = true ∧
    Memory.wf (opState signalOp).mem = true := by decide +kernel

/-- Thread 1 waits at counter 0 of cluster 0 for a second arrival. -/
def arrived : State := { opState (barrierOp 0 2) with
  threads := [thread0, { thread0 with id := ⟨0, 1, 0⟩, state := .blocked, waiting := some (.barrier 0, 0), cur := none }]
  barriers := [{ die := 0, counter := 0, owner := 1, participants := some 2, arrived := [⟨0, 1, 0⟩] }] }

/-- Counter 15 of cluster 0 is allocated to stream 1 and counts nothing. -/
def counted (o : List Byte) : State := { opState o with barriers := [{ die := 0, counter := 15, owner := 1, participants := none, arrived := [] }] }

theorem witness_Barrier : issueKind ((counted (barrierOp 15 128)).decideOp th0 rowBarrier barrierWork) = 4 ∧
    issueKind (arrived.decideOp th0 rowBarrier barrierWork) = 4 ∧ (arrived.barrierAt 0 0).isSome = true ∧ ([] : List ThreadId).length + 1 ≠ 128 ∧
    ([⟨0, 1, 0⟩] : List ThreadId).length + 1 = 2 ∧
    ([barrierOp 16 2, barrierOp 0 2, barrierOp 0 0, barrierOp 0 129].all fun o => issueKind ((opState o).decideOp th0 rowBarrier barrierWork) == 1) = true ∧
    issueKind (({ arrived with mem := (opState (barrierOp 0 3)).mem } : State).decideOp th0 rowBarrier barrierWork) = 1 := by decide +kernel

/-- Thread 0 waits on the word at deep 0 for 5, 10 microseconds from GTS 0. -/
def waiting (w : WaitOn) : State := copyState fun t => { t with state := .blocked, waiting := some (w, 0) }

theorem witness_WaitsEnd : ((waiting (.word (deep 0) 5 10)).waiter th0).isSome = true ∧ reached ((waiting (.word (deep 0) 5 10)).numAt (deep 0) 8) 5 = false ∧
    reached ((waiting (.word (deep 0) 0 10)).numAt (deep 0) 8) 0 = true ∧ 0 < 10 ∧ 0 + 10 * 1000 ≤ (waiting (.word (deep 0) 5 10)).gts ∧
    ({ waiting (.word (deep 0) 5 10) with gts := 9999 } : State).gts < 0 + 10 * 1000 ∧ (live.waiter th0) = none ∧ threadPresent live th0 = true ∧
    (waiting .pool).phase = .running ∧ 0 + (waiting .pool).opLimit ≤ (waiting .pool).gts ∧
    ({ waiting (.barrier 0) with gts := 99999999 } : State).gts < 0 + (waiting .pool).opLimit ∧ thread0.state ≠ .blocked := by decide +kernel

def prefetchOp : List Byte := opOf rowPrefetch 0 (tn (deep 0) 1 1 1 1 1) (sp 2)
def fetched (st : Option Stop) : State := { opState prefetchOp with threads := [{ thread0 with early := [(listAt, 0, st)] }] }

theorem witness_Prefetch : ((fetched none).dueOp th0 rowPrefetch).isSome = true ∧
    ({ thread0 with early := [(listAt, 0, none)] } : Thread).early.find? (fun e => e.1 == listAt && e.2.1 == 0) = some (listAt, 0, none) ∧
    ((fetched (some { status := .badAddress })).dueOp th0 rowPrefetch).isSome = true := by decide +kernel

/-- A list of one FENCE at an address, and a thread with none. -/
def fenceList : List Byte := [0, 1, 1, 0] ++ leBytes 4 80 ++ leBytes 4 1 ++ zeros 20 ++ opOf rowFence 0 [] 0
def idle : State := { opState copyOp with
  threads := [{ thread0 with cur := none, state := .idle }], mem := Memory.writeBytes (opState copyOp).mem 0x4000 fenceList }

/-- The same context held by a job. -/
def idleJob : State := { idle with threads := [{ thread0 with cur := none, state := .idle, isJob := true }] }
def idleThread : Thread := { thread0 with cur := none, state := .idle, isJob := true }

theorem witness_Lists : threadPresent idle th0 = true ∧ idle.unitTakes 0 0 = true ∧ idle.thread th0 = some { thread0 with cur := none, state := .idle } ∧
    idle.phase = .running ∧ (idle.stream 1 = none) ∧ idleJob.thread th0 = some idleThread ∧ idleJob.listShut th0 0x4000 = false ∧
    (let f := idleJob.pruneStores.fetch th0 0x4000
     (f.frameList idleThread 0x4000).toOption.isSome && (f.descrs th0 0x4000).all (fun d => f.opCodeAt th0 0x4000 (0x4000 + d.2) != 0x3A) &&
       (rowOf (f.opCodeAt th0 0x4000 (0x4000 + 32))).isSome) = true ∧
    ((idleJob.pruneStores.fetch th0 0x4010).frameList idleThread 0x4010).toOption.isSome = false ∧
    4 ≤ ({ thread0 with queue := [1, 2, 3] } : Thread).lists.length ∧ thread0.lists.length < 4 ∧ thread0.state ≠ .stopped ∧
    list0.opIndex < list0.opCount ∧ (rowOf ((opState copyOp).opCode th0 list0)).isSome = true ∧ threadPresent idle ⟨0, 256, 0⟩ = false := by decide +kernel

def running : State := copyState fun t => { t with out := [out0] }
def ended : State := copyState fun t => { t with out := [{ out0 with done := true, taken := none }] }
def hold0 : Hold := { owner := 1, cls := 1, picture := 0, tile := 0, stage := 0, granules := 1 }
/-- The pools with a request waiting. -/
def hungry : State := live.onDie 0 fun d => { d with poolLp := { d.poolLp with waiting := [hold0] }, poolDs := { d.poolDs with waiting := [hold0] } }

theorem witness_Engines : placePresent .vector 0 = true ∧ running.oldestChunk 0 .vector 0 = some (th0, 0) ∧ running.thread th0 = some { thread0 with out := [out0] } ∧
    [out0].find? (fun q => q.engine == .vector && !q.done && q.taken.isSome) = some out0 ∧ running.tagsOpen th0 7 = false ∧
    ended.thread th0 = some { thread0 with out := [{ out0 with done := true, taken := none }] } ∧ ended.phase = .running ∧
    list0.opIndex < list0.opCount ∧ (rowOf (ended.opCode th0 list0)).isSome = true ∧ out0.ran = true ∧
    (hungry.die 0).poolLp.waiting ≠ [] ∧ (hungry.die 0).poolDs.waiting ≠ [] ∧ (hungry.die 0).poolLp.stalled = false ∧
    (hungry.die 0).poolLp.releasedAt + 10000000 ≤ hungry.gts ∧ ({ hungry with gts := 9999999 } : State).gts < (hungry.die 0).poolLp.releasedAt + 10000000 ∧
    (live.die 0).poolLp.waiting = [] := by decide +kernel

/-- Die 0 serves the quiesce of region 0 where thread 0 stands at a chunk boundary of class 1. -/
def leaving : State := ({ copyState fun t => { t with cls := 1 } with
    mem := Memory.writeBytes (opState copyOp).mem (listAt + 4) (leBytes 4 512) } : State).onDie 0 fun d => { d with service := some ⟨⟨0, 0⟩, 0, 0, [], [], [], false, false⟩ }

theorem witness_TileReturns : (leaving.die 0).service = some ⟨⟨0, 0⟩, 0, 0, [], [], [], false, false⟩ ∧ leaving.firmwareRuns = true ∧
    0 + 40000000 ≤ leaving.gts ∧ ({ leaving with gts := 39999999 } : State).gts < 0 + 40000000 ∧ leaving.islandRecovering 0 ⟨0, 0⟩ = false ∧
    leaving.mayReturn 0 0 (th0, ⟨1, 0, 0⟩) = true ∧ leaving.thread th0 = some { thread0 with cls := 1 } ∧
    ({ thread0 with cls := 1 } : Thread).rewind leaving.gts = { thread0 with cls := 1, readyAt := leaving.gts, cur := some list0 } ∧
    list0.opIndex < list0.opCount ∧ leaving.listShut ⟨1, 0, 0⟩ listAt = false ∧ leaving.istore = [] ∧
    list0.here < listAt + leaving.numAt (listAt + 4) 4 ∧ listAt ≤ list0.here ∧ (rowOf (leaving.byteAt list0.here).toNat).isSome = true := by decide +kernel

/-! ### Hypotheses that are met: recovery -/

def recovering (x : Domain) (step : Nat) : State := { live with recoveries := [rec0 x step] }

theorem witness_RecoveryTriggers : live.phase = .running ∧ live.diesOk ∧ live.recoveries = [] ∧ live.activation = none ∧ live.hulT7.toNat % 4 = 1 ∧
    live.t7At + live.hulT7.toNat / 256 * 1000000 ≤ live.gts ∧ locate 8 (scratchBase 7 255 + 0x7FFFF) = .scratch 7 255 0x7FFFF ∧
    locate 8 (podBase 7 31 + 0x3FFFFF) = .pod 7 31 0x3FFFFF ∧ locate 8 (deepBase 7 + 0xBFFFFFFF) = .deepSram 7 0xBFFFFFFF ∧
    locate 8 0x1EFFFFFFFFF = .lpddr 7 0x2FFFFFFFFF ∧
    live.regionRecovering 0 0 = false ∧ live.dieRecovering 7 = false ∧ (live.die 7).retired.length < 786432 := by decide +kernel

theorem witness_RecoveryTriggers_hung : running.stuck 0 0 = true ∧ running.regionRecovering 0 0 = false ∧ placePresent .vector (limitPlace .vector 0) = true ∧
    running.oldestChunk 0 .vector (limitPlace .vector 0) = some (th0, 0) ∧ fabricCode out0.opcode = false ∧ 0 + running.opLimit ≤ running.gts ∧
    Accepted live (dg 0x0090 [0, 0, 7, 0]) 0x0090 true none none peer ∧ beAt ([0, 0, 7, 0] : List Byte) 2 1 < 8 ∧
    Accepted live (dg 0x0090 [0, 2, 0, 0]) 0x0090 true none none peer :=
  ⟨by decide +kernel, by decide +kernel, by decide, by decide +kernel, by decide, by decide +kernel, acc, by decide, acc⟩

theorem witness_BridgeErrors : live.phase = .running ∧ live.diesOk ∧ live.part.bridgeTo 0 1 = some 1 ∧ live.part.bridgeTo 0 0 = none ∧
    (live.die 0).d2d.length = 4 ∧ (live.die 0).cnt.length = 14 ∧ (live.die 0).replays.length = 4 ∧ ((live.die 0).d2d.getD 1 {}).up = true ∧
    (live.die 0).replays.getD 1 0 + 1 < 16 ∧ 16 ≤ ((live.onDie 0 fun d => { d with replays := [0, 15, 0, 0] }).die 0).replays.getD 1 0 + 1 ∧
    live.recoveries = [] ∧ ({ live with part := .zlk202 } : State).dieCount ≤ 2 := by decide +kernel

theorem witness_RecoverySteps : ([Domain.region 7 7, .die 7, .package].all fun x => [0, 1, 2, 3, 4].all fun k =>
      (recovering x k).recoveryAt x k == some (rec0 x k) && (recovering x k).domainPresent x) = true ∧ live.diesOk ∧ live.memOk ∧
    (rec0 (.die 0) 4).compat = false ∧ (rec0 (.die 0) 4).fromStaged = false ∧ live.recoveryAt .package 0 = none ∧
    ({ live with part := .zlk202 } : State).domainPresent (.die 2) = false := by decide +kernel

theorem witness_RecoveryEnds : (let x := Domain.region 0 0; let r := { rec0 x 5 with round := 15 }
      ({ live with recoveries := [r] } : State).recoveryAt x 5 = some r ∧ r.running = [] ∧ r.suspects = [] ∧ (rec0 x 5).round < 15) ∧
    ([Domain.region 0 0, .die 0].all fun x => [0, 1, 2, 3, 4].all fun k => (recovering x k).recoveries.find? (·.dom == x) == some (rec0 x k) &&
      (rec0 x k).stepAt + stepMax x k * 1000000 < live.gts && (largerDomain x).isSome) = true ∧
    (recovering .package 4).recoveries.find? (·.dom == .package) = some (rec0 .package 4) ∧
    (rec0 .package 4).stepAt + stepMax .package 4 * 1000000 < live.gts := by decide +kernel


theorem witness_CodesConvertToThemselves : (decodeFloat .fp16 0x7BFF).nonfinite = false ∧ 0x7BFF < 2 ^ Fmt.width .fp16 ∧ (decodeLns .lns8 0x3F).isZero = false ∧
    Fmt.qmin .int4 ≤ -8 ∧ (7 : Int) ≤ Fmt.qmax .int4 ∧ (signed 64 (2 ^ 64 - (2 ^ 47 - 1))).natAbs ≤ gridLimit ∧ (place 0 (.num (2 ^ 47) 1 0 false)).sat = true ∧
    (place 1 (.num 1 4 0 false)).sat = false := by decide +kernel

theorem witness_Hazards : (∃ (x : Op) (w : Work),
    MayRun (opState (opOf rowCopy 0 (tn (sp 0) 1 1 1 1 1 ++ tn (sp 2) 1 1 1 1 1) 0)) th0 rowCopy copyWork thread0 list0 x w) :=
  witness_OperationLaunches.1
/-! ### Hypotheses that are met: ports and partners -/

/-- A queue pair that last sent and received a CNP at a GTS. -/
def cnp0 (t : Nat) : QueuePair := { qp0 with cnpSentAt := some t, cnpAt := some t, rateAt := t }
def paired (q : QueuePair) : State := { live with qps := [q] }

theorem witness_Congestion : (paired qp0).qp 3 = some qp0 ∧ qp0.connected = true ∧ (paired qp0).portAlive 0 = true ∧ live.diesOk ∧ 0 < live.dieCount ∧
    elapsed none 50000 live.gts = true ∧ elapsed (cnp0 (live.gts - 50000)).cnpAt 50000 live.gts = true ∧
    elapsed (cnp0 (live.gts - 49999)).cnpSentAt 50000 live.gts = false ∧ (paired qp0).rateFloor qp0 ≤ qp0.rate ∧
    (cnp0 (live.gts - 55000)).rateAt + 55000 ≤ live.gts ∧ live.gts < (cnp0 (live.gts - 54999)).rateAt + 55000 ∧ (live.die 0).cnt.length = 14 := by
  decide +kernel

def stage3 : Staging := { id := 1, kind := 0, session := 1, length := 65536, base := 0x10000, rkey := 9, qpn := 3 }
def staged : State := { live with qps := [qp0], staging := [stage3] }

theorem witness_Staging : staged.qp 3 = some qp0 ∧ staged.portAlive 0 = true ∧ staged.memOk ∧
    staged.staging.find? (fun (g : Staging) => g.qpn == 3) = some stage3 ∧ stage3.base ≤ 0x1FFFF ∧ 0x1FFFF + 1 ≤ stage3.base + stage3.length ∧
    9 = stage3.rkey ∧ 8 ≠ stage3.rkey ∧ 0xFFFF < stage3.base ∧ stage3.base + stage3.length < 0x1FFFF + 2 ∧
    (paired qp0).staging.find? (fun (g : Staging) => g.qpn == 3) = none ∧ staged.dieRecovering 0 = false ∧
    ({ staged with recoveries := [rec0 (.die 0) 0] } : State).dieRecovering 0 = true := by decide +kernel

theorem witness_ConnectionRequest_payload (sid : BitVec 64) : (sid.toNat = sid.toNat ∧ (4096 : Nat) = 4096) ∧ ¬ (sid.toNat = sid.toNat ∧ (1024 : Nat) = 4096) := by
  simp
theorem witness_ConnectionRequest : let q := { qp0 with connected := false }
    (paired q).qp 3 = some q ∧ q.connected = false ∧ q.alt = none :=
  ⟨by decide +kernel, rfl, rfl⟩

/-- Port 0 with an IPv4 address. -/
def addressed : State := live.onDie 0 fun d => { d with eth := { d.eth with current := { flags := 3, ipv4 := 0x0A000001, ipv6a := 77 } } }

theorem witness_Frames : addressed.portAlive 0 = true ∧ addressed.diesOk ∧ addressed.ipv4Of 0 = some 0x0A000001 ∧ addressed.ipv4Of 0 ≠ some 1 ∧
    77 ∈ (addressed.ipv6Of 0).tail ∧ (addressed.die 0).eth.paused[7]? = some false ∧ 13 < (addressed.die 0).cnt.length ∧
    ({ live with part := .zlk202 } : State).dieCount ≤ 2 := by decide +kernel

def sync0 : SyncRec := { domain := 0, seqId := 9, arrival := 5, origin := some ⟨1, 2⟩ }
/-- A Delay_Req that departed at a GTS is open. -/
def asked (t : Nat) : State := live.onDie 0 fun d => { d with eth := { d.eth with lastSync := some sync0, delayReq := some ⟨4, t, some sync0⟩ } }

theorem witness_Ptp : (asked (live.gts - 10 ^ 9)).portAlive 0 = true ∧ ((asked 0).die 0).eth.lastSync = some sync0 ∧ 1 ≠ ((asked 0).die 0).eth.ptpDomain ∧
    ((asked 0).die 0).eth.delayAt + ((asked 0).die 0).eth.delayInterval ≤ live.gts ∧
    ((asked (live.gts - 10 ^ 9)).die 0).eth.delayReq = some ⟨4, live.gts - 10 ^ 9, some sync0⟩ ∧ live.gts ≤ (live.gts - 10 ^ 9) + 10 ^ 9 ∧
    (live.gts - 10 ^ 9 - 1) + 10 ^ 9 < live.gts ∧ ((asked 0).die 0).eth.ring.length = 16 ∧
    ({ asked 0 with gts := 0 } : State).gts < 0 + ((asked 0).die 0).eth.delayInterval := by decide +kernel

def stream0 : Stream := { number := 1, owner := [7], slot := 1, digest := zeros 32, cls := 1, dir := .encode, latent := false, media := 0, params := {}, qpn := 3 }

theorem witness_EthernetPorts : (live.die 0).eth.up = true ∧ (live.die 7).eth.up = false ∧ live.portQuiesced 7 = false ∧
    (live.die 0).events.length < 4096 ∧ (live.die 0).discarded = 0 ∧ live.packageRecovering = false ∧
    (({ live with streams := [{ stream0 with params := { network := 1 } }] } : State).networkDead 1 = true) ∧
    ((live.onDie 0 fun d => { d with eth := d.eth.save }).die 0).eth.saveBusy = true ∧
    ((live.onDie 0 fun d => { d with eth := d.eth.save }).die 0).eth.saveAgain = false := by decide +kernel

def flit0 (n : Nat) : TxFlit := { number := n, vc := 0, packet := packet0, type := 1, eop := true }
/-- Port 0 linked, with two flits kept and a RETRY_REQ open. -/
def kept (k : Nat) : State := linked.onDie 0 fun d => { d with plk := { d.plk with txBuf := [flit0 0, flit0 1], retryOpen := some (0, live.gts - 2000), retrySeen := some (0, k) } }

theorem crc24_zeros (k : Nat) : crc24 (zeros k) = 0 := by
  unfold crc24 zeros
  induction k with
  | zero => rfl
  | succ k ih => 
    have h0 : crc24Bits 8 (0 ^^^ ((0 : Byte).toNat * 65536)) = 0 := by decide +kernel
    rw [List.replicate_succ, List.foldl_cons, h0, ih]

theorem witness_Flits : (zeros 256).length = 256 ∧ crc24 (zeros 253) = leAt (zeros 256) 253 3 ∧ bits (leAt (zeros 256) 0 3) 22 2 ≠ 3 ∧
    crc24 (zeros 253) ≠ leAt (zeros 253 ++ [1, 2, 3]) 253 3 := by
  exact ⟨List.length_replicate, (crc24_zeros 253).trans (by decide +kernel), by decide +kernel,
    fun h => absurd ((crc24_zeros 253).symm.trans h) (by decide +kernel)⟩
theorem witness_Flits_link : ((kept 7).die 0).plk.up = true ∧ (kept 7).phase = .running ∧ (kept 7).diesOk ∧ (7 : Nat) ≤ 7 ∧ (6 : Nat) < 7 ∧
    ((kept 7).die 0).plk.retryOpen = some (0, live.gts - 2000) ∧ (live.gts - 2000) + 2000 ≤ (kept 7).gts ∧
    ({ kept 7 with gts := live.gts - 1 } : State).gts < (live.gts - 2000) + 2000 ∧ ((kept 7).die 0).plk.txWait = [] ∧
    ((kept 7).die 0).plk.credits.length = 4 ∧ ((kept 7).die 0).plk.txBuf = [flit0 0] ++ flit0 1 :: [] ∧ (flit0 1).number = 1 ∧
    ((kept 7).die 0).plk.spareInUse = false ∧ ((kept 7).die 0).plk.txBuf.length ≤ 1024 ∧
    flitsOf 0 < 64 ∧ 1 ≤ flitsOf 0 := by decide +kernel

def tag0 (w : Bool) : LinkTag := { tag := 5, thread := th0, descr := 7, dest := 0, length := 64, isWrite := w, issuedAt := 0, sent := true }
/-- Port 0 linked to partner 0; thread 0's copy waits for an access. -/
def partnered (w up : Bool) : State := { (copyState fun t => { t with out := [out0] }).onDie 0 fun d => { d with
  plk := { d.plk with up := up, lanes := 8, identOk := true, tags := [tag0 w] } } with routing := [(0, 0, 1)] }

theorem witness_Partners : ((partnered false true).die 0).plk.up = true ∧ ((partnered false true).die 0).plk.discarding = false ∧
    (partnered false true).memOk ∧ (partnered false true).partnerRefusal { packet0 with length := 4096 } = none ∧
    (partnered false true).partnerRefusal { packet0 with addr := 0x3000000000 } = some .badAddress ∧
    locate 8 0x3000000000 = .none_ ∧ ((partnered false true).routing.any fun r => r.2.1 == 0) = true ∧ (live.routing.any fun r => r.2.1 == 0) = false ∧
    ({ partnered false true with recoveries := [rec0 (.die 0) 0] } : State).dieRecovering 0 = true ∧
    ((partnered false true).die 0).plk.openTag 5 = some (tag0 false) ∧ ((partnered true true).die 0).plk.openTag 5 = some (tag0 true) ∧
    (partnered false true).thread th0 = some { thread0 with out := [out0] } ∧
    [out0].find? (fun (q : Outst) => q.descr == 7) = some out0 ∧ out0.early = false ∧
    (((partnered true true).onPlk 0 fun l => l.took 0 0).answerTag 0 5 []).tagsOpen th0 7 = false ∧
    (((partnered false true).onDie 0 fun d => { d with plk := { d.plk with tags := [tag0 false, { tag0 false with tag := 6 }] } }).answerTag 0 5 []).tagsOpen th0 7 = true ∧
    ((partnered false false).die 0).plk.up = false ∧ (tag0 false).issuedAt + 10000000 ≤ (partnered false false).gts ∧
    ({ partnered false false with gts := 9999999 } : State).gts < (tag0 false).issuedAt + 10000000 := by decide +kernel

def table1 : List Byte := [1, 0, 0, 0] ++ [0, 0, 0, 0] ++ zeros 31 ++ [1]
def req1 : Req := ⟨1, 1⟩
/-- PARTNER_CONFIG is pending and port 0 trains. -/
def training (ident up : Bool) (fails : Nat) : State := { live.onDie 0 fun d => { d with
  plk := { d.plk with up := up, training := true, identOk := ident, configured := some 1, retrainFails := fails } } with
  partnerPending := some { req := req1, table := [(0, 0, 1)], results := [] } }

theorem witness_Links : Accepted live (dg 0x00A0 table1) 0x00A0 true none none peer ∧ partnerFault live table1 = none ∧
    Accepted live (dg 0x00A0 (zeros 4)) 0x00A0 true none none peer ∧ partnerFault live (zeros 4) = none ∧ beAt (zeros 4) 0 1 = 0 ∧
    live.partnerPending = none ∧ live.twin.pendingReq = none ∧ live.twin.on = false ∧ partnerTable table1 = [(0, 0, 1)] ∧ (live.die 0).plk.up = false ∧
    ((training false false 0).die 0).plk.training = true ∧ ((training false false 0).die 0).plk.identOk = false ∧
    ((training false false 0).die 0).plk.configured = some 1 ∧
    (training false false 0).partnerPending = some { req := req1, table := [(0, 0, 1)], results := [] } ∧
    ((training true false 0).die 0).plk.identOk = true ∧ ((training true true 2).die 0).plk.up = true ∧ 2 ≤ ((training true true 2).die 0).plk.retrainFails ∧
    ((training true true 1).die 0).plk.retrainFails < 2 :=
  ⟨acc, by decide +kernel, acc, by decide +kernel⟩

def twinParams (on role : Byte) : List Byte := [on, role, 0, 0] ++ zeros 31 ++ [1]
/-- TWIN_CONFIG is pending since a GTS, both links up. -/
def twinning : State := { (linked.onDie 1 fun d => { d with plk := { d.plk with up := true, lanes := 8, identOk := true } }) with
  twin := { role := 1, peer := 1, pendingReq := some req1, since := 10000000000 } }

theorem witness_TwinMode : Accepted live (dg 0x00A1 (twinParams 1 1)) 0x00A1 true none none peer ∧
    Accepted live (dg 0x00A1 (twinParams 0 0)) 0x00A1 true none none peer ∧ live.part = .zlk208 ∧ (twinParams 1 1).length = 36 ∧
    beAt (twinParams 1 1) 1 1 ≤ 1 ∧ beAt (twinParams 1 1) 2 2 = 0 ∧ live.partnerPending = none ∧ live.twin.pendingReq = none ∧ live.twin.on = false ∧
    (live.die 0).plk.up = false ∧ (live.die 1).plk.up = false ∧ live.archiveOpen = false ∧
    ({ live with streams := [{ stream0 with params := { archive := 1 } }] } : State).archiveOpen = true ∧
    twinning.twin.pendingReq = some req1 ∧ twinning.twin.roleOk = false ∧ (twinning.die 0).plk.up = true ∧ (twinning.die 1).plk.up = true ∧
    (twinning.die 1).plk.discarding = false ∧ 0 ≠ twinning.twin.role ∧ twinning.twin.since + 10 * 10 ^ 9 ≤ twinning.gts ∧
    ({ twinning with gts := 19999999999 } : State).gts < twinning.twin.since + 10 * 10 ^ 9 :=
  ⟨acc, acc, by decide +kernel⟩

/-- An archive stream of pair 255 with picture 4 held, of a part in twin mode. -/
def archived (peerCfg : Option (List Byte)) (at_ : Nat) : Stream :=
  { stream0 with params := { archive := 255 }, twin := { ownConfig := some [1], peerConfig := peerCfg, own := [(4, [2], at_)], held := [(4, [[3]])] } }
def twinned (role : Nat) (peerCfg : Option (List Byte)) (at_ : Nat) : State :=
  { (linked.onDie 0 fun d => { d with plk := { d.plk with twin := true } }) with
    twin := { on := true, role := role }
    streams := [archived peerCfg at_] }

theorem witness_TwinDigests : ((twinned 0 (some [1]) 0).die 0).plk.twin = true ∧ ((twinned 0 (some [1]) 0).die 0).plk.up = true ∧
    ((twinned 0 (some [1]) 0).die 0).plk.discarding = false ∧ (twinned 0 (some [1]) 0).packageRecovering = false ∧
    (twinned 0 (some [1]) 0).streams.find? (fun (y : Stream) => y.params.archive == 255 && y.state != .stopped) = some (archived (some [1]) 0) ∧
    (twinned 0 (some [1]) 0).stream 1 = some (archived (some [1]) 0) ∧ (archived (some [1]) 0).closing = [] ∧
    (archived (some [1]) 0).twin.ownConfig = (archived (some [1]) 0).twin.peerConfig ∧ (archived (some [1]) 0).twin.own = [(4, [2], 0)] ∧
    (archived (some [1]) 0).twin.peer = [] ∧ (archived (some [1]) 0).twin.held = [(4, [[3]])] ∧ ([5] : List Byte) ≠ [2] ∧
    (twinned 1 (some [1]) 0).twin.role ≠ 0 ∧ (archived none 0).twin.peerConfig = none ∧ ([9] : List Byte) ≠ [1] ∧
    (({ twinned 0 none 0 with gts := 30000000000 } : State).gts ≥ 0 + 30 * 10 ^ 9) ∧ (twinned 0 none 0).gts < 0 + 30 * 10 ^ 9 := by decide +kernel

/-! ### Hypotheses that are met: time, power, boot -/

def stamps (t : Nat) : AlignStamps := ⟨100, 50 + t, 60 + t, 120⟩
/-- ALIGN runs with so many exchanges made. -/
def aligning (n : Nat) : State := { linked with routing := [(0, 0, 1)], align := { req := some req1, port := 0, exchanges := List.replicate n (stamps 0) } }

theorem witness_Time : Accepted live (dg 0x00B0 (zeros 4)) 0x00B0 false none none peer ∧ Accepted live (dg 0x00B0 [1, 0, 0, 0]) 0x00B0 true none none peer ∧
    live.reference = none ∧ ({ linked with routing := [(0, 0, 1)] } : State).reference = some (0, 0) ∧ (linked.die 0).plk.up = true ∧ linked.align.req = none ∧
    (aligning 14).align.req = some req1 ∧ (aligning 14).align.exchanges.length < 15 ∧ (aligning 15).align.exchanges.length = 15 ∧
    (alignOffset (stamps 0) < 0 ∨ 0 ≤ alignOffset (stamps 0)) ∧ alignOffset (stamps 0) ≠ alignOffset (stamps 1000) ∧
    (let s : State := { linked with align := { aligned := true, trackAt := live.gts - 1000000 } };
      s.align.trackAt + 1000000 ≤ s.gts ∧ ({ s with gts := live.gts - 1 } : State).gts < s.align.trackAt + 1000000) ∧
    live.phase ≠ .inReset ∧ live.phase ≠ .tripped ∧ State.reset.phase = .inReset ∧
    ({ live with hulEvtOut := 2 } : State).hulEvtOut.toNat % 4 = 2 ∧ live.gts % 10 ^ 9 = 0 :=
  ⟨acc, acc, by decide +kernel⟩

/-- Die 0 over its limit, a region waiting to rise. -/
def loaded (f : Die → Die) : State := live.onDie 0 f

theorem witness_Power : live.phase = .running ∧ live.diesOk ∧ ((live.die 0).regions[7]?).isSome = true ∧
    (live.die 0).pwrLimit.toNat < 1201 ∧ (({ step := 3, stepAt := live.gts - 10000 } : Region).mayStep live.gts) = true ∧
    (({ step := 3, stepAt := live.gts - 9999 } : Region).mayStep live.gts) = false ∧ hottest [0x10690#32, 0x10680] = some (0, 1680) ∧ (1680 : Int) ≤ 1680 ∧
    (let s := loaded fun d => { d with floorSince := some (live.gts - 1000000), gated := [3] };
      (s.die 0).gateAt ≤ live.gts - 1000000 ∧ (live.gts - 1000000) + 1000000 ≤ s.gts ∧ (s.die 0).gated = [3]) ∧
    live.gts < (live.gts - 999999) + 1000000 ∧
    (let s := loaded fun d => { d with lastOver := some (live.gts - 10000000), coolSince := some (live.gts - 10000000), gated := [1, 2, 3] };
      (s.die 0).floorSince = none ∧ (live.gts - 10000000) + 10000000 ≤ s.gts ∧ (s.die 0).gateAt + 10000000 ≤ s.gts) ∧
    (({ raiseWait := some 0 } : Region).mayRaise live.gts) = true ∧ 0 + 10000000 ≤ live.gts ∧ (1840 : Int) ≤ 1840 ∧ (1839 : Int) < 1840 := by decide +kernel

theorem witness_ResetAndBoot : (999 : Nat) < 1000 ∧ live.phase ≠ .tripped ∧ State.reset.resetN = false ∧
    ({ State.reset with phase := .tripped } : State).phase = .tripped ∧ 0 < State.reset.dies.length ∧ 7 < State.reset.dies.length := by decide +kernel

/-- The Germ ROM checks; every die but the last is checked. -/
def checking (d0 trained : Bool) : State :=
  { State.reset with
    phase := .checking
    flash := { State.reset.flash with hasSfdp := true }
    dies := (State.reset.dies.map fun d => { d with checked := d0, trained := trained }).set 7 Die.reset }

theorem witness_ImageCheck : (checking false false).diesOk ∧ ((checking false false).die 0).checked = false ∧ (checking false false).flash.hasSfdp = true ∧
    (checking false false).flash.broken = false ∧ (checking false false).imageCheck 0 [] = 2 ∧
    (∃ d < (checking false false).dieCount, d ≠ 0 ∧ ((checking false false).die d).checked = false) ∧
    ((checking true true).die 0).checked = true ∧ ((checking true true).die 7).checked = false ∧
    (∀ e < (checking true true).dieCount, e ≠ 7 → ((checking true true).die e).checked = true) ∧ ((checking true true).die 0).trained = true ∧
    ((checking true false).die 0).trained = false ∧ (live.die 0).trained = false ∧ live.phase ≠ .inReset ∧
    (let s : State := { live with phase := .netRecovery, rebootAt := some live.gts }; live.gts ≤ s.gts ∧
      ({ s with gts := live.gts - 1 } : State).gts < live.gts) := by decide +kernel

theorem witness_LifeLog : live.phase = .running ∧ live.packageRecovering = false ∧ live.lifeLog.seconds < 2 ^ 64 - 1 ∧
    live.lifeLog.temps[7]? = some (List.replicate 16 0) ∧ (List.replicate 16 0 : List Nat).length = 16 ∧ 0 < 2 ^ 32 - 1 ∧
    ({ live with gts := 21600000000000 } : State).gts ≥ live.lifAt + 21600000000000 ∧ live.gts < live.lifAt + 21600000000000 ∧ live.lifBusy = false ∧
    (let s : State := { live with lifBusy := true }; s.lifBusy = true ∧ s.counts = true ∧ s.lifAgain = false ∧ s.diesOk) ∧
    Accepted live (dg 0x0053 [0, 0, 0xFF, 0xFF, 0x0F, 0xF8, 0, 0]) 0x0053 false none none peer ∧
    (let p : List Byte := [0, 0, 0xFF, 0xFF, 0x0F, 0xF8, 0, 0]; beAt p 0 4 < 65536 ∧ 0 < beAt p 4 2 ∧ beAt p 4 2 ≤ 4088 ∧ beAt p 6 2 = 0) :=
  ⟨rfl, rfl, by decide +kernel, rfl, rfl, by decide, by decide +kernel, by decide +kernel, rfl, by decide +kernel, acc, by decide⟩


/-! ### Hypotheses that are met: profiles and firmware -/

/-- A staging area of a kind, of 64 bytes, with number 1. -/
def area (kind : Nat) (verified : Bool) : Staging := { id := 1, kind := kind, session := 1, length := 64, base := 0x10000, rkey := 9, qpn := 3, verified := verified }
def areas (kind : Nat) (verified : Bool) : State := { live with qps := [qp0], staging := [area kind verified], profiles := [none, some prof0, none, none] }

theorem witness_ProfileStage :
    Accepted (areas 0 false) (dg 0x0010 ([0, 0, 0, 0] ++ beBytes 8 (2 ^ 31))) 0x0010 true none none peer ∧
    (let p : List Byte := [0, 0, 0, 0] ++ beBytes 8 (2 ^ 31)
     beAt p 0 1 = 0 ∧ beAt p 1 3 = 0 ∧ p.length = 12 ∧ 0 < beAt p 4 8 ∧ beAt p 4 8 ≤ 2 ^ 31) ∧ granules (2 ^ 31) ≤ (areas 0 false).sharedFree ∧
    ({ live with staging := List.replicate 96 { area 0 false with length := 2 ^ 31 } } : State).sharedFree < granules (2 ^ 31) ∧
    Accepted (areas 0 false) (dg 0x0010 [2, 0, 0, 0, 0, 0, 0, 1]) 0x0010 true none none peer ∧ (areas 0 false).stageOf 0 1 = some (area 0 false) ∧
    Accepted (areas 0 false) (dg 0x0010 [1, 0, 0, 0, 0, 0, 0, 1]) 0x0010 true none none peer ∧ beAt [1, 0, 0, 0, 0, 0, 0, 1] 4 4 = 1 ∧
    (areas 0 false).loading = none ∧ (areas 0 false).activation = none ∧
    (imageFault ((areas 0 false).stagedBytes (area 0 false)) (areas 0 false).abiMin (areas 0 false).abiMax).isSome = true ∧
    (areas 0 false).slotFree = some 0 ∧ ({ live with profiles := List.replicate 4 (some prof0) } : State).slotFree = none ∧
    (imageTableSets img0).length ≤ (areas 0 false).setSlotsFree.length ∧ (areas 0 false).weightsFit img0 = true ∧
    (areas 0 false).slotOf (zeros 32) = some 1 ∧ (areas 0 false).slotOf [1] = none :=
  ⟨acc, by decide, by decide +kernel, by decide +kernel, acc, by decide +kernel, acc, by decide +kernel⟩

/-- A load into slot 2 that waits for its switch. -/
def load0 : LoadRun := { req := req1, stageId := 1, slot := 2, image := img0, setSlots := [1] }
def inFlight (bank : Nat) : State := { areas 0 false with loading := some load0, threads := [{ thread0 with out := [{ out0 with bank := some bank }] }] }

theorem witness_ProfileSwitch : (inFlight 0).loading = some load0 ∧ (inFlight 0).firmwareRuns = true ∧ (inFlight 0).activeBank = 0 ∧ (inFlight 0).bankHeld = false ∧
    (inFlight 1).bankHeld = true ∧ load0.slot < (inFlight 0).profiles.length := by decide +kernel

theorem witness_ProfileUnload :
    Accepted (areas 0 false) (dg 0x0011 [1, 0, 0, 0]) 0x0011 true none none peer ∧ Accepted (areas 0 false) (dg 0x0012 [2, 0, 0, 0]) 0x0012 false none none peer ∧
    (beAt [1, 0, 0, 0] 1 3 = 0 ∧ beAt [3, 0, 0, 0] 0 1 ≤ 3) ∧ (areas 0 false).profiles.getD 2 none = none ∧ (areas 0 false).profiles.getD 1 none = some prof0 ∧
    (areas 0 false).slotStreams 1 + (areas 0 false).slotJobs 1 = 0 ∧ ({ areas 0 false with streams := [stream0] } : State).slotStreams 1 ≠ 0 :=
  ⟨acc, acc, by decide, by decide +kernel⟩

theorem witness_FirmwareStage :
    Accepted (areas 0 false) (dg 0x0060 (beBytes 8 268435456)) 0x0060 true none none peer ∧
    (let p : List Byte := beBytes 8 268435456; p.length = 8 ∧ 0 < beAt p 0 8 ∧ beAt p 0 8 ≤ 268435456) ∧
    ((areas 1 false).staging.any fun g => g.kind == 1) = true ∧ ((areas 0 false).staging.any fun g => g.kind == 1) = false ∧
    Accepted (areas 1 false) (dg 0x0061 [0, 0, 0, 1]) 0x0061 true none none peer ∧ (areas 1 false).stageOf 1 1 = some (area 1 false) ∧
    (areas 1 false).imageCheck 0 ((areas 1 false).stagedBytes (area 1 false)) ≠ 0 :=
  ⟨acc, by decide, by decide +kernel, by decide +kernel, acc, by decide +kernel⟩

/-- An activation that writes flash, after a number of attempts. -/
def writing (n : Nat) : State := { areas 1 true with activation := some { req := req1, stageId := 1, image := zeros 64, step := 4, attempts := n } }

theorem witness_FirmwareActivate :
    Accepted (areas 1 true) (dg 0x0062 [0, 0, 0, 1]) 0x0062 true none none peer ∧ (areas 1 true).activation = none ∧
    (areas 1 true).stageOf 1 1 = some (area 1 true) ∧ (area 1 true).verified = true ∧ (area 1 false).verified = false ∧ (areas 1 true).phase = .running ∧
    ((areas 1 true).dies.any fun e => e.service.isSome) = false ∧ (areas 1 true).diesOk ∧ (areas 1 true).liveAllowed [] = true ∧ (areas 1 true).liveAllowed (zeros 8 ++ [0, 0, 0, 255]) = false ∧
    (areas 1 true).recoveries = [] ∧ (writing 1).activation.map (·.step) = some 4 ∧ (writing 1).firmwareRuns = true ∧ 1 < 2 ∧
    (writing 2).activation.map (·.attempts) = some 2 := ⟨acc, by decide +kernel⟩

/-- The same part in network recovery. -/
def rescue (kind : Nat) : State := { areas kind false with phase := .netRecovery }

theorem witness_RecoverLoad :
    Accepted (rescue 0) (dg 0x0091 ([0, 0, 0, 0] ++ beBytes 8 64)) 0x0091 true none none peer ∧ (rescue 0).bootResult ≠ 6 ∧
    (beAt ([0, 0, 0, 0] ++ beBytes 8 64) 4 8 = 64 ∧ ((rescue 0).staging.any fun g => g.kind == 2) = false) ∧
    Accepted (rescue 2) (dg 0x0091 [1, 0, 0, 0, 0, 0, 0, 1]) 0x0091 true none none peer ∧ (rescue 2).stageOf 2 1 = some (area 2 false) ∧
    (rescue 2).imageCheck 0 ((rescue 2).stagedBytes (area 2 false)) ≠ 0 :=
  ⟨acc, by decide +kernel, by decide +kernel, acc, by decide +kernel⟩

theorem witness_Attest : Accepted live (dg 0x0080 (zeros 40)) 0x0080 false none none peer ∧ (zeros 40).length = 40 ∧ beAt (zeros 40) 36 4 = 0 ∧
    beAt (zeros 40) 32 4 = 0 ∧ ∀ s : State, 0 < s.logBytes.length :=
  ⟨acc, by decide +kernel, by decide +kernel, by decide +kernel, fun s => by simp [State.logBytes, leBytes]⟩

/-! ### Hypotheses that are met: admission, streams, jobs -/

/-- An entry of an open or of STREAM_CONFIG. -/
def entry (id len v : Nat) : List Byte := beBytes 2 id ++ beBytes 2 len ++ beBytes len v ++ zeros (roundUp len 4 - len)
/-- A decoding video stream of a class, of 64 by 64 samples each 10 ms. -/
def openPs (cls ticket : Nat) : List Byte := [0, 1, byte cls, 0] ++ zeros 32 ++ beBytes 4 ticket ++
  entry 1 2 64 ++ entry 2 2 64 ++ entry 3 1 8 ++ entry 4 1 0 ++ (if cls = 0 then entry 7 4 10000000 else [])
def ticket0 (owner : List Byte) (at_ : Nat) : Ticket :=
  { number := 5, owner := owner, openParams := openForm (openPs 0 5) 0, regions := [(0, 1)], boundUs := 900, createdAt := at_, resLp := 0, resDs := 0,
    params := {}, qpn := 3 }
def hosting (at_ : Nat) : State := { areas 0 false with tickets := [ticket0 [7] at_] }

theorem witness_Admission :
    Accepted (hosting 0) (dg 0x0020 ([2, 0, 0, 0] ++ openPs 0 0)) 0x0020 false none none peer ∧
    (let p : List Byte := [2, 0, 0, 0] ++ openPs 0 0
     44 ≤ p.length ∧ beAt p 0 1 ≠ 0 ∧ beAt p 1 3 = 0 ∧ beAt p 6 1 = 0 ∧ beAt p 40 4 = 0 ∧
       (((hosting 0).readAsk p 4).toOption.any fun a => !(hosting 0).reordered a) = true) ∧ (hosting 0).diesOk ∧
    Accepted (hosting 0) (dg 0x0021 (openPs 0 5)) 0x0021 false none none peer ∧ Accepted (hosting 0) (dg 0x0021 (openPs 2 0)) 0x0021 false none none peer ∧
    (((hosting 0).readAsk (openPs 0 5) 0).toOption.any fun a => a.kind.cls == 0 && a.params.archive == 0 && a.kind.dir != 2 && a.ticket == 5) = true ∧
    (((hosting 0).readAsk (openPs 0 9) 0).toOption.any fun a => a.kind.cls == 0 && a.ticket == 9) = true ∧
    (((hosting 0).readAsk (openPs 2 0) 0).toOption.any fun a => a.kind.cls == 2 && a.params.archive == 0 && a.kind.dir != 2) = true ∧
    (hosting 0).tickets.find? (fun (t : Ticket) => t.number == 9) = none ∧
    (hosting 0).tickets.find? (fun (t : Ticket) => t.number == 5) = some (ticket0 [7] 0) ∧ (ticket0 [7] 0).owner = peer.hostKey ∧
    (ticket0 [7] 0).openParams = openForm (openPs 0 5) 0 ∧ (hosting 0).poolsHave (List.range (hosting 0).dieCount) 1 1 = true ∧
    (hosting 0).poolsHave (List.range (hosting 0).dieCount) (2 ^ 30) 0 = false ∧
    (hosting 0).firmwareRuns = true ∧ 0 + 10 * 10 ^ 9 ≤ (hosting 0).gts ∧ (hosting 0).gts < live.gts + 10 * 10 ^ 9 ∧ 5 < 2 ^ 32 - 1 :=
  ⟨acc, by decide +kernel, by decide +kernel, acc, acc, by decide +kernel⟩

/-- A stream that has started picture 4, in a state. -/
def going (y : Stream) : State := { areas 0 false with streams := [y] }
def started0 : Stream := { stream0 with lastStarted := some 4, marks := [(9, 5)] }
def cfgNow : List Byte := [0, 0, 0, 1] ++ entry 0x24 1 1
def cfgLater : List Byte := cfgNow ++ entry 0x2E 4 9
def rate0 (at_ : Nat) : List Byte := [0, 0, 0, 1] ++ beBytes 4 at_ ++ [0, 30, 20, 10, 40, 0, 0, 0] ++ zeros 16 ++ [0, 1] ++ zeros 6
def roi0 : List Byte := [0, 0, 0, 1, 0, 0, 0, 9, 1, 0, 0, 0] ++ zeros 10
def mark0 (p slot : Nat) : List Byte := [0, 0, 0, 1] ++ beBytes 4 p ++ [byte slot, 0, 0, 0]

theorem witness_CommandsOnAStream (d : Datagram) :
    Accepted (going started0) (dg 0x0022 cfgNow) 0x0022 false ((going started0).streamOwner d) none peer ∧
    Accepted (going started0) (dg 0x0022 cfgLater) 0x0022 false ((going started0).streamOwner d) none peer ∧
    Accepted (going started0) (dg 0x0025 (rate0 9)) 0x0025 false ((going started0).streamOwner d) none peer ∧
    Accepted (going started0) (dg 0x0026 roi0) 0x0026 false ((going started0).streamOwner d) none peer ∧
    Accepted (going started0) (dg 0x0027 (mark0 9 4)) 0x0027 false ((going started0).streamOwner d) none peer ∧
    Accepted (going started0) (dg 0x0024 [0, 0, 0, 1]) 0x0024 false none none peer ∧
    Accepted (going started0) (dg 0x0023 [0, 0, 0, 1]) 0x0023 false ((going started0).streamOwner d) none peer :=
  ⟨acc, acc, acc, acc, acc, acc, acc⟩

theorem witness_CommandsOnAStream_parameters :
    (going started0).stream 1 = some started0 ∧ beAt cfgNow 0 4 = 1 ∧ started0.state = .open_ ∧ started0.media = 0 ∧
    ((parseEntries cfgNow 4).toOption.any fun es => (((going started0).kindOf started0).entriesFault (some (true, 0)) [] es).isNone &&
      !((going started0).kindOf started0).disagrees (started0.params.apply es)) = true ∧
    ((parseEntries cfgLater 4).toOption.any fun es => (((going started0).kindOf started0).entriesFault (some (true, 9)) [] es).isNone &&
      (match es.find? (·.id == 0x2E) with | some e => beNat e.value | none => 0) == 9) = true ∧
    started0.past 0 = false ∧ started0.past 9 = false ∧ started0.past 4 = true ∧ started0.pendingCfg.length < 16 ∧
    (rate0 9).length = 40 ∧ rateFault (rate0 9) = none ∧ beAt (rate0 9) 4 4 = 9 ∧ beAt (rate0 4) 4 4 = 4 ∧
    roi0.length = 12 + 10 * beAt roi0 8 1 ∧ beAt roi0 9 3 = 0 ∧ (roiOf roi0 12 1).all (fun r => -64 ≤ r.dq && r.dq ≤ 63) = true ∧
    (∀ i < beAt roi0 8 1, beAt roi0 (21 + 10 * i) 1 = 0) ∧ (mark0 9 4).length = 12 ∧ beAt (mark0 9 7) 8 1 = 7 ∧ beAt (mark0 3 4) 4 4 ≤ 4 ∧
    (∀ l, started0.lastStarted = some l → l < 9) ∧ (9, 5) ∈ started0.marks ∧ (9, 4) ∉ started0.marks ∧ started0.marks.length < 64 ∧
    ({ started0 with pics := [{ picture := 4, started := true }] } : Stream).busy = true ∧
    ({ started0 with state := .stopped, status := .streamDamaged } : Stream).status = .streamDamaged := by
  have last (l : Nat) (h : started0.lastStarted = some l) : l < 9 := by cases h; decide
  and_intros <;> first | rfl | exact last | decide +kernel

/-- The same stream with a picture in hand, so that its close waits. -/
def busy0 : Stream := { started0 with pics := [{ picture := 4, started := true }] }

theorem witness_StreamCommandsComplete (d : Datagram) :
    Accepted (going busy0) (dg 0x0022 cfgNow) 0x0022 false ((going busy0).streamOwner d) none peer ∧
    Accepted (going busy0) (dg 0x0023 [0, 0, 0, 1]) 0x0023 false ((going busy0).streamOwner d) none peer ∧
    Accepted (going busy0) (dg 0x0024 [0, 0, 0, 1]) 0x0024 false none none peer ∧
    Accepted (going busy0) (dg 0x0025 (rate0 9)) 0x0025 false ((going busy0).streamOwner d) none peer ∧
    Accepted (going busy0) (dg 0x0026 roi0) 0x0026 false ((going busy0).streamOwner d) none peer ∧
    Accepted (going busy0) (dg 0x0027 (mark0 9 4)) 0x0027 false ((going busy0).streamOwner d) none peer ∧
    Accepted (going busy0) (dg 0x0070 [7, 0, 0, 0]) 0x0070 false none (some 7) peer ∧
    (going busy0).stream 1 = some busy0 ∧ busy0.state = .open_ ∧ busy0.busy = true ∧ busy0.past 9 = false ∧ busy0.marks.length < 64 :=
  ⟨acc, acc, acc, acc, acc, acc, acc, by decide +kernel⟩

/-- No thread waits for a pool where none is bound. -/
theorem witness_NoneWaits : live.noneWaits ∧ (∀ y, (going y).noneWaits) := ⟨(fun _ h => nomatch h), (fun _ _ h => nomatch h)⟩

/-- An image of a video profile with tiles of 512 samples and one adaptable layer of one row and one column. -/
def img1 : List Byte := zeros 4 ++ leBytes 4 4 ++ zeros 56 ++ sec 1 0 [0, 0, 0, 4, 0] ++ sec 5 0 [1, 0, 0, 4] ++ sec 6 0 (zeros 16) ++ sec 0x20 0 (weightBody 1)
def filmed : State := { areas 0 false with profiles := [none, some { prof0 with image := img1 }, none, none] }
/-- Parameters of a LIST job over a table. -/
def listJob (count lp mask : Nat) : List Byte := [0, 1, 0, 0] ++ beBytes 8 (deep 0) ++ beBytes 4 count ++ beBytes 4 lp ++ beBytes 4 0 ++ [byte mask, 0, 0, 0]
/-- Parameters of a TRAIN job of some iterations, RANK 1. -/
def trainPs (iterations : Nat) : List Byte := [1, 3, 0, 0] ++ zeros 32 ++ beBytes 8 1 ++ [1] ++ zeros 12 ++ beBytes 4 iterations ++ beBytes 2 1 ++ beBytes 8 (deep 1) ++
  beBytes 4 0x3F800000 ++ zeros 4 ++ zeros 4 ++ zeros 128 ++ [0] ++ zeros 8 ++ beBytes 8 (deep 2)
def trainJob (n : Nat) : Job := { number := 4, owner := [7], kind := .train, cls := 3, state := 1, params := trainPs 2, slot := some 1, count := 2, done := n, factors := [] }
def working (n : Nat) : State := { filmed with jobs := [trainJob n] }

theorem witness_Jobs :
    Accepted (working 0) (dg 0x0030 (listJob 2 1 1)) 0x0030 false none none peer ∧ Accepted (working 0) (dg 0x0030 (trainPs 2)) 0x0030 false none none peer ∧
    Accepted (working 0) (dg 0x0031 [0, 0, 0, 4]) 0x0031 false none none peer ∧ Accepted (working 0) (dg 0x0032 [0, 0, 0, 4]) 0x0032 false (some [7]) none peer ∧
    (working 0).job 4 = some (trainJob 0) :=
  ⟨acc, acc, acc, acc, by decide +kernel⟩

theorem witness_Jobs_list :
    (listJob 2 1 1).length = 28 ∧ beAt (listJob 2 1 1) 0 1 = 0 ∧ (working 0).listJobFault (listJob 2 1 1) = none ∧ ((working 0).listJobFault (listJob 0 1 1)).isSome = true ∧
    (working 0).poolsHave (maskDies (working 0) 1) 1 0 = true ∧ (working 0).poolsHave (maskDies (working 0) 1) (2 ^ 31) 0 = false ∧
    beAt (listJob 2 1 1) 12 4 ≤ 4096 * (working 0).dieCount ∧ ((working 0).contexts ((working 0).usableUnits 1) (List.range 2) []).isSome = true ∧
    (∀ j ∈ live.jobs, j.number ≠ live.nextNumber) ∧ (∀ j ∈ (working 0).jobs, j.number ≠ (working 0).nextNumber) := by decide +kernel

theorem witness_Jobs_train :
    (trainPs 2).length = 228 ∧ beAt (trainPs 2) 0 1 = 1 ∧ beAt (trainPs 2) 1 1 = 3 ∧ beAt (trainPs 2) 2 2 = 0 ∧ (working 0).slotOf (trainAsk (trainPs 2)).digest = some 1 ∧
    (working 0).slotImage 1 = some img1 ∧ (findSection img1 6 0).isSome = true ∧ (working 0).trainFault (trainPs 2) img1 = none ∧
    ((working 0).trainFault (trainPs 0) img1).isSome = true ∧ (trainJob 0).kind = .train ∧ (trainJob 0).state = 1 ∧ (working 0).firmwareRuns = true ∧
    (trainJob 0).slot = some 1 ∧ (trainJob 0).done + 1 ≠ (trainJob 0).count ∧ (trainJob 1).done + 1 = (trainJob 1).count ∧
    (working 0).memOk ∧ (trainJob 0).cancel = false := by decide +kernel

/-- A training job of no tiles, and the context that runs its iterations. -/
def trainJob0 (n : Nat) : Job := { trainJob n with params := [] }
def train0 (n : Nat) : State := { working n with jobs := [trainJob0 n], threads := [{ id := th0, binding := 4, isJob := true, cls := 3 }] }
def run0 : TrainRun := ⟨th0, deep 0, [], 0, 0, [], []⟩

theorem witness_Jobs_iteration : let it : Iteration := { job := trainJob0 0, ask := trainAsk [], img := img1, run := run0 }
    (train0 0).job 4 = some (trainJob0 0) ∧ (train0 0).thread run0.thread = some { id := th0, binding := 4, isJob := true, cls := 3 } ∧
    (train0 0).firmwareRuns = true ∧ (train0 0).slotImage 1 = some img1 ∧ run0.factors.length = 2 * (trainJob0 0).factors.length ∧
    run0.grads.length = run0.factors.length ∧ (trainJob0 1).done + 1 = (trainJob0 1).count ∧ (train0 1).job 4 = some (trainJob0 1) ∧ (train0 1).memOk ∧
    it.ask.batch = 0 := by decide +kernel

/-- The fold over the tiles of the witness is over none: the state as it was and no sums. -/
theorem witness_Jobs_iteration_runs (it : Iteration) (h : it.ask.batch = 0) (th : Thread) (s : State) :
    (List.range it.ask.batch).foldlM (fun a b => it.tile th b a) (s, []) = .ok (s, []) := by
  rw [h]; rfl

/-- A tile of a batch of one whose list names no gradient must wait. -/
theorem witness_Jobs_iteration_waits : let it : Iteration := { job := trainJob0 0, ask := { trainAsk [] with batch := 1 }, img := [], run := { run0 with grads := [256] } }
    (match it.tile { id := th0 } 0 (live, []) with
     | .error none => true
     | _ => false) = true := by decide +kernel

/-- A job with a list under way, and one whose lists wait. -/
def listJob0 : Job := { trainJob 0 with kind := .list, number := 4, dies := 1 }
def cancelling (cur : Option CurList) : State := { working 0 with
  jobs := [listJob0], threads := [{ thread0 with binding := 4, isJob := true, cur := cur, queue := [listAt] }] }

theorem witness_Jobs_cancel : Accepted (cancelling none) (dg 0x0032 [0, 0, 0, 4]) 0x0032 false (some [7]) none peer ∧
    Accepted (cancelling (some list0)) (dg 0x0032 [0, 0, 0, 4]) 0x0032 false (some [7]) none peer ∧ (cancelling none).job 4 = some listJob0 ∧
    listJob0.state = 1 ∧ listJob0.kind = .list ∧ (∃ h ∈ (cancelling (some list0)).threads, h.isJob = true ∧ h.binding = 4 ∧ h.cur.isSome = true ∧ h.state ≠ .stopped) ∧
    (∀ h ∈ (cancelling none).threads, h.isJob = true → h.binding = 4 → h.cur = none ∨ h.state = .stopped) ∧
    (working 0).listRecovering (listJob 2 1 1) = false ∧
    ({ working 0 with recoveries := [rec0 (.die 0) 0] } : State).listRecovering (listJob 2 1 1) = true :=
  ⟨acc, acc, by decide +kernel, rfl, rfl, by decide +kernel, by decide +kernel, by decide +kernel, by decide +kernel⟩

/-- Parameters of a lossless job, and of one resumed from a token. -/
def lzPs (unpack depth : Nat) : List Byte := [byte unpack, 1] ++ beBytes 2 depth ++ beBytes 8 (deep 0) ++ beBytes 4 16 ++ zeros 4 ++ beBytes 8 (deep 1) ++ beBytes 4 256 ++ zeros 4 ++
  beBytes 8 (deep 2) ++ beBytes 8 0x1000000 ++ beBytes 8 0
def askOf (pack : Bool) (inp out : Span) (state : Nat) : LzAsk := { pack := pack, cls := 1, inp := inp, out := out, result := deep 2, state := state, tokenOut := 0 }

theorem witness_Jobs_lossless : let a := askOf true ⟨deep 0, 16⟩ ⟨deep 1, 256⟩ 0x1000000
    Accepted (working 0) (dg 0x0033 (lzPs 0 1)) 0x0033 false none none peer ∧ (lzPs 0 1).length = 60 ∧ (brAt (lzPs 0 1) 4) = (a.inp, true) ∧ (brAt (lzPs 0 1) 20) = (a.out, true) ∧
    beAt (lzPs 0 1) 36 8 = a.result ∧ beAt (lzPs 0 1) 44 8 = a.state ∧ beAt (lzPs 0 1) 52 8 = a.tokenOut ∧ beAt (lzPs 0 1) 2 2 = 1 ∧ stateAreaOk (working 0) a.state = true ∧
    ((working 0).lzSpans [(4, a.inp)] (a.writes 20 36 44 52)).toOption = some () ∧ (working 0).poolsHave [0] 2048 0 = true ∧
    ((working 0).freeContext ((working 0).usableUnits (2 ^ (working 0).dieCount - 1)) (working 0).nextNumber []).isSome = true :=
  ⟨acc, by decide +kernel⟩

/-- A token of an unpacking that has done nothing. -/
def token0 : List Byte := let t : List Byte := [0x52, 0x5A, 1, 1] ++ zeros 28 ++ leBytes 4 (crc32c []); t ++ leBytes 4 (crc32c t)
def resumePs : List Byte := [1, 0, 0, 0] ++ beBytes 8 (deep 3) ++ beBytes 8 (deep 0) ++ beBytes 4 16 ++ zeros 4 ++ beBytes 8 (deep 1) ++ beBytes 4 256 ++ zeros 4 ++ beBytes 8 (deep 4) ++
  zeros 8 ++ beBytes 8 (deep 2) ++ zeros 16
def resuming : State := { working 0 with mem := Memory.writeBytes [] (deep 3) token0 }

theorem witness_Jobs_resume : let a := askOf false ⟨deep 0, 16⟩ ⟨deep 1, 256⟩ 0
    Accepted resuming (dg 0x0034 resumePs) 0x0034 false none none peer ∧ resumePs.length = 84 ∧ resuming.bytesAt (beAt resumePs 4 8) 40 = token0 ∧ leAt token0 2 1 ≠ 0 ∧
    (brAt resumePs 12) = (a.inp, true) ∧ (brAt resumePs 28) = (a.out, true) ∧ (brAt resumePs 44) = (⟨deep 4, 0⟩, true) ∧ beAt resumePs 60 8 = a.result ∧
    resuming.nearSpan ⟨deep 3, 40⟩ = true ∧ (resuming.lzSpans [(4, ⟨deep 3, 40⟩), (12, a.inp), (44, ⟨deep 4, 0⟩)] (a.writes 28 60 68 76)).toOption = some () ∧
    (resumeUnpack token0 (resuming.bytesAt (deep 0) 16) [] 256).isSome = true ∧ beAt resumePs 0 1 ≤ 3 ∧ beAt resumePs 1 3 = 0 :=
  ⟨acc, by decide +kernel⟩

/-! ### Hypotheses that are met: pictures and units -/

def vidParams : StreamParams := { width := 64, height := 64, bitDepth := 8, tileSize := 512, refreshN := 64 }
/-- A stream in a direction with pictures, and the part that serves it. -/
def video1 (dir : Dir) (pics : List Pic) : Stream := { stream0 with dir := dir, params := vidParams, pics := pics }
def showing (y : Stream) : State := { filmed with streams := [y] }
def arrivedPic (t : Nat) : InputPic := { picture := t, metadata := [], samples := [], complete := true, arrivedAt := 0 }

theorem witness_Pictures_input : let y := video1 .encode []
    (showing y).stream 1 = some y ∧ y.number = 1 ∧ (showing y).qp y.qpn = some qp0 ∧ qp0.connected = true ∧ (showing y).portAlive qp0.port = true ∧
    (showing y).dieRecovering qp0.port = false ∧ (showing y).firmwareRuns = true ∧ y.state = .open_ ∧ ([] : List Byte).length < 16 ∧ y.nextInput < 2 ^ 24 ∧
    y.incoming.samples.length + (zeros 6144).length = y.params.rawSize y.media ∧ y.incoming.samples.length + (zeros 1).length ≠ y.params.rawSize y.media ∧
    (video1 .decode []).dir = .decode ∧ (video1 .ingest []).dir = .ingest ∧
    ({ video1 .ingest [] with inBytes := [1] } : Stream).inBytes ≠ [] ∧ (∀ z ∈ (showing (video1 .ingest [])).streams, z.dir = .encode → z.params.source ≠ 1) := by
  decide +kernel

/-- A list template: its operations, and its relocated fields. -/
def listOf (ops : List (List Byte)) (relocs : List (Nat × Nat)) : List Byte :=
  [0, 1] ++ leBytes 2 ops.length ++ leBytes 4 (32 + ops.flatten.length) ++ zeros 24 ++ ops.flatten ++ leBytes 4 relocs.length ++
    relocs.flatMap fun r => leBytes 4 r.1 ++ leBytes 4 r.2 ++ zeros 8
def mark1 : List Byte := opOf rowCheckpoint 0 [] 0
def copyFrom (c h w fmt : Nat) (scale : Nat := 0) : List Byte := opOf rowCopy 0 (tn 0 c h w fmt 0 scale ++ tn (sp 8) c h w fmt 0 scale) 0
def copyTo (c h w : Nat) : List Byte := opOf rowCopy 0 (tn (sp 8) c h w 1 0 ++ tn 0 c h w 1 0) 0
def stepOwn : Nat := 1 + 2 ^ 48 + 2 ^ 64 * (sp 4) + 2 ^ 128 * 64 + 2 ^ 224 * (sp 5)
def dec1 : List Byte := opOf rowDec 0 (rg (sp 3) 64 ++ tn (sp 1) 1 1 1 1 0 ++ tn (sp 2) 1 1 1 7 0 ++ tn (sp 0) 1 1 1 1 1) stepOwn
def enc1 : List Byte := opOf rowEnc 0 (tn (sp 0) 1 1 1 1 1 ++ tn (sp 1) 1 1 1 1 0 ++ tn (sp 2) 1 1 1 7 0 ++ rg (sp 3) 4096) stepOwn
/-- The loop of one step, to decode and to encode (the tile's planes in buffers 0x100 and 0x101), and a synthesis of the planes. -/
def loopNet : List Byte := [3, 1, 2, 0] ++ listOf [mark1, dec1] [] ++
  listOf [mark1, copyFrom 1 16 16 5 scaleAt, copyFrom 2 8 8 5 scaleAt, enc1]
    [(64 + mark1.length, 0x100), (64 + mark1.length + (copyFrom 1 16 16 5).length, 0x101)]
def synthNet : List Byte := [4, 1, 1, 0] ++ listOf [copyTo 1 16 16, copyTo 2 8 8] [(112, 3), (112 + (copyTo 1 16 16).length, 3)]
def img2 : List Byte := zeros 4 ++ leBytes 4 4 ++ zeros 56 ++ sec 1 0 [0, 64, 0, 4, 0] ++ sec 2 0 (leBytes 6 (1 + 2 ^ 10 + 2 ^ 15)) ++
  sec 0x10 0 loopNet ++ sec 0x10 1 synthNet
def smallParams : StreamParams := { vidParams with width := 16, height := 16 }
/-- A stream of small pictures. -/
def small (dir : Dir) (pics : List Pic) : Stream := { video1 dir pics with params := smallParams }
def placing (y : Stream) : State := { showing y with profiles := [none, some { prof0 with image := img2 }, none, none] }
/-- The tile's lists, to encode or to decode it. -/
def places0 (list : Nat) : List Placement :=
  [{ tile := 0, thread := th0, addr := deep 32, net := 0, list := list, buffers := [(0x100, deep 8), (0x101, deep 9)], inputs := if list = 1 then [0x100, 0x101] else [] },
   { tile := 0, thread := th0, addr := deep 33, net := 1, list := 0, buffers := [(3, deep 5), (3, deep 64)] }]

theorem witness_Pictures_start_encode : let y := { small .encode [] with inputs := [arrivedPic 0] }
    (placing y).stream 1 = some y ∧ (placing y).firmwareRuns = true ∧ y.turn y.next = true ∧ (placing y).slotOf y.digest = some y.slot ∧ y.params.adapt ≠ 1 ∧
    y.partPlaced ((placing y).strideOf y) = none ∧ (({ placing y with profiles := [] } : State).slotOf y.digest) ≠ some y.slot ∧
    ((placing y).readyPicture y).any (fun p => (placing y).placesOk (y.settings y.next) p.params p.picture (p.unplaced y.media ((placing y).strideOf y)) (places0 1)) =
      true := by decide +kernel

/-- The body of a DELTA unit of rank 1. -/
def deltaBody : List Byte := [0, 1, 0, 0] ++ leBytes 2 1 ++ [0, 0] ++ leBytes 4 1 ++ leBytes 4 0x3F800000 ++ zeros 4 ++ leBytes 4 0x3F800000 ++ zeros 4 ++ [1, 1]

theorem witness_Pictures_merge : let y := { video1 .encode [] with params := { vidParams with adapt := 1 } }
    let s := (showing y).onDie 0 fun d => { d with poolDs := { d.poolDs with reserved := [(1, 1)] } }
    s.memOk ∧ y.params.adapt = 1 ∧ y.turn y.next = true ∧ s.slotImage y.slot = some img1 ∧ imageAdapt img1 = [(0, 4)] ∧ s.streamDies 1 = [0] ∧
    recordsOk img1 [deltaBody] = true ∧ ((imageWeight img1 0).any fun w => s.copiesOk y img1 y.next
      [((⟨0, y.next % 2, 0, deep 5⟩ : MergedCopy), (mergedLayer img1 w (((newDeltas y.deltas y.next [deltaBody]).find? fun (e : DeltaRec) => e.layer == 0).map (·.body))).1)]) =
      true ∧ y.mergedFor ≠ some y.next ∧ ({ y with mergedFor := some y.next } : Stream).mergedFor = some y.next := by decide +kernel

def work0 (d : Bool) : TileWork := { tile := 0, done := d }
def pic0 (d : Bool) : Pic := { picture := 0, started := true, params := vidParams, tiles := [work0 d] }
/-- A tile whose lists have been queued and have run. -/
def ranWork : TileWork := { tile := 0, home := some th0, lists := (places0 0).map fun q => { placedRef q with queued := true }, unit := zeros 8 }
def ranPic : Pic := { pic0 false with params := smallParams, tiles := [ranWork] }

theorem witness_Pictures_tile : let y := small .decode [ranPic]
    (placing y).stream 1 = some y ∧ y.latent = false ∧ y.state ≠ .stopped ∧
    threadPresent (placing y) th0 = true ∧ y.pics.find? (fun (q : Pic) => q.picture == ranPic.picture && q.started) = some ranPic ∧
    ranPic.tiles.find? (fun w => w.tile == 0 && !w.done && w.home == some th0) = some ranWork ∧ (ranPic.damage.any fun d => d.tile == some 0) = false ∧ (placing y).slotImage y.slot = some img2 ∧
    (ranWork.lists.any (! ·.queued)) = false ∧ (placing y).tileRan 1 0 0 = true ∧
    y.outputsOk smallParams ((placing y).strideOf y) 0 (y.bound img2 0 0 th0 ranWork.lists) = true ∧
    tileEndDamage smallParams 0 64 ranWork = none := by decide +kernel

theorem witness_Pictures_complete : let y := video1 .encode [pic0 true]
    y.cls ≠ 0 ∧ y.closing = [] ∧ y.params.archive = 0 ∧ y.pics = [pic0 true] ∧ (pic0 true).started = true ∧ (pic0 true).doom = none ∧ (pic0 true).picture < 2 ^ 24 - 1 ∧
    (pic0 true).params.tiles 0 ((showing y).strideOf y) = 1 ∧ (∀ k < 1, ∃ w ∈ (pic0 true).tiles, w.tile = k ∧ w.done = true) ∧
    (∃ k < 1, ∀ w ∈ (pic0 false).tiles, w.tile = k → w.done = false) ∧
    (let s : State := { live with hulT7 := 0x6402 }; s.phase = .running ∧ s.hulT7.toNat % 4 = 2 ∧ 0 < s.hulT7.toNat / 256) := by decide +kernel

/-- The body of a stream header, with its FLAGS, and of a picture header. -/
def header0 (flags : Nat) (digest : List Byte) : List Byte := [0x5A, 0x42, 1, 0] ++ digest ++ beBytes 2 flags ++ beBytes 2 64 ++ [0, 0, 0, 0] ++ vidParams.mediaPart 0 0
def picHead (t : Nat) : List Byte := [0] ++ beBytes 3 t ++ [32, 0, 0, byte (b01 (refreshComplete t 64))] ++ beBytes 2 (refreshPos t 64) ++ [0, 0, 0, 1] ++ zeros 10
/-- A decoding stream whose input begins with a unit of a type. -/
def reader (type : Nat) (b : List Byte) : Stream := { video1 .decode [] with inBytes := mkUnit type b }

theorem witness_Units_headers : let y := reader 1 (header0 0 (zeros 32)); let b := header0 0 (zeros 32)
    (showing y).stream 1 = some y ∧ y.number = 1 ∧ y.state = .open_ ∧ y.closing = [] ∧ y.endSeen = false ∧ (showing y).firmwareRuns = true ∧ y.pics = [] ∧
    b.length = 60 ∧ beAt b 0 2 = 0x5A42 ∧ beAt b 2 1 = 1 ∧ beAt b 3 1 = y.media ∧ slice b 4 32 = y.digest ∧ headerFieldsOk ((showing y).kindOf y) b = true ∧ y.header = [] ∧
    headerBefore (beAt b 41 3) (beAt b 38 2) = true ∧ slice (header0 0 [1]) 4 32 ≠ y.digest ∧
    (let z := { reader 2 (picHead 0) with header := b, headerPending := some b, firstPicture := some 0 }
     (picHead 0).length = 24 ∧ z.header ≠ [] ∧ beAt (picHead 0) 0 1 = 0 ∧ pictureFieldsOk z.params z.media ((showing z).strideOf z) (picHead 0) = true ∧ z.current = none ∧
       z.lastRead ≠ some (2 ^ 24 - 1) ∧ beAt (picHead 0) 1 3 = z.expected ∧ beAt b 41 3 = z.expected) ∧
    (let z := { reader 2 (picHead 5) with header := b, lastPicture := some 4 }
     pictureFieldsOk z.params z.media ((showing z).strideOf z) (picHead 5) = true ∧ z.headerPending = none ∧ headerBefore z.expected z.params.refreshN = false) := by
  decide +kernel

def roiBody : List Byte := [1, 0, 0, 0] ++ beBytes 2 0 ++ beBytes 2 0 ++ beBytes 2 8 ++ beBytes 2 8 ++ [0, 0]
def handPic (flags ndelta : Nat) : Pic := { picture := 0, header := (picHead 0).take 7 ++ [byte flags] ++ zeros 2 ++ beBytes 2 ndelta ++ zeros 12, params := vidParams }

theorem witness_Units_picture :
    (let y := { reader 3 deltaBody with header := header0 4 (zeros 32), params := { vidParams with adapt := 1 }, pics := [handPic 4 1] }
     y.current = some (handPic 4 1) ∧ (showing y).slotImage y.slot = some img1 ∧ 28 ≤ deltaBody.length ∧ bit (beAt y.header 36 2) 2 = true ∧
       deltaBody.length = 28 + leAt deltaBody 4 2 * leAt deltaBody 1 1 + leAt deltaBody 1 1 * leAt deltaBody 8 4 ∧ deltaFieldsOk img1 deltaBody = true ∧
       (handPic 4 1).deltas.length < (handPic 4 1).ndelta ∧ (handPic 4 1).hasRoi = false ∧ (handPic 4 1).hasMeta = false ∧ (handPic 4 1).tiles = []) ∧
    (roiBody.length = 4 + 10 * beAt roiBody 0 1 ∧ beAt roiBody 0 1 ≠ 0 ∧ beAt roiBody 1 3 = 0 ∧ (∀ i < beAt roiBody 0 1, roiRectOk vidParams roiBody i = true) ∧
       (handPic 2 0).deltasIn = true ∧ bit (handPic 2 0).flags 1 = true) ∧
    ((handPic 8 0).roiIn = true ∧ bit (handPic 8 0).flags 3 = true) ∧
    ((zeros 8).length = tileLength (zeros 8) ∧ beAt (zeros 8) 0 2 < vidParams.tiles 0 0 ∧ (handPic 0 0).metaIn = true) ∧
    (let p := { handPic 0 0 with tiles := [work0 false] }
     p.tiles.length = p.params.tiles 0 0 ∧ beAt (zeros 8) 0 4 = p.picture ∧ beAt (zeros 8) 4 1 = b01 (bit p.flags 4) ∧ (zeros 8).length = 8 + 16 * (beAt (zeros 8) 4 1 % 2)) := by
  decide +kernel

theorem witness_Units_metadata : (lzAll (lzPack [1, 2, 3] 1 1000 0 0).out) = some [1, 2, 3] := by decide +kernel

theorem witness_Units_others :
    (let y := reader 15 (beBytes 4 0xFFFFFFFF); y.lastRead = none ∧ beAt (beBytes 4 0xFFFFFFFF) 0 4 = y.lastRead.getD 0xFFFFFFFF ∧ y.current = none ∧ y.headerPending = none) ∧
    7 < 8 ∧ 8 ≠ 15 ∧ leAt (reader 8 []).inBytes 0 1 ≠ 1 ∧
    (let u : List Byte := [1, 0, 0, 0, 0, 0, 0, 4, 0, 0, 0, 0]
     u.length = 12 ∧ beAt u 4 4 = 4 ∧ crc32c (u.take 8) ≠ beAt u 8 4 ∧ leAt u 0 1 = 1) := by decide +kernel

theorem witness_StepKeepsSound : ({ live with pending := [.ppsIn] } : State).Sound ∧ runsOn { live with pending := [.ppsIn] } :=
  ⟨⟨by decide +kernel, by decide +kernel, by decide +kernel, by decide +kernel, by decide +kernel⟩, ⟨_, rfl⟩⟩

end Sys2Proof.Tests
end

/-! PROOFS. Numeric formats (02 R35 to R51, R460): every code comes back from its value, and a placed value is rounded to nearest,
ties to even. -/

namespace Sys2Proof.Proofs

open Sys2Proof Sys2Proof.Machine

/-! ### Round-half-to-even division -/

/-- A multiple of the divisor divides exactly. -/
theorem rneDiv_mul (a : Int) (d : Nat) (hd : 0 < d) : rneDiv (a * d) d = a := by
  have hd' : (d : Int) ≠ 0 := by omega
  have hup : ¬ ((decide (2 * (0 : Int) > d) || (2 * (0 : Int) == d && a % 2 == 1)) = true) := by
    simp only [Bool.or_eq_true, Bool.and_eq_true, decide_eq_true_eq, beq_iff_eq]
    omega
  simp only [rneDiv, Int.mul_ediv_cancel _ hd', Int.mul_emod_left, if_neg hup]

/-- The quotient is the nearest integer, and an even one where two are nearest. -/
theorem rneDiv_nearest (n : Int) (d : Nat) (hd : 0 < d) :
    2 * (rneDiv n d * d - n).natAbs ≤ d ∧ (2 * (rneDiv n d * d - n).natAbs = d → rneDiv n d % 2 = 0) := by
  have hpos : (0 : Int) < d := by omega
  have hr0 := Int.emod_nonneg n (Int.ne_of_gt hpos)
  have hr1 := Int.emod_lt_of_pos n hpos
  have hn := Int.ediv_mul_add_emod n d
  generalize hr : n % (d : Int) = r at hr0 hr1 hn
  generalize hq : n / (d : Int) = q at hn
  have hlow : q * d - n = -r := by omega
  have hhigh : (q + 1) * d - n = d - r := by rw [Int.add_mul]; omega
  simp only [rneDiv, hr, hq]
  split <;> rename_i hc <;> simp only [Bool.or_eq_true, Bool.and_eq_true, decide_eq_true_eq, beq_iff_eq, not_or, not_and] at hc
  · rw [hhigh]; omega
  · rw [hlow]; omega

theorem rneDiv_nonneg (n : Int) (d : Nat) (hn : 0 ≤ n) : 0 ≤ rneDiv n d := by
  have hq : 0 ≤ n / (d : Int) := Int.ediv_nonneg hn (by omega)
  simp only [rneDiv]
  split <;> omega

/-! ### Two's complement codes -/

theorem natCast_pred {n : Nat} (h : n ≠ 0) : ((n - 1 : Nat) : Int) = n - 1 := by omega

/-- A power of two as an integer. -/
theorem natCast_two_pow (w : Nat) : ((2 ^ w : Nat) : Int) = 2 ^ w := Int.natCast_pow 2 w

theorem unsigned_lt (w : Nat) (i : Int) : unsigned w i < 2 ^ w := by
  have hcast := natCast_two_pow w
  have hpos := Nat.two_pow_pos w
  have h0 : 0 ≤ i % (2 ^ w : Int) := Int.emod_nonneg i (by omega)
  have h1 : i % (2 ^ w : Int) < 2 ^ w := Int.emod_lt_of_pos i (by omega)
  simp only [unsigned]
  omega

/-- The code of a number read as two's complement is its low bits. -/
theorem unsigned_signed (w n : Nat) : unsigned w (signed w n) = n % 2 ^ w := by
  have hmod : (signed w n) % (2 ^ w : Int) = ((n % 2 ^ w : Nat) : Int) := by
    simp only [signed, ← natCast_two_pow]
    split
    · rw [← Int.natCast_emod, Nat.mod_mod]
    · rw [Int.sub_emod_right, ← Int.natCast_emod, Nat.mod_mod]
  rw [unsigned, hmod, Int.toNat_natCast]

theorem unsigned_signed_of_lt {w n : Nat} (h : n < 2 ^ w) : unsigned w (signed w n) = n := by
  rw [unsigned_signed, Nat.mod_eq_of_lt h]

/-- A number that fits is its own code. -/
theorem unsigned_of_nonneg {w : Nat} {i : Int} (h0 : 0 ≤ i) (h1 : i < 2 ^ w) : unsigned w i = i.toNat := by
  rw [unsigned, Int.emod_eq_of_lt h0 h1]

theorem signed_bounds (w n : Nat) : -(2 ^ w : Int) ≤ 2 * signed w n ∧ 2 * signed w n < 2 ^ w := by
  have hm : n % 2 ^ w < 2 ^ w := Nat.mod_lt _ (Nat.two_pow_pos w)
  have hcast := natCast_two_pow w
  simp only [signed]
  split <;> omega

/-! ### The grid -/

/-- A magnitude that lies on the grid keeps its integer. -/
theorem gridMag_on_grid (n : Nat) {k f : Int} (h : k + 256 * f = 0) : gridMag n 1 k f = n := by
  have hself : rneDiv (n : Int) 1 = n := by simpa only [Int.natCast_one, Int.mul_one] using rneDiv_mul n 1 Nat.one_pos
  simp only [gridMag, h, Int.zero_emod, if_true, Int.zero_ediv, Int.le_refl, Int.toNat_zero, Nat.pow_zero, Nat.mul_one, hself,
    Int.toNat_natCast]

/-- A rational magnitude on the grid `2 ^ (-f)` is one rounded quotient. -/
theorem gridMag_rational (n d f : Nat) : (gridMag n d 0 f : Int) = rneDiv ((n * 2 ^ f : Nat) : Int) d := by
  have he : (0 : Int) + 256 * f = 256 * f := Int.zero_add _
  have hmod : (256 * (f : Int)) % 256 = 0 := by omega
  have hdiv : (256 * (f : Int)) / 256 = f := by omega
  have hf : (0 : Int) ≤ f := by omega
  simp only [gridMag, he, hmod, hdiv, hf, if_true, Int.toNat_natCast]
  exact Int.toNat_of_nonneg (rneDiv_nonneg _ _ (Int.natCast_nonneg _))

theorem gridLimit_pos : 0 < gridLimit := by decide

/-- A quotient rounded beyond the limit belongs to a value half a unit beyond it. -/
theorem beyond_of_rneDiv {N d g lim : Nat} (hd : 0 < d) (hg : (g : Int) = rneDiv (N : Int) d) (hlim : lim < g) :
    (2 * lim + 1) * d ≤ 2 * N := by
  have hnear := (rneDiv_nearest (N : Int) d hd).1
  rw [← hg, ← Int.natCast_mul] at hnear
  have hgd : (lim + 1) * d ≤ g * d := Nat.mul_le_mul_right d hlim
  have hsplit : (2 * lim + 1) * d + d = 2 * ((lim + 1) * d) := by
    rw [← Nat.succ_mul, ← Nat.mul_assoc]; rfl
  omega

/-- A rational value on the grid: its rounded magnitude, held at the limit, with its sign. -/
theorem place_rational (n : Int) (d fx : Nat) : place fx (.num n d 0 false) =
    let g := gridMag n.natAbs d 0 fx
    ⟨if n < 0 then -((min g gridLimit : Nat) : Int) else (min g gridLimit : Nat), decide (gridLimit < g), false⟩ := by
  have hmin (g : Nat) : (if g > gridLimit then (gridLimit : Int) else (g : Int)) = ((min g gridLimit : Nat) : Int) := by
    split <;> omega
  simp only [place, hmin]

/-- A value that is its magnitude with a sign, scaled. -/
theorem mul_two_pow_of_neg {n : Int} (f : Nat) (h : n < 0) : n * 2 ^ f = -((n.natAbs * 2 ^ f : Nat) : Int) := by
  have habs : n = -(n.natAbs : Int) := by omega
  rw [Int.natCast_mul, natCast_two_pow, ← Int.neg_mul, ← habs]

theorem mul_two_pow_of_nonneg {n : Int} (f : Nat) (h : 0 ≤ n) : n * 2 ^ f = ((n.natAbs * 2 ^ f : Nat) : Int) := by
  have habs : n = (n.natAbs : Int) := by omega
  rw [Int.natCast_mul, natCast_two_pow, ← habs]

/-- A value whose rounded magnitude is within the limit is placed at the nearest integer, an even one where two are nearest. -/
theorem place_within {n : Int} {d fx : Nat} (hd : 0 < d) (hsat : (place fx (.num n d 0 false)).sat = false) :
    2 * ((place fx (.num n d 0 false)).n * d - n * 2 ^ fx).natAbs ≤ d ∧
      (2 * ((place fx (.num n d 0 false)).n * d - n * 2 ^ fx).natAbs = d → (place fx (.num n d 0 false)).n % 2 = 0) := by
  rw [place_rational] at hsat ⊢
  have hg := gridMag_rational n.natAbs d fx
  generalize gridMag n.natAbs d 0 fx = g at hsat hg ⊢
  obtain ⟨hnear, heven⟩ := rneDiv_nearest ((n.natAbs * 2 ^ fx : Nat) : Int) d hd
  rw [← hg] at hnear heven
  have hmin : min g gridLimit = g := Nat.min_eq_left (by simpa using hsat)
  simp only [hmin]
  split <;> rename_i hn
  · have hneg : -(g : Int) * d - n * 2 ^ fx = -((g : Int) * d - ((n.natAbs * 2 ^ fx : Nat) : Int)) := by
      rw [mul_two_pow_of_neg fx hn, Int.neg_mul]; omega
    rw [hneg, Int.natAbs_neg]
    exact ⟨hnear, fun h => by have := heven h; omega⟩
  · rw [mul_two_pow_of_nonneg fx (Int.not_lt.mp hn)]
    exact ⟨hnear, heven⟩

/-- A value whose rounded magnitude is beyond the limit is placed at the limit with its sign. -/
theorem place_beyond {n : Int} {d fx : Nat} (hd : 0 < d) (hsat : (place fx (.num n d 0 false)).sat = true) :
    (place fx (.num n d 0 false)).n.natAbs = gridLimit ∧ ((place fx (.num n d 0 false)).n < 0 ↔ n < 0) ∧
      (2 * gridLimit + 1) * d ≤ 2 * n.natAbs * 2 ^ fx := by
  rw [place_rational] at hsat ⊢
  have hg := gridMag_rational n.natAbs d fx
  generalize gridMag n.natAbs d 0 fx = g at hsat hg ⊢
  have hlim : gridLimit < g := by simpa using hsat
  have hmin : min g gridLimit = gridLimit := Nat.min_eq_right (Nat.le_of_lt hlim)
  have hpos := gridLimit_pos
  simp only [hmin]
  refine ⟨by split <;> omega, by split <;> omega, ?_⟩
  rw [Nat.mul_assoc]
  exact beyond_of_rneDiv hd hg hlim

theorem place_natAbs_le (n : Int) (d fx : Nat) : (place fx (.num n d 0 false)).n.natAbs ≤ gridLimit := by
  simp only [place_rational]
  split <;> omega

/-! ### Float codes -/

/-- What the parameters of a float format have in common: an implicit bit, and magnitudes below the sign bit. -/
theorem float_params {f : Fmt} (h : f.isFloat = true) :
    0 < f.prec ∧ 0 < f.width ∧ f.maxMag < 2 ^ (f.width - 1) ∧ f.infMag < 2 ^ (f.width - 1) ∧ f.nanCode < 2 ^ f.width := by
  cases f <;> simp [Fmt.isFloat] at h <;> decide

/-- The sign bit of a code. -/
def signPart (w : Nat) (neg : Bool) : Nat := if neg then 2 ^ (w - 1) else 0

/-- A code is its sign bit and its magnitude. -/
theorem signPart_add_mod {w code : Nat} (hw : 0 < w) (h : code < 2 ^ w) :
    signPart w (bit code (w - 1)) + code % 2 ^ (w - 1) = code := by
  obtain ⟨v, rfl⟩ := Nat.exists_eq_succ_of_ne_zero (Nat.ne_of_gt hw)
  simp only [Nat.succ_eq_add_one, Nat.add_sub_cancel, Nat.pow_succ] at *
  have hdiv := Nat.div_add_mod code (2 ^ v)
  have hq : code / 2 ^ v < 2 := Nat.div_lt_of_lt_mul (by omega)
  rcases Nat.le_one_iff_eq_zero_or_eq_one.mp (Nat.le_of_lt_succ hq) with h0 | h0 <;> rw [h0] at hdiv <;>
    simp [signPart, bit, h0] <;> omega

theorem signPart_add_lt {w mag : Nat} {neg : Bool} (hw : 0 < w) (h : mag < 2 ^ (w - 1)) : signPart w neg + mag < 2 ^ w := by
  have : 2 ^ w = 2 * 2 ^ (w - 1) := by rw [← Nat.pow_succ', Nat.succ_eq_add_one, Nat.sub_add_cancel hw]
  simp only [signPart]
  split <;> omega

/-- The logarithm of an integer magnitude. -/
theorem floorLog2Ratio_one {n : Nat} (h : n ≠ 0) : floorLog2Ratio n 1 = Nat.log2 n := by
  have hle : 2 ^ Nat.log2 n ≤ n := Nat.log2_self_le h
  have h1 : Nat.log2 1 = 0 := by decide
  have hl : (0 : Int) ≤ Nat.log2 n := Int.natCast_nonneg _
  simp only [floorLog2Ratio, log2, h1, Int.natCast_zero, Int.sub_zero, hl, if_true, Int.toNat_natCast, Nat.one_mul,
    Nat.not_lt.mpr hle]
  rfl

/-- The significand that a float magnitude of `mb` fraction bits stands for, and how far its last place lies above the least one. -/
def floatSig (mb mag : Nat) : Nat := if mag / 2 ^ mb = 0 then mag % 2 ^ mb else mag % 2 ^ mb + 2 ^ mb
def floatShift (mb mag : Nat) : Nat := mag / 2 ^ mb - 1

/-- The exponent of the last place of a float magnitude. -/
def floatExp (f : Fmt) (mag : Nat) : Int := f.emin - (f.prec - 1 : Nat) + floatShift (f.prec - 1) mag

/-- The value of a finite float code. -/
theorem decodeFloat_finite {f : Fmt} {code : Nat} (h : (decodeFloat f code).nonfinite = false) :
    code % 2 ^ (f.width - 1) ≤ f.maxMag ∧ decodeFloat f code =
      let mag := code % 2 ^ (f.width - 1)
      let m : Int := floatSig (f.prec - 1) mag
      .num (if bit code (f.width - 1) then -m else m) 1 (256 * floatExp f mag) (bit code (f.width - 1) && m == 0) := by
  have hmag : code % 2 ^ (f.width - 1) ≤ f.maxMag := by
    refine Nat.le_of_not_lt fun hgt => ?_
    simp only [decodeFloat, gt_iff_lt, hgt, if_true] at h
    split at h <;> cases h
  refine ⟨hmag, ?_⟩
  simp only [decodeFloat, gt_iff_lt, Nat.not_lt.mpr hmag, if_false, floatSig, floatExp, floatShift]
  by_cases he : code % 2 ^ (f.width - 1) / 2 ^ (f.prec - 1) = 0
  · simp [he]
  · simp only [he, if_false, Int.natCast_add, natCast_two_pow, natCast_pred he, Int.add_sub_assoc]

/-- A magnitude is its significand, raised by its shift. -/
theorem floatSig_add_shift (mb mag : Nat) : floatSig mb mag + floatShift mb mag * 2 ^ mb = mag := by
  have hdiv := Nat.mod_add_div' mag (2 ^ mb)
  simp only [floatSig, floatShift]
  split <;> rename_i he
  · simp only [he] at hdiv ⊢; omega
  · obtain ⟨e, he'⟩ := Nat.exists_eq_succ_of_ne_zero he
    rw [he', Nat.succ_mul] at hdiv
    simp only [he', Nat.succ_sub_one]
    omega

/-- A significand is below twice the implicit bit, and reaches it where the shift is not 0. -/
theorem floatSig_bounds (mb mag : Nat) : floatSig mb mag < 2 ^ (mb + 1) ∧ (floatShift mb mag ≠ 0 → 2 ^ mb ≤ floatSig mb mag) := by
  have hlt : mag % 2 ^ mb < 2 ^ mb := Nat.mod_lt _ (Nat.two_pow_pos mb)
  have hpow : 2 ^ (mb + 1) = 2 * 2 ^ mb := Nat.pow_succ'
  simp only [floatSig, floatShift]
  split <;> omega

/-- The logarithm of a significand: below the implicit bit's place for a shift of 0 only. -/
theorem log2_floatSig {mb mag : Nat} (h : floatSig mb mag ≠ 0) :
    Nat.log2 (floatSig mb mag) ≤ mb ∧ (floatShift mb mag ≠ 0 → Nat.log2 (floatSig mb mag) = mb) := by
  obtain ⟨hlt, hge⟩ := floatSig_bounds mb mag
  have hle : Nat.log2 (floatSig mb mag) ≤ mb := Nat.le_of_lt_succ ((Nat.log2_lt h).mpr hlt)
  exact ⟨hle, fun hs => Nat.le_antisymm hle ((Nat.le_log2 h).mpr (hge hs))⟩

/-- Rounding the value of a finite magnitude places it on its own last place. -/
theorem max_log2_floatSig {f : Fmt} {mag : Nat} (hp : 0 < f.prec) (h : floatSig (f.prec - 1) mag ≠ 0) :
    max (((Nat.log2 (floatSig (f.prec - 1) mag) : Nat) : Int) + floatExp f mag) f.emin - (f.prec - 1) = floatExp f mag := by
  obtain ⟨hle, heq⟩ := log2_floatSig h
  simp only [floatExp]
  by_cases hs : floatShift (f.prec - 1) mag = 0
  · rw [hs]; omega
  · rw [heq hs]; omega

/-- A zero keeps its sign (02 R50). -/
theorem toFloat_zero (f : Fmt) (sat neg : Bool) (d : Nat) (k : Int) :
    toFloat f sat 0 d k neg = ⟨signPart f.width neg, false, false⟩ := by
  simp [toFloat, signPart]

/-- An integer multiple of its own last place, within the largest finite value, rounds to its own significand. -/
theorem toFloat_of_lsb {f : Fmt} {m : Nat} {ex : Int} (hm : m ≠ 0)
    (hlsb : max ((Nat.log2 m : Int) + ex) f.emin - (f.prec - 1) = ex)
    (hmax : m + (ex - (f.emin - (f.prec - 1))).toNat * 2 ^ (f.prec - 1) ≤ f.maxMag) (sat neg : Bool) :
    toFloat f sat (if neg then -(m : Int) else m) 1 (256 * ex) false =
      ⟨signPart f.width neg + (m + (ex - (f.emin - (f.prec - 1))).toNat * 2 ^ (f.prec - 1)), false, false⟩ := by
  have habs : (if neg = true then -(m : Int) else m).natAbs = m := by split <;> omega
  have hne : (if neg = true then -(m : Int) else m) ≠ 0 := by split <;> omega
  have hneg : (if neg = true then -(m : Int) else m) < 0 ↔ neg = true := by cases neg <;> simp; omega
  have hk : (256 * ex) % 256 = 0 := by omega
  have hk' : (256 * ex) / 256 = ex := by omega
  have hgrid : gridMag m 1 (256 * ex) (-ex) = m := gridMag_on_grid _ (by omega)
  simp only [toFloat, hne, if_false, habs, hk, if_true, hk', floorLog2Ratio_one hm, hlsb, hgrid, hm, gt_iff_lt, Nat.not_lt.mpr hmax]
  simp [signPart, hneg]

/-- A finite significand and its sign round to the magnitude they came from (02 R50). -/
theorem toFloat_floatSig {f : Fmt} {mag : Nat} (hf : f.isFloat = true) (h : mag ≤ f.maxMag) (sat neg : Bool) :
    toFloat f sat (if neg then -(floatSig (f.prec - 1) mag : Int) else floatSig (f.prec - 1) mag) 1 (256 * floatExp f mag)
      (neg && (floatSig (f.prec - 1) mag : Int) == 0) = ⟨signPart f.width neg + mag, false, false⟩ := by
  obtain ⟨hp, -⟩ := float_params hf
  have hsum := floatSig_add_shift (f.prec - 1) mag
  by_cases hm : floatSig (f.prec - 1) mag = 0
  · have hshift : floatShift (f.prec - 1) mag = 0 := by
      refine Decidable.byContradiction fun hs => ?_
      have hge := (floatSig_bounds (f.prec - 1) mag).2 hs
      have hpos := Nat.two_pow_pos (f.prec - 1)
      omega
    have hmag : mag = 0 := by rw [← hsum, hm, hshift]; simp
    rw [hm]
    simp [toFloat_zero, hmag]
  · have hshift : (floatExp f mag - (f.emin - (f.prec - 1))).toNat = floatShift (f.prec - 1) mag := by
      simp only [floatExp]; omega
    have hz : (neg && (floatSig (f.prec - 1) mag : Int) == 0) = false := by simp [hm]
    rw [hz, toFloat_of_lsb hm (max_log2_floatSig hp hm) (by rw [hshift, hsum]; exact h), hshift, hsum]

/-- A float format converts a finite value by one rounding. -/
theorem convertEV_float {f : Fmt} (hf : f.isFloat = true) (fx : Nat) (sat keep : Bool) (zp n : Int) (d : Nat) (k : Int) (z : Bool) :
    convertEV f fx sat keep zp (.num n d k z) = toFloat f sat n d k z := by
  cases f <;> simp [Fmt.isFloat] at hf <;> rfl

/-- The value of a finite float code converts to that code (02 R35, R50). -/
theorem convertEV_decodeFloat {f : Fmt} {code : Nat} (hf : f.isFloat = true) (hc : code < 2 ^ f.width)
    (hfin : (decodeFloat f code).nonfinite = false) (fx : Nat) (sat keep : Bool) (zp : Int) :
    convertEV f fx sat keep zp (decodeFloat f code) = ⟨code, false, false⟩ := by
  obtain ⟨-, hw, -⟩ := float_params hf
  obtain ⟨hmag, hval⟩ := decodeFloat_finite hfin
  rw [hval, convertEV_float hf, toFloat_floatSig hf hmag, signPart_add_mod hw hc]

/-! ### LNS codes -/

/-- What the parameters of an LNS format have in common. -/
theorem lns_params {f : Fmt} (h : f.isLns = true) :
    0 < f.width ∧ 0 < f.logStep ∧ 0 ≤ f.logMax ∧ 2 * (f.logMax + 1) = 2 ^ (f.width - 1) ∧ f.zeroCode 0 < 2 ^ f.width := by
  cases f <;> simp [Fmt.isLns] at h <;> decide

/-- An LNS format converts a finite value by its logarithm. -/
theorem convertEV_lns {f : Fmt} (hf : f.isLns = true) (fx : Nat) (sat keep : Bool) (zp n : Int) (d : Nat) (k : Int) (z : Bool) :
    convertEV f fx sat keep zp (.num n d k z) = toLns f n d k := by
  cases f <;> simp [Fmt.isLns] at hf <;> rfl

/-- A power of two whose exponent is a log field is nearest to that field. -/
theorem nearestLog_one {f : Fmt} (hstep : 0 < f.logStep) (j : Int) : nearestLog f 1 1 (j * f.logStep) = j := by
  have hcast : ((f.logStep.toNat : Nat) : Int) = f.logStep := Int.toNat_of_nonneg (Int.le_of_lt hstep)
  have h := rneDiv_mul j f.logStep.toNat (by omega)
  rw [hcast] at h
  simpa [nearestLog, floorLog2Ratio, log2] using h

/-- The value of an LNS code that is not zero converts to that code, and counts the saturation code (02 R38, R39, R51). -/
theorem convertEV_decodeLns {f : Fmt} {code : Nat} (hf : f.isLns = true) (hc : code < 2 ^ f.width)
    (hnz : (decodeLns f code).isZero = false) (fx : Nat) (sat keep : Bool) (zp : Int) :
    convertEV f fx sat keep zp (decodeLns f code) = ⟨code, lnsLog f code == f.logMax, false⟩ := by
  obtain ⟨hw, hstep, hmax0, hrange, -⟩ := lns_params hf
  have hb := signed_bounds (f.width - 1) code
  have hcode := unsigned_signed (f.width - 1) code
  have hsplit := signPart_add_mod hw hc
  have hk : signed (f.width - 1) code ≠ -(f.logMax + 1) := by
    intro h
    simp [decodeLns, h, EV.zero, EV.isZero] at hnz
  have hval : decodeLns f code =
      .num (if bit code (f.width - 1) then -1 else 1) 1 (signed (f.width - 1) code * f.logStep) false := by
    simp only [decodeLns, hk, if_false]
  rw [hval, convertEV_lns hf, lnsLog]
  generalize signed (f.width - 1) code = j at *
  have hlow : ¬ j ≤ -(f.logMax + 1) := by omega
  have hn : (if bit code (f.width - 1) = true then (-1 : Int) else 1).natAbs = 1 := by split <;> rfl
  have hn0 : (if bit code (f.width - 1) = true then (-1 : Int) else 1) ≠ 0 := by split <;> decide
  have hneg : (if bit code (f.width - 1) = true then (-1 : Int) else 1) < 0 ↔ bit code (f.width - 1) = true := by
    cases bit code (f.width - 1) <;> simp
  simp only [toLns, hn0, if_false, hn, nearestLog_one hstep, hlow, hneg]
  rw [← signPart]
  by_cases htop : j = f.logMax
  · have hu : unsigned (f.width - 1) j = f.logMax.toNat := by rw [unsigned_of_nonneg (by omega) (by omega), htop]
    rw [hu] at hcode
    simp [htop, hcode, hsplit]
  · have hbelow : ¬ f.logMax ≤ j := by omega
    simp [hbelow, htop, hcode, hsplit]

/-! ### Integer codes and XACC -/

/-- An integer value is its own magnitude on the unit grid. -/
theorem toInt_ofInt (f : Fmt) (zp i : Int) : toInt f zp (.ofInt i) =
    ⟨unsigned f.width (clampInt (i + zp) f.qmin f.qmax), i + zp < f.qmin || i + zp > f.qmax, false⟩ := by
  have hg : gridMag i.natAbs 1 0 0 = i.natAbs := gridMag_on_grid _ rfl
  have hi : (if i < 0 then -(i.natAbs : Int) else i.natAbs) = i := by split <;> omega
  simp only [EV.ofInt, toInt, hg, hi]

/-- The codes of an integer format are the numbers of its range. -/
theorem signed_mem_range {f : Fmt} (hf : f.isInt = true) (code : Nat) :
    f.qmin ≤ signed f.width code ∧ signed f.width code ≤ f.qmax := by
  have hb := signed_bounds f.width code
  cases f <;> simp [Fmt.isInt] at hf <;> simp [Fmt.width, Fmt.qmin, Fmt.qmax] at * <;> omega

/-- Every code of an integer format comes back from its value, whatever the zero point (02 R49). -/
theorem convertEV_int {f : Fmt} {code : Nat} (hf : f.isInt = true) (hc : code < 2 ^ f.width) (fx : Nat) (sat keep : Bool) (zp : Int) :
    convertEV f fx sat keep zp (.ofInt (signed f.width code - zp)) = ⟨code, false, false⟩ := by
  obtain ⟨hlo, hhi⟩ := signed_mem_range hf code
  have hconv : ∀ v, convertEV f fx sat keep zp v = toInt f zp v := by
    intro v; cases f <;> simp [Fmt.isInt] at hf <;> rfl
  have hclamp : clampInt (signed f.width code) f.qmin f.qmax = signed f.width code := by
    simp only [clampInt, gt_iff_lt, Int.not_lt.mpr hlo, Int.not_lt.mpr hhi, if_false]
  rw [hconv, toInt_ofInt, Int.sub_add_cancel, hclamp, unsigned_signed_of_lt hc]
  simp [hlo, hhi]

/-- A stored XACC integer within the limit of a placed value comes back (02 R40, R42). -/
theorem convertEV_decodeXacc {fx code : Nat} (hc : code < 2 ^ 64) (h : (signed 64 code).natAbs ≤ gridLimit) (sat keep : Bool) (zp : Int) :
    convertEV .xacc fx sat keep zp (decodeCode .xacc fx code) = ⟨code, false, false⟩ := by
  have hg : gridMag (signed 64 code).natAbs 1 (-256 * fx) fx = (signed 64 code).natAbs := gridMag_on_grid _ (by omega)
  have hi : (if signed 64 code < 0 then -((signed 64 code).natAbs : Int) else (signed 64 code).natAbs) = signed 64 code := by
    split <;> omega
  simp only [convertEV, decodeCode, place, hg, gt_iff_lt, Nat.not_lt.mpr h, if_false, hi, unsigned_signed_of_lt hc]
  rfl

/-! ### The width of a code -/

theorem toFloat_lt {f : Fmt} (hf : f.isFloat = true) (sat : Bool) (n : Int) (d : Nat) (k : Int) (z : Bool) :
    (toFloat f sat n d k z).code < 2 ^ f.width := by
  obtain ⟨-, hw, hmax, hinf, -⟩ := float_params hf
  have hinf' : f.infMag < 2 ^ f.width := Nat.lt_of_lt_of_le hinf (Nat.pow_le_pow_right (by decide) (Nat.sub_le _ _))
  have hs : ∀ mag, mag < 2 ^ (f.width - 1) → (if n < 0 || z then 2 ^ (f.width - 1) else 0) + mag < 2 ^ f.width :=
    fun mag h => signPart_add_lt (neg := n < 0 || z) hw h
  have hs0 := hs 0 (Nat.two_pow_pos _)
  simp only [toFloat]
  generalize (if n < 0 || z then 2 ^ (f.width - 1) else 0) = sign at hs hs0 ⊢
  generalize (if k % 256 = 0 then _ else _ : Int) = e
  repeat' split
  · exact hs0
  · exact hs0
  · exact hs _ hmax
  · exact hinf'
  · exact hs _ hinf
  · exact hs _ (Nat.lt_of_le_of_lt (Nat.not_lt.mp ‹_›) hmax)

theorem toLns_lt {f : Fmt} (hf : f.isLns = true) (n : Int) (d : Nat) (k : Int) : (toLns f n d k).code < 2 ^ f.width := by
  obtain ⟨hw, -, hmax0, hrange, hzero⟩ := lns_params hf
  have hs : ∀ mag, mag < 2 ^ (f.width - 1) → (if n < 0 then 2 ^ (f.width - 1) else 0) + mag < 2 ^ f.width := by
    intro mag h
    simpa [signPart] using signPart_add_lt (neg := decide (n < 0)) hw h
  have hcast := natCast_two_pow (f.width - 1)
  have hmax : f.logMax.toNat < 2 ^ (f.width - 1) := by omega
  simp only [toLns]
  generalize (if n < 0 then 2 ^ (f.width - 1) else 0) = sign at hs ⊢
  repeat' split
  · exact hzero
  · exact hzero
  · exact hs _ hmax
  · exact hs _ (unsigned_lt _ _)

theorem toInt_lt (f : Fmt) (zp : Int) (v : EV) : (toInt f zp v).code < 2 ^ f.width := by
  cases v <;> exact unsigned_lt _ _

/-- A conversion into a float format fits: its NaN, its overflow codes and its rounded values. -/
theorem convertEV_float_lt {f : Fmt} (hf : f.isFloat = true) (fx : Nat) (sat keep : Bool) (zp : Int) (v : EV) :
    (convertEV f fx sat keep zp v).code < 2 ^ f.width := by
  obtain ⟨-, -, -, -, hnan⟩ := float_params hf
  cases v with
  | nan =>
    have hcode : (convertEV f fx sat keep zp .nan).code = f.nanCode := by cases f <;> simp [Fmt.isFloat] at hf <;> rfl
    rw [hcode]; exact hnan
  | inf s =>
    cases f <;> simp [Fmt.isFloat] at hf <;> revert s sat keep <;> simp only [convertEV] <;> decide
  | num n d k z => rw [convertEV_float hf]; exact toFloat_lt hf sat n d k z

/-- A conversion into an LNS format fits: its zero, its saturation code and its rounded values. -/
theorem convertEV_lns_lt {f : Fmt} (hf : f.isLns = true) (fx : Nat) (sat keep : Bool) (zp : Int) (v : EV) :
    (convertEV f fx sat keep zp v).code < 2 ^ f.width := by
  obtain ⟨hw, -, hmax0, hrange, hzero⟩ := lns_params hf
  have hcast := natCast_two_pow (f.width - 1)
  cases v with
  | nan =>
    have hcode : (convertEV f fx sat keep zp .nan).code = f.zeroCode 0 := by cases f <;> simp [Fmt.isLns] at hf <;> rfl
    rw [hcode]; exact hzero
  | inf s =>
    have hcode : (convertEV f fx sat keep zp (.inf s)).code = signPart f.width s + f.logMax.toNat := by
      cases f <;> simp [Fmt.isLns] at hf <;> rfl
    rw [hcode]; exact signPart_add_lt hw (by omega)
  | num n d k z => rw [convertEV_lns hf]; exact toLns_lt hf n d k

/-- A conversion of any value into any format fits the format's width (02 R35). -/
theorem convertEV_lt (f : Fmt) (fx : Nat) (sat keep : Bool) (zp : Int) (v : EV) :
    (convertEV f fx sat keep zp v).code < 2 ^ f.width := by
  cases f with
  | fp32 | bf16 | fp16 | e4m3 | e5m2 => exact convertEV_float_lt rfl fx sat keep zp v
  | lns16 | lns8 => exact convertEV_lns_lt rfl fx sat keep zp v
  | int8 | int4 => exact toInt_lt _ zp v
  | xacc => exact unsigned_lt _ _

/-- Settles O29: each kind of code by its own lemma, the width of any conversion, and the rounding of a placed rational. -/
theorem codesConvertToThemselves : Obligations.CodesConvertToThemselves := by
  unfold Obligations.CodesConvertToThemselves
  refine ⟨fun f fx sat keep zp code hc => ⟨?_, ?_, ?_, ?_⟩, convertEV_lt, ?_⟩
  · exact fun hf hfin => convertEV_decodeFloat hf hc hfin fx sat keep zp
  · exact fun hf hnz => convertEV_decodeLns hf hc hnz fx sat keep zp
  · exact fun hf _ _ => convertEV_int hf hc fx sat keep zp
  · rintro rfl h
    exact convertEV_decodeXacc hc h sat keep zp
  · exact fun n d fx hd => ⟨_, rfl, rfl, place_natAbs_le n d fx, place_within hd, place_beyond hd⟩

end Sys2Proof.Proofs

/-! PROOFS. Operations offered for issue (06 R116 to R120): finding and replacing a thread, what a decision says of its thread, what
a stop leaves unchanged, when the engines and the pools start nothing, and how the commands of the operation rows come down to the
decision on the thread's next operation. -/

namespace Sys2Proof.Proofs

open Sys2Proof Sys2Proof.Machine Sys2Proof.Laws

/-! ### Finding and replacing a thread -/

theorem id_of_thread {s : State} {t : ThreadId} {th : Thread} (h : s.thread t = some th) : th.id = t := by
  simpa using List.find?_some h

theorem mem_of_thread {s : State} {t : ThreadId} {th : Thread} (h : s.thread t = some th) : th ∈ s.threads :=
  List.mem_of_find?_eq_some h

theorem thread_of_threads_eq {s u : State} (h : u.threads = s.threads) (t : ThreadId) : u.thread t = s.thread t := by
  simp only [State.thread, h]

theorem setThread_threads (s : State) (x : Thread) : (s.setThread x).threads = s.threads.map fun u => if u.id = x.id then x else u := rfl

/-- A context listed in State reads as what replaced it. -/
theorem thread_setThread_same {s : State} {x y : Thread} (h : s.thread x.id = some y) : (s.setThread x).thread x.id = some x := by
  have hid (u : Thread) : ((if u.id = x.id then x else u).id == x.id) = (u.id == x.id) := by
    by_cases hu : u.id = x.id <;> simp [hu]
  have hy : s.threads.find? (fun u => u.id == x.id) = some y := h
  simp only [State.thread, setThread_threads, List.find?_map, Function.comp_def, hid, hy, Option.map_some, id_of_thread h, if_true]

/-- A thread of the state after a replacement is the new one or was there before. -/
theorem mem_setThread {s : State} {x u : Thread} (h : u ∈ (s.setThread x).threads) : u = x ∨ u ∈ s.threads := by
  rw [setThread_threads] at h
  obtain ⟨v, hv, rfl⟩ := List.mem_map.mp h
  split
  · exact .inl rfl
  · exact .inr hv

/-! ### What a decision says -/

/-- An operation that is due is the next one of a READY thread's list. -/
theorem thread_of_dueOp {s : State} {t : ThreadId} {r : OpRow} {th : Thread} {c : CurList} {o : Except Status Op}
    (h : s.dueOp t r = some (th, c, o)) : s.thread t = some th := by
  unfold State.dueOp at h
  split at h
  · cases h
  · rename_i y hy
    split at h
    · cases h
    · split at h
      · cases h; exact hy
      · cases h

/-- The thread that a decision names, where it names one. -/
def issueThread : Issue → Option Thread
  | .idle => none
  | .stop th _ => some th
  | .fenced th _ => some th
  | .blocked th _ => some th
  | .go th _ _ _ => some th

/-- A decision names the thread of its context. -/
theorem thread_of_decideOp {s : State} {t : ThreadId} {r : OpRow} {f : OpFn} {th : Thread}
    (h : issueThread (s.decideOp t r f) = some th) : s.thread t = some th := by
  unfold State.decideOp at h
  split at h
  · cases h
  · rename_i hdue; cases h; exact thread_of_dueOp hdue
  · rename_i y c o hdue
    have hy := thread_of_dueOp hdue
    split at h
    · cases h; exact hy
    · split at h
      · cases h; exact hy
      · split at h
        · cases h; exact hy
        · split at h <;> cases h <;> exact hy

/-! ### What a stop leaves -/

/-- A stopped thread: its status, and its queued lists gone (06 R120). -/
def halted (th : Thread) (st : Status) : Thread :=
  { th with state := .stopped, status := st, queue := [], late := [], waiting := none }

@[simp] theorem unitEvents_mem (s : State) (t : ThreadId) (es : List (Nat × Nat)) : (s.unitEvents t es).mem = s.mem := by
  unfold State.unitEvents
  induction es generalizing s with
  | nil => rfl
  | cons e es ih => rw [List.foldl_cons, ih, event_mem]

@[simp] theorem unitEvents_threads (s : State) (t : ThreadId) (es : List (Nat × Nat)) : (s.unitEvents t es).threads = s.threads := by
  unfold State.unitEvents
  induction es generalizing s with
  | nil => rfl
  | cons e es ih => rw [List.foldl_cons, ih, event_threads]

@[simp] theorem condemned_mem (s : State) (th : Thread) (st : Status) : (s.condemned th st).mem = s.mem := by
  unfold State.condemned; split <;> rfl

@[simp] theorem condemned_threads (s : State) (th : Thread) (st : Status) : (s.condemned th st).threads = s.threads := by
  unfold State.condemned; split <;> rfl

@[simp] theorem releasePools_mem (s : State) (n : Nat) : (s.releasePools n).mem = s.mem := rfl
@[simp] theorem releasePools_threads (s : State) (n : Nat) : (s.releasePools n).threads = s.threads := rfl
@[simp] theorem releaseRegions_mem (s : State) (n : Nat) : (s.releaseRegions n).mem = s.mem := rfl
@[simp] theorem releaseRegions_threads (s : State) (n : Nat) : (s.releaseRegions n).threads = s.threads := rfl

/-- The end of a stream or job leaves memory and the contexts. -/
@[simp] theorem stopOwner_mem (s : State) (th : Thread) (st : Status) : (s.stopOwner th st).mem = s.mem := by
  unfold State.stopOwner State.stopJob State.stopStream
  repeat' split
  all_goals simp

@[simp] theorem stopOwner_threads (s : State) (th : Thread) (st : Status) : (s.stopOwner th st).threads = s.threads := by
  unfold State.stopOwner State.stopJob State.stopStream
  repeat' split
  all_goals simp

@[simp] theorem tileDamage_mem (s : State) (n p t c d : Nat) : (s.tileDamage n p t c d).mem = s.mem := by
  unfold State.tileDamage; split <;> rfl

@[simp] theorem tileDamage_threads (s : State) (n p t c d : Nat) : (s.tileDamage n p t c d).threads = s.threads := by
  unfold State.tileDamage; split <;> rfl

@[simp] theorem haltThread_mem (s : State) (th : Thread) (st : Status) : (s.haltThread th st).mem = s.mem := by
  simp [State.haltThread]

@[simp] theorem haltThread_threads (s : State) (th : Thread) (st : Status) :
    (s.haltThread th st).threads = (s.setThread (halted th st)).threads := by
  simp [State.haltThread, setThread_threads, halted]

/-- A stop writes no memory. -/
@[simp] theorem stopWith_mem (s : State) (th : Thread) (x : Stop) : (s.stopWith th x).mem = s.mem := by
  unfold State.stopWith State.stopThread
  repeat' split
  all_goals simp

/-- A stop replaces its thread by the halted one and leaves every other context. -/
@[simp] theorem stopWith_threads (s : State) (th : Thread) (x : Stop) :
    (s.stopWith th x).threads = (s.setThread (halted th x.status)).threads := by
  unfold State.stopWith State.stopThread
  repeat' split
  all_goals simp [setThread_threads]

/-! ### Pools and lanes that start nothing -/

/-- Where no thread waits for a buffer, the pools wake none. -/
theorem wakePools_of_noneWaits {s : State} (h : s.noneWaits) : s.wakePools = s := by
  unfold State.wakePools
  rw [List.filter_eq_nil_iff.mpr]
  · rfl
  · intro t ht
    split
    · rename_i g hw; exact absurd hw (h t ht g)
    · simp

/-- Replacing a thread by one that waits for no buffer. -/
theorem noneWaits_of_threads {s u : State} {x : Thread} (hu : u.threads = (s.setThread x).threads) (h : s.noneWaits)
    (hx : ∀ g, x.waiting ≠ some (.pool, g)) : u.noneWaits := by
  intro y hy
  rcases mem_setThread (hu ▸ hy) with rfl | hy
  · exact hx
  · exact h y hy

/-- Replacing a thread by one with the same outstanding operations. -/
theorem lanesStand_of_threads {s u : State} {th x : Thread} {die region : Nat} (hu : u.threads = (s.setThread x).threads)
    (hth : th ∈ s.threads) (hid : x.id = th.id) (hout : x.out = th.out) (h : s.lanesStand die region) : u.lanesStand die region := by
  have hsame : ∀ y ∈ u.threads, y.at die .lane region = true →
      ∃ z ∈ s.threads, z.at die .lane region = true ∧ z.out = y.out := by
    intro y hy hat
    rcases mem_setThread (hu ▸ hy) with rfl | hy
    · exact ⟨th, hth, by simpa [Thread.at, hid] using hat, hout.symm⟩
    · exact ⟨y, hy, hat, rfl⟩
  refine ⟨fun y hy hat => ?_, fun y hy hat => ?_⟩ <;> obtain ⟨z, hz, hzat, hzout⟩ := hsame y hy hat <;> rw [← hzout]
  · exact h.1 z hz hzat
  · exact h.2 z hz hzat

/-- Where every lane operation runs or is done, none is next to be taken. -/
theorem nextThread_of_lanesStand {s : State} {die region : Nat} (h : s.lanesStand die region) (last : Option ThreadId) :
    s.nextThread die .lane region last = none := by
  unfold State.nextThread
  rw [List.filter_eq_nil_iff.mpr]
  · rfl
  · intro t ht
    obtain ⟨hmem, hat⟩ := List.mem_filter.mp ht
    split
    · rename_i o ho
      have hnext := List.find?_some ho
      simp only [Bool.and_eq_true, beq_iff_eq, Bool.not_eq_true'] at hnext
      have htaken : o.taken.isSome = true := by
        rcases h.2 t hmem hat o (List.mem_of_find?_eq_some ho) hnext.1 with ht | hd
        · exact ht
        · rw [hd] at hnext; exact absurd hnext.2 (by simp)
      simp [State.mayTake, Option.isNone_eq_false_iff.mpr htaken]
    · simp

theorem takeChunks_of_lanesStand {s : State} {die region : Nat} (h : s.lanesStand die region) (last : Option ThreadId) (k : Nat) :
    s.takeChunks die .lane region last k = s := by
  cases k with
  | zero => rfl
  | succ k => simp [State.takeChunks, nextThread_of_lanesStand h]

/-- A thread whose lane operations have all begun starts none. -/
theorem startLane_of_lanesBegun {s : State} {die region : Nat} (h : s.lanesBegun die region) {t : ThreadId}
    (hat : ∀ th, s.thread t = some th → th.at die .lane region = true) : s.startLane t = s := by
  unfold State.startLane
  split
  · rfl
  · rename_i th hth
    split
    · rfl
    · rename_i o ho
      have hstart := List.find?_some ho
      simp only [Bool.and_eq_true, beq_iff_eq, Option.isNone_iff_eq_none] at hstart
      obtain ⟨⟨⟨hengine, -⟩, -⟩, hbank⟩ := hstart
      have hbegun := h th (mem_of_thread hth) (hat th hth) o (List.mem_of_find?_eq_some ho) hengine
      rw [hbank] at hbegun
      cases hbegun

/-- Lanes with no operation to start leave the state. -/
theorem runLanes_of_lanesStand {s : State} {die region : Nat} (h : s.lanesStand die region) (k : Nat) :
    s.runLanes die region k = s := by
  cases k with
  | zero => rfl
  | succ k =>
    have hstart : ∀ l : List Thread, (∀ x ∈ l, x.at die .lane region = true) → l.foldl (fun w t => w.startLane t.id) s = s := by
      intro l hl
      induction l with
      | nil => rfl
      | cons x xs ih =>
        have hx : s.startLane x.id = s := startLane_of_lanesBegun h.1 fun th hth => by
          have := hl x (by simp)
          simpa [Thread.at, id_of_thread hth] using this
        rw [List.foldl_cons, hx]
        exact ih fun y hy => hl y (by simp [hy])
    simp only [State.runLanes, takeChunks_of_lanesStand h]
    rw [hstart _ fun x hx => (List.mem_filter.mp hx).2, nextThread_of_lanesStand h]
    simp

/-! ### The commands of the operation rows -/

/-- How a command of an operation row is carried out: offered for issue, on a lane, as a prefetch or as an add. -/
inductive RowCommand (t : ThreadId) : Instr → OpRow → Engine → OpFn → Prop
  | issued (c row e f) (h : ∀ s, exec c s = issueOp s t row e f) : RowCommand t c row e f
  | lane (c row f) (hc : c = .enc t ∨ c = .dec t) (h : ∀ s, exec c s = issueLane s t row f) : RowCommand t c row .lane f
  | prefetch : RowCommand t (.prefetch t) rowPrefetch .agen prefetchWork
  | atomicAdd : RowCommand t (.atomicAdd t) rowAtomicAdd .fabric atomicAddWork

/-- Each listed row is of one of these kinds. -/
theorem rowCommand_of_engineRows {t : ThreadId} {c : Instr} {row : OpRow} {e : Engine} {f : OpFn}
    (h : (c, row, e, f) ∈ engineRows t) : RowCommand t c row e f := by
  suffices hall : ∀ x ∈ engineRows t, RowCommand t x.1 x.2.1 x.2.2.1 x.2.2.2 from hall _ h
  simp only [engineRows, List.forall_mem_cons]
  iterate 23 refine ⟨.issued _ _ _ _ fun _ => rfl, ?_⟩
  refine ⟨.lane _ _ _ (.inl rfl) fun _ => rfl, .lane _ _ _ (.inr rfl) fun _ => rfl, ?_⟩
  iterate 6 refine ⟨.issued _ _ _ _ fun _ => rfl, ?_⟩
  exact ⟨.prefetch, .atomicAdd, fun x hx => absurd hx List.not_mem_nil⟩

/-- Where nothing has been issued early, a prefetch is offered for issue like any other operation. -/
theorem execPrefetch_of_early {s : State} {t : ThreadId} (h : ∀ x, s.thread t = some x → x.early = []) :
    execPrefetch t s = issueOp s t rowPrefetch .agen prefetchWork := by
  unfold execPrefetch
  split
  · rename_i hp
    simp [issueOp, Bool.eq_false_iff.mpr (by simpa using hp)]
  · split
    · rename_i th c o hdue
      simp [h th (thread_of_dueOp hdue)]
    · rfl

/-- A thread with no add to skip skips none. -/
theorem skipAdd_of_skip {s : State} {t : ThreadId} (r : OpRow) (h : ∀ x, s.thread t = some x → x.skip = 0) : s.skipAdd t r = none := by
  unfold State.skipAdd
  split
  · rename_i th c o hdue
    simp [h th (thread_of_dueOp hdue)]
  · rfl

/-- A decision that is not to run is carried out alike whatever the row and the engine. -/
theorem controlOp_of_decision {s : State} {t : ThreadId} {r : OpRow} {f : OpFn} {i : Issue} (hp : threadPresent s t = true)
    (hd : s.decideOp t r f = i) (hgo : ∀ th c o w, i ≠ .go th c o w) (k : Thread → CurList → Op → Work → State) (e : Engine) :
    controlOp s t r f k = .next (s.carryOut r e i) := by
  simp only [controlOp, hp, if_true, hd]
  cases i with
  | go th c o w => exact absurd rfl (hgo th c o w)
  | _ => rfl

/-- The command of a row carries out a decision that is not to run, and no lane starts anything after it. -/
theorem exec_of_decision {s : State} {t : ThreadId} {c : Instr} {row : OpRow} {e : Engine} {f : OpFn} {i : Issue}
    (hrow : RowCommand t c row e f) (hp : threadPresent s t = true)
    (hearly : c = .prefetch t → ∀ x, s.thread t = some x → x.early = [])
    (hskip : c = .atomicAdd t → ∀ x, s.thread t = some x → x.skip = 0)
    (hd : s.decideOp t row f = i) (hgo : ∀ th c o w, i ≠ .go th c o w)
    (hlane : c = .enc t ∨ c = .dec t → (s.carryOut row e i).lanesStand t.die (unitRegion t.unit)) :
    exec c s = .next (s.carryOut row e i) := by
  cases hrow with
  | issued _ _ _ _ h => simp [h, issueOp, hp, hd]
  | lane _ _ _ hc h => simp [h, issueLane, hp, hd, runLanes_of_lanesStand (hlane hc)]
  | prefetch =>
    have : exec (.prefetch t) s = execPrefetch t s := rfl
    rw [this, execPrefetch_of_early (hearly rfl)]
    simp [issueOp, hp, hd]
  | atomicAdd =>
    have : exec (.atomicAdd t) s = execAtomicAdd t s := rfl
    rw [this, execAtomicAdd, skipAdd_of_skip _ (hskip rfl)]
    exact controlOp_of_decision hp hd hgo _ _

/-- A row's command on a context that the part does not have faults (00 R4). -/
theorem exec_of_absent {s : State} {t : ThreadId} {c : Instr} {row : OpRow} {e : Engine} {f : OpFn} (hrow : RowCommand t c row e f)
    (hp : threadPresent s t = false) (hskip : ∀ x, s.thread t = some x → x.skip = 0) : exec c s = .fault .absentElement := by
  cases hrow with
  | issued _ _ _ _ h => simp [h, issueOp, hp]
  | lane _ _ _ _ h => simp [h, issueLane, hp]
  | prefetch =>
    have : exec (.prefetch t) s = execPrefetch t s := rfl
    simp [this, execPrefetch, hp]
  | atomicAdd =>
    have : exec (.atomicAdd t) s = execAtomicAdd t s := rfl
    simp [this, execAtomicAdd, skipAdd_of_skip _ hskip, controlOp, hp]

/-! ### Refusals and waits -/

/-- A refused operation's thread is halted with the status, and the pools wake no other. -/
theorem stop_carried_out {s : State} {t : ThreadId} {th : Thread} {x : Stop} (hth : s.thread t = some th) (hn : s.noneWaits)
    (row : OpRow) (e : Engine) :
    (s.carryOut row e (.stop th x)) = s.stopWith th x ∧ (s.stopWith th x).thread t = some (halted th x.status) := by
  have hid := id_of_thread hth
  have hwait : ∀ g, (halted th x.status).waiting ≠ some (.pool, g) := fun g h => by simp [halted] at h
  refine ⟨wakePools_of_noneWaits (noneWaits_of_threads (stopWith_threads s th x) hn hwait), ?_⟩
  rw [thread_of_threads_eq (stopWith_threads s th x), ← hid]
  exact thread_setThread_same (x := halted th x.status) (hid ▸ hth)

/-- Settles O27: the command comes down to its decision, and each decision that is not to run is carried out with memory unchanged. -/
theorem operationRefusedOrWaits : Obligations.OperationRefusedOrWaits := by
  unfold Obligations.OperationRefusedOrWaits
  intro s t row e f c hmem
  have hrow := rowCommand_of_engineRows hmem
  refine ⟨fun hp hskip => exec_of_absent hrow hp hskip, fun hp hearly hskip hlanes => ⟨?_, ?_, ?_⟩⟩
  · intro th x hn hd
    have hth : s.thread t = some th := thread_of_decideOp (r := row) (f := f) (by rw [hd]; rfl)
    obtain ⟨hstop, hread⟩ := stop_carried_out (x := x) hth hn row e
    refine ⟨s.stopWith th x, ?_, stopWith_mem s th x, _, hread, rfl, rfl, rfl⟩
    rw [← hstop]
    refine exec_of_decision hrow hp hearly hskip hd (by simp) fun hc => ?_
    rw [hstop]
    exact lanesStand_of_threads (stopWith_threads s th x) (mem_of_thread hth) rfl rfl (hlanes hc)
  · intro th w hd
    have hth : s.thread t = some th := thread_of_decideOp (r := row) (f := f) (by rw [hd]; rfl)
    exact exec_of_decision hrow hp hearly hskip hd (by simp) fun hc =>
      lanesStand_of_threads rfl (mem_of_thread hth) rfl rfl (hlanes hc)
  · intro hd
    exact exec_of_decision hrow hp hearly hskip hd (by simp) hlanes

end Sys2Proof.Proofs

/-! PROOFS. A state that lists one context twice (06 R116). No hypothesis of the statement on launches excludes it. Its second entry
holds all four lanes of the region, so that the lanes have no room; issuing ENC from the first entry replaces both, the lanes become
free, and the operation that should wait is taken. -/

namespace Sys2Proof.Proofs

open Sys2Proof Sys2Proof.Machine

namespace ListedTwice

/-- Context 0 of unit 0 on die 0. -/
def ctx : ThreadId := ⟨0, 0, 0⟩

/-- A planar tensor of one element in LPDDR5X (05 R95). -/
def oneElement (base fmt : Nat) : List Byte :=
  leBytes 8 base ++ leBytes 8 64 ++ leBytes 4 64 ++ [1, 0, 1, 0, 1, 0] ++ leBytes 1 fmt ++ zeros 21

/-- ENC of one BF16 latent (07 R161): payload at 0x5000, bypass field at 0x6000, result at 0x7000. -/
def encOp : List Byte :=
  [0x28, 18] ++ zeros 30 ++ oneElement 0x2000 1 ++ oneElement 0x3000 1 ++ oneElement 0x4000 7 ++
    (leBytes 8 0x5000 ++ leBytes 8 64) ++ leBytes 96 (2 ^ 48 + 2 ^ 64 * 0x6000 + 2 ^ 128 * 64 + 2 ^ 224 * 0x7000)

/-- A profile image that holds one empty table set (09 R195). -/
def image : List Byte := zeros 4 ++ leBytes 4 1 ++ zeros 56 ++ leBytes 8 3

/-- The list at 0x1000 whose only operation is the ENC. -/
def list : CurList :=
  { addr := 0x1000, exact := false, lastList := true, opCount := 1, length := 320, stream := 1, tile := 0, picture := 0 }

/-- The context at its ENC, with nothing outstanding. -/
def first : Thread := { id := ctx, state := .ready, binding := 1, cur := some list }

/-- The same context listed again, with an operation running on each of the region's four lanes. -/
def second : Thread := { first with out := (List.range 4).map fun k =>
  { engine := .lane, opIndex := 0, opcode := 0x28, reads := [], writes := [], taken := some 0, bank := some 0, lane := k } }

/-- A running part that lists the context twice. -/
def state : State := { State.reset with
  phase := .running, threads := [first, second], mem := Memory.writeBytes [] 0x1020 encOp
  profiles := [some { image := image, digest := zeros 32, setSlots := [0] }] }

/-- What `MayRun` asks of an operation and its work beside the thread's own state, and that it reads no partner. -/
def workRuns (o : Op) (w : Work) : Bool :=
  overlapOk rowEnc.code o w && !state.readsFar w.reads && (w.reads ++ w.writes).all fun sp =>
    !state.inOtherScratch ctx sp && (state.accessOk sp && !touchesRegisters sp) &&
      (!state.fencedAt (some ctx) (locate state.dieCount sp.base) && !state.shutAt ctx (locate state.dieCount sp.base))

/-- A computation that succeeds with a value that passes a test. -/
theorem exists_ok_of_any {ε α : Type} {x : Except ε α} {p : α → Bool} (h : x.toOption.any p = true) : ∃ a, x = .ok a ∧ p a = true := by
  cases x with
  | error e => cases h
  | ok a => exact ⟨a, rfl, h⟩

/-- The model's evaluation of the descriptor and of ENC's rules. -/
theorem enc_runs : ((parseOp ctx rowEnc (state.opBytes ctx list)).toOption.any fun o =>
    (encWork { s := state, th := first, cur := list, op := o }).toOption.any fun w => workRuns o w) = true := by
  decide +kernel

/-- Every condition for the execution of the ENC is met. -/
theorem exists_mayRun : ∃ o w, MayRun state ctx rowEnc encWork first list o w ∧ state.readsFar w.reads = false := by
  obtain ⟨o, hparsed, ho⟩ := exists_ok_of_any enc_runs
  obtain ⟨w, hrules, hw⟩ := exists_ok_of_any ho
  simp only [workRuns, Bool.and_eq_true, Bool.not_eq_true', List.all_eq_true] at hw
  obtain ⟨⟨hoverlap, hnear⟩, hspans⟩ := hw
  exact ⟨o, w, {
    runs := rfl, thread := rfl, ready := rfl, list := rfl, inside := Nat.one_pos, code := by decide +kernel
    parsed := hparsed, rules := hrules, place := ⟨hoverlap, rfl⟩
    own := .inr fun sp h => (hspans sp h).1.1
    domain := fun h => by cases h
    access := fun sp h => (hspans sp h).1.2
    calm := fun sp h => (hspans sp h).2
    clear := fun q h => by cases h
    room := fun _ _ => (by decide : 0 < 4) }, hnear⟩

theorem noneWaits : state.noneWaits := by
  have h : ∀ x ∈ state.threads, x.waiting = none := by decide +kernel
  intro x hx g
  rw [h x hx]
  simp

/-- Every lane operation has begun and runs. -/
theorem lanesStand : state.lanesStand ctx.die (unitRegion ctx.unit) := by
  have h : ∀ x ∈ state.threads, ∀ q ∈ x.out, q.bank.isSome = true ∧ q.taken.isSome = true := by decide +kernel
  exact ⟨fun x hx _ q hq _ => (h x hx q hq).1, fun x hx _ q hq _ => .inl (h x hx q hq).2⟩

/-- The second entry holds the lanes. -/
theorem noRoom : state.hasRoom ctx.die .lane (unitRegion ctx.unit) = false := by decide +kernel

/-- Whether every outstanding operation of the context has been taken by its engine after the ENC is offered. -/
def allTaken : Host.Outcome State Fault Refusal → Bool
  | .next u => (u.thread ctx).all fun y => y.out.all (·.taken.isSome)
  | _ => true

/-- The model's evaluation: a lane has taken the ENC. -/
theorem enc_taken : allTaken (exec (.enc ctx) state) = true := by decide +kernel

end ListedTwice

open ListedTwice in
/-- Refutes O26: where a context is listed twice, the lanes of ENC's region have no room, and yet its ENC does not wait. -/
theorem not_operationLaunches : ¬ Obligations.OperationLaunches := by
  unfold Obligations.OperationLaunches
  rintro ⟨-, hlanes⟩
  obtain ⟨o, w, hmay, hnear⟩ := exists_mayRun
  obtain ⟨hfull, -⟩ := hlanes state ctx rowEnc encWork (.enc ctx) first list o w (by simp) noneWaits (by decide +kernel) hmay hnear
  obtain ⟨u, y, q, hexec, -, hthread, hq, -, -, -, -, -, hwaits, -⟩ := hfull lanesStand noRoom
  have htaken := enc_taken
  rw [hexec] at htaken
  simp only [allTaken, hthread, Option.all_some, List.all_eq_true] at htaken
  simpa [hwaits] using htaken q hq

end Sys2Proof.Proofs

/-! PROOFS. Commands on a stream (10 R227, R235, R236, R243; 13 R303 to R306) and SPARE_QUERY (18 R403): finding and replacing a
stream, what an answer leaves, what each command does with an open stream, and what the end of a close releases. -/

namespace Sys2Proof.Proofs

open Sys2Proof Sys2Proof.Machine Sys2Proof.Laws

/-! ### Finding and replacing by number -/

/-- What replaced the elements of a key is found under that key. -/
theorem find?_replace_same {α : Type} (key : α → Nat) {l : List α} {x y : α} (h : l.find? (key · == key x) = some y) :
    (l.map fun u => if key u = key x then x else u).find? (key · == key x) = some x := by
  have hkey (u : α) : (key (if key u = key x then x else u) == key x) = (key u == key x) := by
    by_cases hu : key u = key x <;> simp [hu]
  have hy : key y = key x := by simpa using List.find?_some h
  simp only [List.find?_map, Function.comp_def, hkey, h, Option.map_some, hy, if_true]

/-- A replacement leaves what is found under every other key. -/
theorem find?_replace_of_ne {α : Type} (key : α → Nat) (l : List α) {x : α} {n : Nat} (h : n ≠ key x) :
    (l.map fun u => if key u = key x then x else u).find? (key · == n) = l.find? (key · == n) := by
  induction l with
  | nil => rfl
  | cons u l ih =>
    rw [List.map_cons, List.find?_cons, List.find?_cons, ih]
    by_cases hu : key u = key x
    · simp [hu, beq_false_of_ne h.symm]
    · simp [hu]

theorem number_of_stream {s : State} {n : Nat} {y : Stream} (h : s.stream n = some y) : y.number = n := by
  simpa using List.find?_some h

theorem stream_of_streams_eq {s u : State} (h : u.streams = s.streams) (k : Nat) : u.stream k = s.stream k := by
  simp only [State.stream, h]

/-- A listed stream reads as what replaced it. -/
theorem stream_setStream_same {s : State} {y z : Stream} (h : s.stream z.number = some y) :
    (s.setStream z).stream z.number = some z :=
  find?_replace_same Stream.number h

theorem stream_setStream_of_ne (s : State) {z : Stream} {k : Nat} (h : k ≠ z.number) : (s.setStream z).stream k = s.stream k :=
  find?_replace_of_ne Stream.number s.streams h

/-- The session of a request is found after the request was heard. -/
theorem session_heard {s : State} {x : Session} {n : Nat} (h : s.session n = some x) : (s.heard x).session n = some (x.heard s) := by
  have hn : x.number = n := by simpa using List.find?_some h
  subst hn
  exact find?_replace_same (x := x.heard s) Session.number h

@[simp] theorem heard_stream (s : State) (x : Session) (n : Nat) : (s.heard x).stream n = s.stream n := rfl
@[simp] theorem heard_streams (s : State) (x : Session) : (s.heard x).streams = s.streams := rfl
@[simp] theorem heard_out (s : State) (x : Session) : (s.heard x).out = s.out := rfl
@[simp] theorem heard_threads (s : State) (x : Session) : (s.heard x).threads = s.threads := rfl
@[simp] theorem heard_dieCount (s : State) (x : Session) : (s.heard x).dieCount = s.dieCount := rfl
@[simp] theorem heard_kindOf (s : State) (x : Session) (y : Stream) : (s.heard x).kindOf y = s.kindOf y := rfl

/-! ### What an answer leaves -/

/-- `t` is `u` after one reply of a status left: nothing that a command on a stream speaks of has changed. -/
structure Replied (u t : State) (st : Status) : Prop where
  out : ∃ r : Reply, t.out = u.out ++ [.reply r] ∧ r.status = st
  mem : t.mem = u.mem
  dies : t.dies = u.dies
  streams : t.streams = u.streams
  threads : t.threads = u.threads
  qps : t.qps = u.qps

/-- An answer that neither ends its session nor brings a final reply is one reply with its status. -/
theorem answer_replied {u : State} {d : Datagram} {z : Session} (op : Nat) {a : Answer} (hz : u.session d.session.toNat = some z)
    (hfinal : a.final = none) (hclose : a.close = false) : Replied u (u.answer d op a) a.status := by
  unfold State.answer
  simp only [hz, hfinal, hclose]
  exact ⟨⟨_, rfl, rfl⟩, rfl, rfl, rfl, rfl, rfl⟩

/-- The answer of a command that set a stream is one reply: the session is still found. -/
theorem setStream_replied {s : State} {d : Datagram} {x : Session} {z : Stream} (op : Nat) {a : Answer}
    (hx : s.session d.session.toNat = some x) (hfinal : a.final = none) (hclose : a.close = false) :
    Replied ((s.heard x).setStream z) (((s.heard x).setStream z).answer d op a) a.status :=
  answer_replied op (session_heard hx) hfinal hclose

theorem Replied.stream_of_ne {s t : State} {x : Session} {z : Stream} {st : Status} (h : Replied ((s.heard x).setStream z) t st)
    {k : Nat} (hk : k ≠ z.number) : t.stream k = s.stream k :=
  (stream_of_streams_eq h.streams k).trans (stream_setStream_of_ne _ hk)

/-- A command that answers without an effect changes no stream. -/
theorem completes_of_heard {s : State} {d : Datagram} {x : Session} {c : Instr} {op : Nat} {ps : List Byte}
    (hx : s.session d.session.toNat = some x) (h : exec c s = .next ((s.heard x).answer d op (.good ps))) :
    ∃ t r, exec c s = .next t ∧ t.out = s.out ++ [.reply r] ∧ r.status = .ok ∧ t.mem = s.mem ∧ t.dies = s.dies ∧
      t.streams = s.streams := by
  have ⟨⟨r, hout, hst⟩, hmem, hdies, hstreams, _, _⟩ := answer_replied op (a := .good ps) (session_heard hx) rfl rfl
  exact ⟨_, r, h, hout, hst, hmem, hdies, hstreams⟩

/-- A command that sets its stream and answers OK changes no other. -/
theorem completes_of_setStream {s : State} {d : Datagram} {x : Session} {z : Stream} {c : Instr} {op n : Nat} {ps : List Byte}
    (hx : s.session d.session.toNat = some x) (h : exec c s = .next (((s.heard x).setStream z).answer d op (.good ps)))
    (hn : z.number = n) :
    ∃ t r, exec c s = .next t ∧ t.out = s.out ++ [.reply r] ∧ r.status = .ok ∧ t.mem = s.mem ∧ t.dies = s.dies ∧
      ∀ k, k ≠ n → t.stream k = s.stream k := by
  subst hn
  have hr := setStream_replied (z := z) op (a := .good ps) hx rfl rfl
  obtain ⟨r, hout, hst⟩ := hr.out
  exact ⟨_, r, h, hout, hst, hr.mem, hr.dies, fun _ hk => hr.stream_of_ne hk⟩

/-! ### A request on a stream -/

section
variable {s : State} {d : Datagram} {op len : Nat} {x : Session} {y : Stream}

/-- An accepted request on a stream that damage has not stopped reaches its command. -/
theorem onStream_of_open (hacc : Accepted s d op false (s.streamOwner d) none x) (hlen : len ≤ d.params.length)
    (hy : s.stream (beAt d.params 0 4) = some y) (hopen : y.state = .open_) (f : Stream → State → State × Answer) :
    s.onStream d op len f = .next ((f y (s.heard x)).1.answer d op (f y (s.heard x)).2) := by
  unfold State.onStream
  rw [serve_accepted hacc]
  simp [Nat.not_lt.mpr hlen, hy, hopen]

/-- A request on a stream stopped by damage answers STREAM_DAMAGED (10 R243). -/
theorem onStream_of_damaged (hacc : Accepted s d op false (s.streamOwner d) none x) (hlen : len ≤ d.params.length)
    (hy : s.stream (beAt d.params 0 4) = some y) (hstop : y.state = .stopped) (hdam : y.status = .streamDamaged)
    (f : Stream → State → State × Answer) :
    s.onStream d op len f = .next ((s.heard x).answer d op (.fail .streamDamaged)) := by
  unfold State.onStream
  rw [serve_accepted hacc]
  simp [Nat.not_lt.mpr hlen, hy, hstop, hdam]

/-! ### STREAM_CONFIG -/

/-- The APPLY_AT that entries give (13 R303). -/
def applyAt (es : List Entry) : Nat :=
  match es.find? (·.id == 0x2E) with
  | some e => beNat e.value
  | none => 0

/-- Entries that meet every rule: APPLY_AT 0 applies them, a later picture's join the queue while it has room (13 R304). -/
theorem configure_of_sound {u : State} {ps : List Byte} {es : List Entry} (hes : parseEntries ps 4 = .ok es)
    (hfault : (u.kindOf y).entriesFault (some (y.lastStarted.isSome, applyAt es)) [] es = none) (hpast : y.past (applyAt es) = false)
    (hdis : (u.kindOf y).disagrees (y.params.apply es) = false) :
    u.configure ps y =
      if applyAt es = 0 then (u.setStream { y with params := y.params.apply es }, .good [])
      else if 16 ≤ y.pendingCfg.length then (u, .fail .noResource)
      else (u.setStream { y with pendingCfg := y.pendingCfg ++ [(applyAt es, ps.drop 4)] }, .good []) := by
  unfold applyAt at hfault hpast ⊢
  unfold State.configure
  cases hat : es.find? (·.id == 0x2E)
  all_goals
    simp only [hat] at hfault hpast
    simp only [hes, hat, hfault, hpast, hdis, Bool.false_eq_true, if_false]

/-- An accepted STREAM_CONFIG whose entries meet every rule runs as they say. -/
theorem streamConfig_of_sound {es : List Entry} (hacc : Accepted s d 0x0022 false (s.streamOwner d) none x)
    (hlen : 4 ≤ d.params.length) (hy : s.stream (beAt d.params 0 4) = some y) (hopen : y.state = .open_)
    (hes : parseEntries d.params 4 = .ok es)
    (hfault : (s.kindOf y).entriesFault (some (y.lastStarted.isSome, applyAt es)) [] es = none) (hpast : y.past (applyAt es) = false)
    (hdis : (s.kindOf y).disagrees (y.params.apply es) = false) :
    (applyAt es = 0 → exec (.streamConfig d) s =
      .next (((s.heard x).setStream { y with params := y.params.apply es }).answer d 0x0022 (.good []))) ∧
    (applyAt es ≠ 0 → y.pendingCfg.length < 16 → exec (.streamConfig d) s =
      .next (((s.heard x).setStream { y with pendingCfg := y.pendingCfg ++ [(applyAt es, d.params.drop 4)] }).answer d 0x0022
        (.good []))) := by
  have hexec : exec (.streamConfig d) s = _ := onStream_of_open hacc hlen hy hopen fun y u => u.configure d.params y
  rw [hexec, configure_of_sound (u := s.heard x) hes hfault hpast hdis]
  exact ⟨fun h => by rw [if_pos h], fun h hroom => by rw [if_neg h, if_neg (by omega)]⟩

/-! ### RATE_SET -/

/-- RATE_SET for a picture that has started is BAD_PARAM. -/
theorem rateSet_of_past (hacc : Accepted s d 0x0025 false (s.streamOwner d) none x) (hlen : d.params.length = 40)
    (hy : s.stream (beAt d.params 0 4) = some y) (hopen : y.state = .open_) (hpast : y.past (beAt d.params 4 4) = true) :
    exec (.rateSet d) s = .next ((s.heard x).answer d 0x0025 (.fail .badParam 4)) := by
  show execRateSet d s = _
  unfold execRateSet
  rw [onStream_of_open hacc (Nat.le_of_eq hlen.symm) hy hopen]
  simp [hlen, hpast]

/-- RATE_SET whose fields are in range waits for its picture. -/
theorem rateSet_of_sound (hacc : Accepted s d 0x0025 false (s.streamOwner d) none x) (hlen : d.params.length = 40)
    (hy : s.stream (beAt d.params 0 4) = some y) (hopen : y.state = .open_) (hat : beAt d.params 4 4 < 2 ^ 24)
    (hpast : y.past (beAt d.params 4 4) = false) (hfault : rateFault d.params = none) :
    exec (.rateSet d) s = .next (((s.heard x).setStream { y with pendingRate := y.pendingRate ++
      [(if beAt d.params 4 4 = 0 then y.next else beAt d.params 4 4, rateOf d.params)] }).answer d 0x0025 (.good [])) := by
  show execRateSet d s = _
  unfold execRateSet
  rw [onStream_of_open hacc (Nat.le_of_eq hlen.symm) hy hopen]
  simp only [hlen, hpast, hfault, Nat.not_le.mpr hat, decide_false, Bool.or_self, Bool.false_eq_true, ne_eq, not_true_eq_false,
    if_false]

/-! ### ROI_SET -/

/-- ROI_SET for a picture that has started is BAD_PARAM. -/
theorem roiSet_of_past (hacc : Accepted s d 0x0026 false (s.streamOwner d) none x) (hlen : 12 ≤ d.params.length)
    (hy : s.stream (beAt d.params 0 4) = some y) (hopen : y.state = .open_) (hmedia : y.media = 0)
    (hpast : y.past (beAt d.params 4 4) = true) :
    exec (.roiSet d) s = .next ((s.heard x).answer d 0x0026 (.fail .badParam 4)) := by
  show execRoiSet d s = _
  unfold execRoiSet
  rw [onStream_of_open hacc hlen hy hopen]
  simp [hmedia, hpast]

/-- The rectangle of ROI_SET at a place is one of its rectangles. -/
theorem getD_roiOf_mem {ps : List Byte} {o n i : Nat} (hi : i < n) (r : RoiRect) : (roiOf ps o n).getD i r ∈ roiOf ps o n := by
  have hlen : i < (roiOf ps o n).length := by simpa [roiOf] using hi
  rw [List.getD_eq_getElem?_getD, List.getElem?_eq_getElem hlen, Option.getD_some]
  exact List.getElem_mem hlen

/-- ROI_SET whose rectangles are in range waits for its picture. -/
theorem roiSet_of_sound (hacc : Accepted s d 0x0026 false (s.streamOwner d) none x)
    (hy : s.stream (beAt d.params 0 4) = some y) (hopen : y.state = .open_) (hmedia : y.media = 0)
    (hat : beAt d.params 4 4 < 2 ^ 24) (hpast : y.past (beAt d.params 4 4) = false) (hcount : beAt d.params 8 1 ≤ 16)
    (hpad : beAt d.params 9 3 = 0) (hlen : d.params.length = 12 + 10 * beAt d.params 8 1)
    (hdq : ∀ r ∈ roiOf d.params 12 (beAt d.params 8 1), -64 ≤ r.dq ∧ r.dq ≤ 63)
    (hrest : ∀ i < beAt d.params 8 1, beAt d.params (21 + 10 * i) 1 = 0) :
    exec (.roiSet d) s = .next (((s.heard x).setStream { y with pendingRoi := y.pendingRoi ++
      [(if beAt d.params 4 4 = 0 then y.next else beAt d.params 4 4, roiOf d.params 12 (beAt d.params 8 1))] }).answer d 0x0026
        (.good [])) := by
  have hdq' : (List.range (beAt d.params 8 1)).find? (fun i =>
      decide (((roiOf d.params 12 (beAt d.params 8 1)).getD i ⟨0, 0, 0, 0, 0⟩).dq < -64) ||
        decide (63 < ((roiOf d.params 12 (beAt d.params 8 1)).getD i ⟨0, 0, 0, 0, 0⟩).dq)) = none := by
    refine List.find?_eq_none.mpr fun i hi => ?_
    have := hdq _ (getD_roiOf_mem (List.mem_range.mp hi) ⟨0, 0, 0, 0, 0⟩)
    simp only [Bool.or_eq_true, decide_eq_true_eq]
    omega
  have hrest' : (List.range (beAt d.params 8 1)).find? (fun i => beAt d.params (21 + 10 * i) 1 != 0) = none :=
    List.find?_eq_none.mpr fun i hi => by simp [hrest i (List.mem_range.mp hi)]
  show execRoiSet d s = _
  unfold execRoiSet
  rw [onStream_of_open hacc (by omega) hy hopen]
  simp only [hmedia, hpast, hpad, hdq', hrest', Nat.not_le.mpr hat, Nat.not_lt.mpr hcount, hlen, ne_eq, not_true_eq_false, if_false,
    Bool.false_eq_true, decide_false, Bool.or_self]

/-! ### REF_MARK -/

/-- REF_MARK of a picture that has started is BAD_PARAM (10 R227). -/
theorem refMark_of_started (hacc : Accepted s d 0x0027 false (s.streamOwner d) none x) (hlen : d.params.length = 12)
    (hy : s.stream (beAt d.params 0 4) = some y) (hopen : y.state = .open_) (hmedia : y.media = 0) {l : Nat}
    (hlast : y.lastStarted = some l) (hl : beAt d.params 4 4 ≤ l) :
    exec (.refMark d) s = .next ((s.heard x).answer d 0x0027 (.fail .badParam 4)) := by
  show execRefMark d s = _
  unfold execRefMark
  rw [onStream_of_open hacc (Nat.le_of_eq hlen.symm) hy hopen]
  simp [hlen, hmedia, hlast, hl]

/-- REF_MARK of a picture to come is answered OK, and kept unless the stream has it already. -/
theorem refMark_of_sound (hacc : Accepted s d 0x0027 false (s.streamOwner d) none x) (hlen : d.params.length = 12)
    (hy : s.stream (beAt d.params 0 4) = some y) (hopen : y.state = .open_) (hmedia : y.media = 0)
    (hat : beAt d.params 4 4 < 2 ^ 24) (hlow : 4 ≤ beAt d.params 8 1) (hhigh : beAt d.params 8 1 ≤ 7) (hpad : beAt d.params 9 3 = 0)
    (hnew : ∀ l, y.lastStarted = some l → l < beAt d.params 4 4) :
    ((beAt d.params 4 4, beAt d.params 8 1) ∈ y.marks → exec (.refMark d) s = .next ((s.heard x).answer d 0x0027 (.good []))) ∧
    ((beAt d.params 4 4, beAt d.params 8 1) ∉ y.marks → y.marks.length < 64 → exec (.refMark d) s =
      .next (((s.heard x).setStream { y with marks := y.marks ++ [(beAt d.params 4 4, beAt d.params 8 1)] }).answer d 0x0027
        (.good []))) := by
  have hexec : exec (.refMark d) s = execRefMark d s := rfl
  rw [hexec]
  unfold execRefMark
  rw [onStream_of_open hacc (Nat.le_of_eq hlen.symm) hy hopen]
  simp only [hlen, hmedia, hpad, Nat.not_le.mpr hat, Nat.not_lt.mpr hlow, Nat.not_lt.mpr hhigh, decide_false, Bool.or_false,
    Bool.false_eq_true, ne_eq, not_true_eq_false, if_false]
  cases hlast : y.lastStarted with
  | none => exact ⟨fun hm => by simp [hm], fun hm hroom => by simp [hm, Nat.not_le.mpr hroom]⟩
  | some l =>
    have hl := Nat.not_le.mpr (hnew l hlast)
    exact ⟨fun hm => by simp [hm, hl], fun hm hroom => by simp [hm, hl, Nat.not_le.mpr hroom]⟩

/-! ### STREAM_STATUS and SPARE_QUERY -/

/-- STREAM_STATUS answers the report of its stream (13 R306). -/
theorem streamStatus_of_stream (hacc : Accepted s d 0x0024 false none none x) (hlen : d.params.length = 4)
    (hy : s.stream (beAt d.params 0 4) = some y) :
    exec (.streamStatus d) s = .next ((s.heard x).answer d 0x0024 (.good y.report)) := by
  show execStreamStatus d s = _
  unfold execStreamStatus
  rw [serve_accepted hacc]
  simp [hlen, hy]

/-- SPARE_QUERY of a die of the part answers OK. -/
theorem spareQuery_of_present (hacc : Accepted s d 0x0070 false none (some (beAt d.params 0 1)) x) (hlen : d.params.length = 4)
    (hdie : beAt d.params 0 1 < s.dieCount) (hpad : beAt d.params 1 3 = 0) :
    ∃ ps, exec (.spareQuery d) s = .next ((s.heard x).answer d 0x0070 (.good ps)) := by
  show ∃ ps, execSpareQuery d s = _
  unfold execSpareQuery
  simp only [serve_accepted hacc, hlen, hpad, heard_dieCount, Nat.not_le.mpr hdie, ne_eq, not_true_eq_false, if_false]
  exact ⟨_, rfl⟩

/-! ### STREAM_CLOSE -/

/-- A stream that a request has asked to close: it waits for the stream's end, and inputs that have not wholly arrived are
dropped (13 R305). -/
def closeAsked (y : Stream) (d : Datagram) : Stream :=
  { y with
    state := if y.state = .stopped then .stopped else .closing
    endSeen := y.endSeen || y.state == .ended
    closing := y.closing ++ [dgReq d]
    inputs := y.inputs.filter (·.complete) }

@[simp] theorem closeAsked_number (y : Stream) (d : Datagram) : (closeAsked y d).number = y.number := rfl

/-- A stream that is open is as busy after the request as before. -/
theorem closeAsked_busy (hopen : y.state = .open_) (d : Datagram) : (closeAsked y d).busy = y.busy := by
  simp [closeAsked, Stream.busy, Stream.unitReady, hopen, List.any_filter]

/-- An accepted STREAM_CLOSE is answered PENDING; then the close ends if nothing is left to do. -/
theorem streamClose_of_known (hacc : Accepted s d 0x0023 false (s.streamOwner d) none x) (hlen : d.params.length = 4)
    (hy : s.stream (beAt d.params 0 4) = some y) :
    exec (.streamClose d) s =
      .next ((((s.heard x).setStream (closeAsked y d)).answer d 0x0023 .wait).settleClose (beAt d.params 0 4)) := by
  show execStreamClose d s = _
  unfold execStreamClose
  simp only [serve_accepted hacc]
  simp [hlen, hy, closeAsked]

end

/-- The close of a stream with something to finish waits. -/
theorem settleClose_of_busy {s : State} {n : Nat} {z : Stream} (hz : s.stream n = some z) (hstate : z.state ≠ .stopped)
    (hbusy : z.busy = true) : s.settleClose n = s := by
  simp [State.settleClose, hz, hstate, hbusy]

/-- The close of a stopped stream ends at once. -/
theorem settleClose_of_stopped {s : State} {n : Nat} {z : Stream} (hz : s.stream n = some z) (hstate : z.state = .stopped)
    (hclosing : z.closing ≠ []) : s.settleClose n = (s.removeStream n).finishAll z.closing .ok z.lastField := by
  simp [State.settleClose, State.writeEnd, hz, hstate, hclosing]

/-! ### What the end of a close leaves -/

@[simp] theorem discardThreads_mem (s : State) (n : Nat) : (s.discardThreads n).mem = s.mem := rfl
@[simp] theorem discardThreads_streams (s : State) (n : Nat) : (s.discardThreads n).streams = s.streams := rfl
@[simp] theorem discardThreads_qps (s : State) (n : Nat) : (s.discardThreads n).qps = s.qps := rfl
@[simp] theorem releasePools_streams (s : State) (n : Nat) : (s.releasePools n).streams = s.streams := rfl
@[simp] theorem releasePools_qps (s : State) (n : Nat) : (s.releasePools n).qps = s.qps := rfl
@[simp] theorem releaseRegions_streams (s : State) (n : Nat) : (s.releaseRegions n).streams = s.streams := rfl
@[simp] theorem releaseRegions_qps (s : State) (n : Nat) : (s.releaseRegions n).qps = s.qps := rfl
@[simp] theorem closeQp_mem (s : State) (q : Nat) : (s.closeQp q).mem = s.mem := rfl
@[simp] theorem closeQp_threads (s : State) (q : Nat) : (s.closeQp q).threads = s.threads := rfl
@[simp] theorem closeQp_streams (s : State) (q : Nat) : (s.closeQp q).streams = s.streams := rfl
@[simp] theorem closeQp_qps (s : State) (q : Nat) : (s.closeQp q).qps = s.qps.filter (·.qpn != q) := rfl

/-- A final reply changes sessions and what leaves, nothing else. -/
theorem finish_eq (s : State) (r : Req) (st : Status) (ps : List Byte) (f dt : Nat) :
    ∃ l o, s.finish r st ps f dt = { s with sessions := l, out := o } := by
  unfold State.finish
  split
  · split
    · exact ⟨_, _, rfl⟩
    · exact ⟨_, _, rfl⟩
  · exact ⟨_, _, rfl⟩

/-- Final replies change sessions and what leaves, nothing else. -/
theorem finishAll_eq (s : State) (rs : List Req) (st : Status) (ps : List Byte) :
    ∃ l o, s.finishAll rs st ps = { s with sessions := l, out := o } := by
  induction rs generalizing s with
  | nil => exact ⟨_, _, rfl⟩
  | cons r rs ih =>
    obtain ⟨l, o, h⟩ := finish_eq s r st ps 0xFFFFFFFF 0
    obtain ⟨l', o', h'⟩ := ih (s.finish r st ps)
    exact ⟨l', o', h'.trans (by rw [h])⟩

/-- A thread of a stream that was given up waits for no buffer unless it did before. -/
theorem discardThreads_noneWaits {s : State} (h : s.noneWaits) (n : Nat) : (s.discardThreads n).noneWaits := by
  intro t ht g
  obtain ⟨u, hu, hut⟩ := List.mem_filterMap.mp ht
  split at hut
  · cases hut; exact h t hu g
  · split at hut
    · cases hut; simp
    · cases hut

/-- Where no thread waits for a buffer, a stream goes with its number and its queue pair, and memory stands (13 R305). -/
theorem removeStream_leaves {s : State} {n : Nat} {z : Stream} (hz : s.stream n = some z) (h : s.noneWaits) :
    (s.removeStream n).mem = s.mem ∧ (s.removeStream n).streams = s.streams.filter (·.number != n) ∧
      (s.removeStream n).qps = s.qps.filter (·.qpn != z.qpn) := by
  have hw (u : State) (hu : u.threads = (s.discardThreads n).threads) : u.wakePools = u :=
    wakePools_of_noneWaits fun t ht => discardThreads_noneWaits h n t (hu ▸ ht)
  unfold State.removeStream
  rw [hz]
  dsimp only
  rw [hw]
  · simp
  · simp

/-- The close of a stopped stream releases its number and its queue pair, and leaves memory and the other streams. -/
theorem settleClose_leaves_of_stopped {s : State} {n : Nat} {z : Stream} (hz : s.stream n = some z) (hstate : z.state = .stopped)
    (hclosing : z.closing ≠ []) (h : s.noneWaits) :
    (s.settleClose n).stream n = none ∧ (s.settleClose n).qp z.qpn = none ∧ (s.settleClose n).mem = s.mem ∧
      ∀ k, k ≠ n → (s.settleClose n).stream k = s.stream k := by
  obtain ⟨hmem, hstreams, hqps⟩ := removeStream_leaves hz h
  obtain ⟨l, o, hfinish⟩ := finishAll_eq (s.removeStream n) z.closing .ok z.lastField
  rw [settleClose_of_stopped hz hstate hclosing, hfinish]
  simp only [State.stream, State.qp, hmem, hstreams, hqps, List.find?_filter]
  refine ⟨by simp, by simp, trivial, fun k hk => ?_⟩
  congr 1
  funext u
  by_cases hu : u.number = k
  · simp [hu, hk]
  · simp [hu]

section
variable {s : State} {d : Datagram} {x : Session} {y : Stream}

/-- STREAM_CLOSE of an open stream with pictures to finish: PENDING, and the stream reads CLOSING with its pictures. -/
theorem streamClose_of_busy (hacc : Accepted s d 0x0023 false (s.streamOwner d) none x) (hlen : d.params.length = 4)
    (hy : s.stream (beAt d.params 0 4) = some y) (hopen : y.state = .open_) (hbusy : y.busy = true) :
    ∃ t r, exec (.streamClose d) s = .next t ∧ t.out = s.out ++ [.reply r] ∧ r.status = .pending ∧ t.mem = s.mem ∧ t.dies = s.dies ∧
      t.stream (beAt d.params 0 4) = some (closeAsked y d) ∧ ∀ k, k ≠ beAt d.params 0 4 → t.stream k = s.stream k := by
  have hnum : (closeAsked y d).number = beAt d.params 0 4 := (closeAsked_number y d).trans (number_of_stream hy)
  have hr := setStream_replied (z := closeAsked y d) 0x0023 (a := .wait) hacc.known rfl rfl
  obtain ⟨r, hout, hst⟩ := hr.out
  have hz := (stream_of_streams_eq hr.streams _).trans (stream_setStream_same (s := s.heard x) (hnum ▸ hy))
  rw [hnum] at hz
  rw [streamClose_of_known hacc hlen hy,
    settleClose_of_busy hz (by simp [closeAsked, hopen]) ((closeAsked_busy hopen d).trans hbusy)]
  exact ⟨_, r, rfl, hout, hst, hr.mem, hr.dies, hz, fun k hk => hr.stream_of_ne (hnum ▸ hk)⟩

/-- STREAM_CLOSE of a stopped stream: it is gone with its queue pair. -/
theorem streamClose_of_stopped (hacc : Accepted s d 0x0023 false (s.streamOwner d) none x) (hlen : d.params.length = 4)
    (hy : s.stream (beAt d.params 0 4) = some y) (hstop : y.state = .stopped) (hwait : s.noneWaits) :
    ∃ t, exec (.streamClose d) s = .next t ∧ t.stream (beAt d.params 0 4) = none ∧ t.qp y.qpn = none ∧ t.mem = s.mem ∧
      ∀ k, k ≠ beAt d.params 0 4 → t.stream k = s.stream k := by
  have hnum : (closeAsked y d).number = beAt d.params 0 4 := (closeAsked_number y d).trans (number_of_stream hy)
  have hr := setStream_replied (z := closeAsked y d) 0x0023 (a := .wait) hacc.known rfl rfl
  have hz := (stream_of_streams_eq hr.streams _).trans (stream_setStream_same (s := s.heard x) (hnum ▸ hy))
  rw [hnum] at hz
  obtain ⟨hgone, hqp, hmem, hother⟩ := settleClose_leaves_of_stopped hz (by simp [closeAsked, hstop]) (by simp [closeAsked])
    fun t ht => hwait t (hr.threads ▸ ht)
  exact ⟨_, streamClose_of_known hacc hlen hy, hgone, hqp, hmem.trans hr.mem,
    fun k hk => (hother k hk).trans (hr.stream_of_ne (hnum ▸ hk))⟩

end

/-! ### The obligations -/

/-- Settles O54: the commands of a stream, each by what it does with a request that meets its rules. -/
theorem commandsOnAStream : Obligations.CommandsOnAStream := by
  unfold Obligations.CommandsOnAStream
  rintro s d x y n rfl hy
  refine ⟨?config, ?rate, ?roiPast, ?roi, ?mark, fun hacc hlen => streamStatus_of_stream hacc hlen hy, ?close, ?damaged⟩
  case config =>
    rintro es hacc hlen hopen hes at_ hat hfault hpast hdis
    obtain rfl : at_ = applyAt es := hat
    exact streamConfig_of_sound hacc hlen hy hopen hes hfault hpast hdis
  case rate =>
    exact fun hacc hlen hopen => ⟨rateSet_of_past hacc hlen hy hopen, rateSet_of_sound hacc hlen hy hopen⟩
  case roiPast =>
    exact fun hacc hopen hmedia hlen => roiSet_of_past hacc hlen hy hopen hmedia
  case roi =>
    exact fun hacc hopen hmedia => roiSet_of_sound hacc hy hopen hmedia
  case mark =>
    exact fun hacc hopen hmedia hlen hat hlow hhigh hpad =>
      ⟨fun l hlast hl => refMark_of_started hacc hlen hy hopen hmedia hlast hl,
        refMark_of_sound hacc hlen hy hopen hmedia hat hlow hhigh hpad⟩
  case close =>
    refine fun hacc hlen => ⟨fun hopen hbusy => ?_, streamClose_of_stopped hacc hlen hy⟩
    obtain ⟨t, r, hexec, hout, hst, hmem, hdies, hz, hother⟩ := streamClose_of_busy hacc hlen hy hopen hbusy
    exact ⟨t, _, hexec, hz, by simp [closeAsked, hopen], rfl, rfl, hmem, hdies, ⟨r, hout, hst⟩, hother⟩
  case damaged =>
    intro hstop hdam c op len hc hlen hacc
    have hrun := fun f => onStream_of_damaged hacc hlen hy hstop hdam f
    simp only [List.mem_cons, Prod.mk.injEq, List.not_mem_nil, or_false] at hc
    rcases hc with ⟨rfl, rfl, rfl⟩ | ⟨rfl, rfl, rfl⟩ | ⟨rfl, rfl, rfl⟩ | ⟨rfl, rfl, rfl⟩ <;> exact hrun _

/-- Settles O55: each command is one answer, of the heard state or of that state with the stream set. -/
theorem streamCommandsAndSpareQueryComplete : Obligations.StreamCommandsAndSpareQueryComplete := by
  unfold Obligations.StreamCommandsAndSpareQueryComplete
  refine ⟨?stream, ?spare⟩
  case spare =>
    intro s d x hacc hlen hdie hpad
    obtain ⟨ps, hexec⟩ := spareQuery_of_present hacc hlen hdie hpad
    exact completes_of_heard hacc.known hexec
  case stream =>
    rintro s d x y n rfl hy hopen
    have hnum := number_of_stream hy
    refine ⟨?config, ?close, fun hacc hlen => completes_of_heard hacc.known (streamStatus_of_stream hacc hlen hy), ?rate, ?roi, ?mark⟩
    case config =>
      intro es at_ hacc hlen hes hat hfault hpast hdis hroom
      obtain rfl : at_ = applyAt es := hat
      obtain ⟨hnow, hlater⟩ := streamConfig_of_sound hacc hlen hy hopen hes hfault hpast hdis
      by_cases hz : applyAt es = 0
      · exact completes_of_setStream hacc.known (hnow hz) hnum
      · exact completes_of_setStream hacc.known (hlater hz hroom) hnum
    case close =>
      intro hacc hlen hbusy
      obtain ⟨t, r, hexec, hout, hst, hmem, hdies, -, hother⟩ := streamClose_of_busy hacc hlen hy hopen hbusy
      exact ⟨t, r, hexec, hout, hst, hmem, hdies, hother⟩
    case rate =>
      intro hacc hlen hat hpast hfault
      exact completes_of_setStream hacc.known (rateSet_of_sound hacc hlen hy hopen hat hpast hfault) hnum
    case roi =>
      intro hacc hmedia hat hpast hcount hpad hlen hdq hrest
      exact completes_of_setStream hacc.known (roiSet_of_sound hacc hy hopen hmedia hat hpast hcount hpad hlen hdq hrest) hnum
    case mark =>
      intro hacc hmedia hlen hat hlow hhigh hpad hnew hroom
      obtain ⟨hkept, hfresh⟩ := refMark_of_sound hacc hlen hy hopen hmedia hat hlow hhigh hpad hnew
      by_cases hm : (beAt d.params 4 4, beAt d.params 8 1) ∈ y.marks
      · obtain ⟨t, r, hexec, hout, hst, hmem, hdies, hstreams⟩ := completes_of_heard hacc.known (hkept hm)
        exact ⟨t, r, hexec, hout, hst, hmem, hdies, fun k _ => stream_of_streams_eq hstreams k⟩
      ·        exact completes_of_setStream hacc.known (hfresh hm hroom) hnum

end Sys2Proof.Proofs

/-! PROOFS. A stream that stops on damage beside one whose thread waits for a buffer (06 R117, R136, R140, R141; 12 R266). Stopping
releases what the damaged stream had reserved; the request that waits is served, the thread of the other stream begins its list, and
the PREFETCH in the list two places behind takes place: the command that reads the unknown unit changes memory. -/

namespace Sys2Proof.Proofs

open Sys2Proof Sys2Proof.Machine

namespace ServedByStop

open ListedTwice (ctx oneElement)

/-- FENCE (06 R130). -/
def fenceOp : List Byte := [0x40, 3] ++ zeros 46

/-- PREFETCH of the element at 0x4000 to the first bytes of the unit's own scratchpad (06 R136). -/
def prefetchOp : List Byte := [0x3A, 6] ++ zeros 30 ++ oneElement 0x4000 1 ++ leBytes 16 0x300000000000

/-- A list of stream 2 with one operation (06 R117). -/
def listOf (op : List Byte) : List Byte :=
  [1, 0] ++ leBytes 2 1 ++ leBytes 4 (32 + op.length) ++ leBytes 4 2 ++ zeros 20 ++ op

/-- A decoding stream at a unit of TYPE 0, which 12 R266 does not list. -/
def damaged : Stream :=
  { number := 1, owner := [], slot := 0, digest := [], cls := 3, dir := .decode, latent := false, media := 0, params := {}
    inBytes := mkUnit 0 [] }

/-- The other stream, with nothing to read. -/
def other : Stream := { damaged with number := 2, inBytes := [] }

/-- A thread of the other stream that waits for a buffer: FENCE, FENCE again, then the list that prefetches. -/
def waiter : Thread :=
  { id := ctx, state := .blocked, binding := 2, queue := [0x1000, 0x1000, 0x2000], waiting := some (.pool, 0) }

/-- A request of the other stream for a tile. -/
def request (tile : Nat) : Hold := { owner := 2, cls := 3, picture := 0, tile := tile, stage := 0, granules := 100000 }

/-- The damaged stream has reserved most of the pool; the other one's slot is taken by its tile 1, and what is left does not cover the
request of its tile 0 within its share (06 R141). -/
def pool : Pool := { reserved := [(1, 3000000)], slots := [request 1], waiting := [request 0] }

/-- A running part with both streams, the waiting thread, its lists and the prefetched element in memory. -/
def state : State := { State.reset.onDie 0 fun d => { d with poolLp := pool } with
  phase := .running, streams := [damaged, other], threads := [waiter]
  mem := Memory.writeBytes (Memory.writeBytes (Memory.writeBytes [] 0x1000 (listOf fenceOp)) 0x2000 (listOf prefetchOp)) 0x4000 [1, 1] }

/-- The first byte of the scratchpad after a command that answers a next state. -/
def landed : Host.Outcome State Fault Refusal → Option Byte
  | .next t => some (t.byteAt (scratchBase 0 0))
  | _ => none

/-- Before the stop the pools have no room for the request: the thread waits with reason. -/
theorem request_waits : state.servePools.poolWaits ctx.die waiter.binding 0 0 = true := by decide +kernel

theorem landing_empty : state.byteAt (scratchBase 0 0) = 0 := by decide +kernel

/-- The model's evaluation: the element has landed. -/
theorem landing_written : landed (exec (.unknownUnit 1) state) = some 1 := by decide +kernel

end ServedByStop

open ServedByStop in
/-- Refutes O58: an unknown unit stops its stream on damage, but memory changes, since the buffers that the stop releases let a
waiting thread of another stream begin its lists, and a PREFETCH of theirs lands. -/
theorem not_unitsAreReadInOrder : ¬ Obligations.UnitsAreReadInOrder := by
  unfold Obligations.UnitsAreReadInOrder
  intro h
  obtain ⟨-, -, -, -, hunknown, -, -⟩ :=
    h state 1 damaged [] [] rfl rfl rfl rfl rfl rfl rfl (fun p hp => absurd hp List.not_mem_nil) (by decide)
  obtain ⟨t, y, hexec, -, -, -, hmem, -⟩ := hunknown 0 (by decide) rfl (.inl rfl) rfl
  have hlanded : some (t.byteAt (scratchBase 0 0)) = some 1 := by simpa only [hexec, landed] using landing_written
  have hstands : t.byteAt (scratchBase 0 0) = state.byteAt (scratchBase 0 0) := by simp only [State.byteAt, hmem]
  rw [hstands, landing_empty] at hlanded
  exact absurd hlanded (by decide)

end Sys2Proof.Proofs

/-! PROOFS. The order of checks (13 R286 to R299), a session's answer and its end (R289, R291, R292, R295, R296): what a request
that passes its tag check comes to, what each later check answers, and a STREAM_CLOSE that settles a close though it is discarded. -/

namespace Sys2Proof.Proofs

open Sys2Proof Sys2Proof.Machine Sys2Proof.Laws

/-! ### Finding and replacing a session -/

theorem number_of_session {s : State} {n : Nat} {x : Session} (h : s.session n = some x) : x.number = n := by
  simpa using List.find?_some h

theorem session_of_sessions_eq {s u : State} (h : u.sessions = s.sessions) (n : Nat) : u.session n = s.session n := by
  simp only [State.session, h]

theorem session_setSession_same {s : State} {x y : Session} (h : s.session x.number = some y) :
    (s.setSession x).session x.number = some x :=
  find?_replace_same Session.number h

theorem session_setSession_of_ne (s : State) {x : Session} {n : Nat} (h : n ≠ x.number) :
    (s.setSession x).session n = s.session n :=
  find?_replace_of_ne Session.number s.sessions h

/-- Sessions filtered by number: the number is gone, every other one is found as before. -/
theorem session_filter_number (s : State) (l : List Session) (n m : Nat) (h : s.sessions = l.filter (·.number != n)) :
    s.session m = if m = n then none else l.find? (·.number == m) := by
  simp only [State.session, h, List.find?_filter]
  split
  · rename_i hm
    simp [hm]
  · rename_i hm
    congr 1
    funext x
    by_cases hx : x.number = m <;> simp [hx, hm]

/-! ### The order of checks (13 R299) -/

/-- What follows the checks of the header and the number: the opcode, the rank and the owner, recovery, then the command. -/
def lateChecks (s : State) (d : Datagram) (op : Nat) (priv : Bool) (owner : Option (List Byte)) (target : Option Nat) (x : Session)
    (f : Session → State → State × Answer) : State :=
  if !s.opcodeAllowed op then s.answer d op (.fail .badOpcode)
  else if !x.isOpen || (priv && !x.privileged) then s.answer d op (.fail .notPrivileged)
  else if owner.any fun k => k != x.hostKey && !x.privileged then s.answer d op (.fail .notPrivileged)
  else if s.packageRecovering || target.any s.dieRecovering then s.answer d op (.fail .recovering)
  else (f x s).1.answer d op (f x s).2

section
variable {s : State} {d : Datagram} {op : Nat} {x : Session}

/-- A request with the tag of its open session is heard, and comes to the checks of its header and its number. -/
theorem serve_of_tag (hport : s.answersOn d.port = true) (hframed : dgFramed d = true)
    (hknown : s.session d.session.toNat = some x) (hopen : x.isOpen = true)
    (htag : cmdTag x.keyIn (dgHeader d op ++ d.params) = d.tag) (priv : Bool) (owner : Option (List Byte)) (target : Option Nat)
    (f : Session → State → State × Answer) :
    s.serve d op priv owner target f =
      (s.heard x).inSequence d op (x.heard s) (lateChecks (s.heard x) d op priv owner target (x.heard s) f) := by
  have hheard : (if x.isOpen = true then ({ x with lastAt := s.gts } : Session) else x) = x.heard s := if_pos hopen
  unfold State.serve
  simp only [hport, hframed, hknown, htag, hheard, Bool.not_true, Bool.false_eq_true, if_false, ne_eq, not_true_eq_false]
  cases owner <;> cases target <;> rfl

/-- A clean request whose number is new goes on. -/
theorem inSequence_of_execute (hclean : dgClean d = true) (hseq : x.seqCase d.sequence.toNat d.tag = .execute) (k : State) :
    s.inSequence d op x k = k := by
  simp [State.inSequence, hclean, hseq]

/-- A clean request whose number lies below the window is answered STALE (13 R297). -/
theorem inSequence_of_below (hclean : dgClean d = true) (hbelow : d.sequence.toNat + 63 < x.h) (k : State) :
    s.inSequence d op x k = s.answerOnly d op x .stale := by
  have hold : ¬ x.h < d.sequence.toNat := by omega
  simp [State.inSequence, Session.seqCase, hclean, hbelow, hold]

/-- A request on an open session, rightly tagged and clean, whose number is new and pushes no pending entry out of the window. -/
structure Fresh (s : State) (d : Datagram) (op : Nat) (x : Session) : Prop where
  port : s.answersOn d.port = true
  framed : dgFramed d = true
  known : s.session d.session.toNat = some x
  isOpen : x.isOpen = true
  tag : cmdTag x.keyIn (dgHeader d op ++ d.params) = d.tag
  clean : dgClean d = true
  new : x.h < d.sequence.toNat
  room : ∀ e ∈ x.cache, e.pending = true → d.sequence.toNat ≤ e.sequence + 63

theorem Fresh.serve (h : Fresh s d op x) (priv : Bool) (owner : Option (List Byte)) (target : Option Nat)
    (f : Session → State → State × Answer) :
    s.serve d op priv owner target f = lateChecks (s.heard x) d op priv owner target (x.heard s) f := by
  rw [serve_of_tag h.port h.framed h.known h.isOpen h.tag]
  exact inSequence_of_execute h.clean (seqCase_execute (x.heard s) _ _ h.new h.room) _

/-- Check 6: an opcode that the part does not have, or not in this mode. -/
theorem Fresh.serve_of_badOpcode (h : Fresh s d op x) (hop : s.opcodeAllowed op = false) (priv : Bool) (owner : Option (List Byte))
    (target : Option Nat) (f : Session → State → State × Answer) :
    s.serve d op priv owner target f = (s.heard x).answer d op (.fail .badOpcode) := by
  have hop' : (s.heard x).opcodeAllowed op = false := hop
  simp [h.serve, lateChecks, hop']

/-- Check 7: a P opcode of an ordinary session. -/
theorem Fresh.serve_of_notPrivileged (h : Fresh s d op x) (hop : s.opcodeAllowed op = true) (hrank : x.privileged = false)
    (owner : Option (List Byte)) (target : Option Nat) (f : Session → State → State × Answer) :
    s.serve d op true owner target f = (s.heard x).answer d op (.fail .notPrivileged) := by
  have hop' : (s.heard x).opcodeAllowed op = true := hop
  have hrank' : (x.heard s).privileged = false := hrank
  simp [h.serve, lateChecks, hop', hrank']

/-- Check 8: while the package recovers, an opcode that names no object of another owner. -/
theorem Fresh.serve_of_recovering (h : Fresh s d op x) (hop : s.opcodeAllowed op = true) (hrank : x.privileged = true)
    (hrec : s.packageRecovering = true) (priv : Bool) (target : Option Nat) (f : Session → State → State × Answer) :
    s.serve d op priv none target f = (s.heard x).answer d op (.fail .recovering) := by
  have hop' : (s.heard x).opcodeAllowed op = true := hop
  have hrank' : (x.heard s).privileged = true := hrank
  have hopen' : (x.heard s).isOpen = true := h.isOpen
  have hrec' : (s.heard x).packageRecovering = true := hrec
  simp [h.serve, lateChecks, hop', hrank', hopen', hrec']

end

/-- The commands that need a privileged session and no owner (13 R301): each is served in the order of checks. -/
theorem exec_privileged {s : State} {d : Datagram} {op : Nat} {c : Instr}
    (hmem : (c, op) ∈ [(Instr.profileLoadStage d, 0x0010), (.profileLoadCommit d, 0x0010), (.profileLoadAbandon d, 0x0010),
      (.profileUnload d, 0x0011), (.stickyClear d, 0x0051), (.crashRead d, 0x0054), (.fwStage d, 0x0060), (.fwVerify d, 0x0061),
      (.fwActivate d, 0x0062), (.spareEngage d, 0x0071), (.recover d, 0x0090), (.partnerConfig d, 0x00A0),
      (.twinConfigEnable d, 0x00A1), (.twinConfigDisable d, 0x00A1)]) :
    (∃ target f, exec c s = .next (s.serve d op true none target f)) ∧
      (s.phase = .running → s.opcodeAllowed op = true) := by
  simp only [List.mem_cons, Prod.mk.injEq, List.not_mem_nil, or_false] at hmem
  rcases hmem with ⟨rfl, rfl⟩ | ⟨rfl, rfl⟩ | ⟨rfl, rfl⟩ | ⟨rfl, rfl⟩ | ⟨rfl, rfl⟩ | ⟨rfl, rfl⟩ | ⟨rfl, rfl⟩ | ⟨rfl, rfl⟩ |
    ⟨rfl, rfl⟩ | ⟨rfl, rfl⟩ | ⟨rfl, rfl⟩ | ⟨rfl, rfl⟩ | ⟨rfl, rfl⟩ | ⟨rfl, rfl⟩ <;>
  exact ⟨⟨_, _, rfl⟩, fun hrun => by simp [State.opcodeAllowed, hrun, knownOpcodes]⟩

/-- Settles O11: each of the commands is served, and the first check that fails answers. -/
theorem checksOfRankAndRecovery : Obligations.ChecksOfRankAndRecovery := by
  unfold Obligations.ChecksOfRankAndRecovery
  intro s d op x c hmem hport hframed hknown hopen htag hclean hnew hroom hrun
  have hfresh : Fresh s d op x := ⟨hport, hframed, hknown, hopen, htag, hclean, hnew, hroom⟩
  obtain ⟨⟨target, f, hexec⟩, hop⟩ := exec_privileged (s := s) hmem
  rw [hexec]
  exact ⟨fun hrank => congrArg _ (hfresh.serve_of_notPrivileged (hop hrun) hrank none target f),
    fun hrank hrec => congrArg _ (hfresh.serve_of_recovering (hop hrun) hrank hrec true target f)⟩

/-! ### An answer and the reply cache -/

theorem leBytes_length (k n : Nat) : (leBytes k n).length = k := by
  induction k generalizing n with
  | zero => rfl
  | succ k ih => rw [leBytes, List.length_cons, ih]

theorem beBytes_length (k n : Nat) : (beBytes k n).length = k := by
  rw [beBytes, List.length_reverse, leBytes_length]

/-- OK and PENDING carry the command's own parameters (13 R289). -/
theorem answerParams_own {st : Status} (h : st = .ok ∨ st = .pending) (ps : List Byte) (f dt : Nat) : answerParams st ps f dt = ps :=
  if_pos h

/-- Every other status carries FIELD and DETAIL (13 R289). -/
theorem answerParams_fault {st : Status} (h : st ≠ .ok) (h' : st ≠ .pending) (ps : List Byte) (f dt : Nat) :
    answerParams st ps f dt = beBytes 4 f ++ beBytes 4 dt :=
  if_neg (not_or.mpr ⟨h, h'⟩)

/-- What a session caches: the entry, and the entries of other numbers that stay in the window (13 R295). -/
theorem mem_remember {x : Session} {e c : CacheEntry} :
    c ∈ (x.remember e).cache ↔
      c = e ∨ c ∈ x.cache ∧ c.sequence ≠ e.sequence ∧ max x.h e.sequence ≤ c.sequence + 63 := by
  simp [Session.remember]

@[simp] theorem remember_h (x : Session) (e : CacheEntry) : (x.remember e).h = max x.h e.sequence := rfl
@[simp] theorem remember_number (x : Session) (e : CacheEntry) : (x.remember e).number = x.number := rfl

/-- The reply that an answer sends on session `x`. -/
def replyOf (s : State) (d : Datagram) (op : Nat) (x : Session) (a : Answer) : Reply :=
  mkReply d op x.keyOut false a.status (answerParams a.status a.params a.field a.detail) s.gts

/-- An answer on a session that exists, without a final reply and keeping the session: the session caches the reply, and it leaves. -/
theorem answer_of_session {s : State} {d : Datagram} {x : Session} (hx : s.session d.session.toNat = some x) (op : Nat) {a : Answer}
    (hfinal : a.final = none) (hclose : a.close = false) :
    s.answer d op a = (s.setSession (x.remember (cacheOf d op (replyOf s d op x a)))).emit (.reply (replyOf s d op x a)) := by
  unfold State.answer
  simp only [hx, hfinal, hclose]
  rfl

/-- Settles O12: the reply is `replyOf`, and the session that remembers it is the one found. -/
theorem answerIsSentAndCached : Obligations.AnswerIsSentAndCached := by
  unfold Obligations.AnswerIsSentAndCached
  intro s d op st ps f dt x hx
  have hnum := number_of_session hx
  dsimp only
  rw [answer_of_session hx op rfl rfl]
  refine ⟨replyOf s d op x _, x.remember (cacheOf d op (replyOf s d op x _)), rfl, rfl, rfl, rfl, rfl, rfl, rfl, rfl, rfl, rfl,
    fun h => answerParams_own h ps f dt, fun h h' => ?fault, rfl, ?session, rfl,
    fun _ => ⟨_, mem_remember.mpr (.inl rfl), rfl, rfl, rfl⟩, fun c hc => ?window, fun n hn => session_setSession_of_ne s (x := x.remember _) (hnum ▸ hn)⟩
  case fault =>
    have hparams := answerParams_fault h h' ps f dt
    exact ⟨hparams, by rw [replyOf, mkReply, hparams, List.length_append, beBytes_length, beBytes_length]⟩
  case session =>
    rw [← hnum] at hx ⊢
    exact session_setSession_same (x := x.remember _) hx
  case window =>
    rcases mem_remember.mp hc with rfl | ⟨hold, -, hwin⟩
    · exact .inl rfl
    · exact .inr ⟨hold, hwin⟩

/-! ### The end of a session -/

/-- A session that ends is gone, and no other one is (13 R292). -/
theorem session_endSession (s : State) (n m : Nat) : (s.endSession n).session m = if m = n then none else s.session m :=
  session_filter_number _ s.sessions n m rfl

/-- A session that is answered and ends: its number is free, every other session is found as before. -/
theorem session_answer_close {s : State} {d : Datagram} {x : Session} (hx : s.session d.session.toNat = some x) (op m : Nat) :
    (s.answer d op { close := true }).session m = if m = d.session.toNat then none else s.session m := by
  have hnum := number_of_session hx
  unfold State.answer
  simp only [hx, if_true]
  rw [session_endSession]
  split
  · rfl
  · rename_i hm
    exact session_setSession_of_ne s (hnum ▸ hm)

/-- An accepted SESSION_CLOSE without parameters is answered OK and ends its session. -/
theorem sessionClose_of_accepted {s : State} {d : Datagram} {x : Session} (hacc : Accepted s d 0x0003 false none none x)
    (hps : d.params = []) : exec (.sessionClose d) s = .next ((s.heard x).answer d 0x0003 { close := true }) := by
  show execSessionClose d s = _
  unfold execSessionClose
  simp only [serve_accepted hacc, hps, ne_eq, not_true_eq_false, if_false]

/-- A provisional session goes when its 5 s have passed (13 R291). -/
theorem provisionalSessionExpiry_of_provisional {s : State} {n : Nat} {x : Session} (hx : s.session n = some x)
    (hopen : x.isOpen = false) : exec (.provisionalSessionExpiry n) s =
      .next (if x.lastAt + 5 * 10 ^ 9 ≤ s.gts then { s with sessions := s.sessions.filter (·.number != n) } else s) := by
  show execProvisionalSessionExpiry n s = _
  simp only [execProvisionalSessionExpiry, hx, hopen, Bool.not_false, Bool.true_and, decide_eq_true_eq]
  split <;> rfl

/-- An open session goes when its idle time has passed and the package does not recover (13 R292). -/
theorem sessionIdleExpiry_of_open {s : State} {n : Nat} {x : Session} (hx : s.session n = some x) (hopen : x.isOpen = true) :
    exec (.sessionIdleExpiry n) s =
      .next (if x.lastAt + x.idle * 10 ^ 9 ≤ s.gts ∧ s.packageRecovering = false then s.endSession n else s) := by
  show execSessionIdleExpiry n s = _
  simp only [execSessionIdleExpiry, hx, hopen, Bool.true_and, Bool.and_eq_true, decide_eq_true_eq, Bool.not_eq_true']
  split <;> rfl

/-- Settles O15: the close by the answer that ends its session, and each expiry by its condition. -/
theorem sessionsAndTicketsEnd : Obligations.SessionsAndTicketsEnd := by
  unfold Obligations.SessionsAndTicketsEnd
  refine ⟨?close, ?provisional, ?idle, ?unknown⟩
  case close =>
    intro s d x hacc hps
    have hexec := sessionClose_of_accepted hacc hps
    refine ⟨hexec, fun t ht => ?_⟩
    obtain rfl := Host.Outcome.next.inj (ht.symm.trans hexec)
    have hsession := session_answer_close (session_heard hacc.known) 0x0003
    refine ⟨by rw [hsession, if_pos rfl], fun n hn => ?_⟩
    rw [hsession, if_neg hn]
    exact session_setSession_of_ne s (x := x.heard s) (number_of_session hacc.known ▸ hn)
  case provisional =>
    intro s n x hx hopen
    rw [provisionalSessionExpiry_of_provisional hx hopen]
    exact ⟨fun hdue => by rw [if_pos hdue], fun hearly => by rw [if_neg (Nat.not_le.mpr hearly)]⟩
  case idle =>
    intro s n x hx hopen
    rw [sessionIdleExpiry_of_open hx hopen]
    refine ⟨fun hdue hrec => by rw [if_pos ⟨hdue, hrec⟩], fun hstays => ?_⟩
    rw [if_neg]
    rintro ⟨hdue, hrec⟩
    rcases hstays with hearly | hrecovers
    · exact Nat.not_le.mpr hearly hdue
    · exact Bool.false_ne_true (hrec.symm.trans hrecovers)
  case unknown =>
    intro s n hx
    constructor
    · show execProvisionalSessionExpiry n s = _
      simp only [execProvisionalSessionExpiry, hx]
    · show execSessionIdleExpiry n s = _
      simp only [execSessionIdleExpiry, hx]

/-! ### A request that is discarded and yet settles a close -/

/-- STREAM_CLOSE of a stream that exists settles its close, whatever the order of checks made of the request. -/
theorem streamClose_settles {s t : State} {d : Datagram} {z : Stream} (hlen : d.params.length = 4)
    (hz : s.stream (beAt d.params 0 4) = some z)
    (hserve : ∀ f, s.serve d 0x0023 false (s.streamOwner d) none f = t) :
    exec (.streamClose d) s = .next (t.settleClose (beAt d.params 0 4)) := by
  show execStreamClose d s = _
  simp [execStreamClose, hserve, hlen, hz]

/-- Where a stopped stream's close is due, a STREAM_CLOSE whose checks leave the streams does more than its checks. -/
theorem streamClose_ne_of_stopped {s t : State} {d : Datagram} {z : Stream} (hlen : d.params.length = 4)
    (hz : s.stream (beAt d.params 0 4) = some z) (hstop : z.state = .stopped) (hclosing : z.closing ≠ []) (hwait : s.noneWaits)
    (hserve : ∀ f, s.serve d 0x0023 false (s.streamOwner d) none f = t) (hstreams : t.streams = s.streams)
    (hthreads : t.threads = s.threads) : exec (.streamClose d) s ≠ .next t := by
  intro h
  have hsettled : t.settleClose (beAt d.params 0 4) = t :=
    Host.Outcome.next.inj ((streamClose_settles hlen hz hserve).symm.trans h)
  have hz' := (stream_of_streams_eq hstreams (beAt d.params 0 4)).trans hz
  obtain ⟨hgone, -⟩ := settleClose_leaves_of_stopped hz' hstop hclosing fun u hu => hwait u (hthreads ▸ hu)
  rw [hsettled, hz'] at hgone
  cases hgone

namespace CloseDue

/-- A decoding stream that stopped on damage after its close had been asked for (10 R243; 13 R305): its final reply is due. -/
def stream : Stream :=
  { number := 1, owner := [], slot := 0, digest := [], cls := 3, dir := .decode, latent := false, media := 0, params := {}
    state := .stopped, status := .streamDamaged, closing := [⟨1, 70⟩] }

/-- An open session that has executed request 100. -/
def session : Session :=
  { number := 1, isOpen := true, hostKey := [], keyIn := [], keyOut := [], transcript := [], lastAt := 0, h := 100 }

/-- A running part with the stream, the session and port 0 up. -/
def state : State := { State.reset.onDie 0 fun d => { d with eth := { d.eth with up := true } } with
  phase := .running, streams := [stream], sessions := [session] }

/-- STREAM_CLOSE of stream 1 with number 1 of the session: a fragment or not, with the tag given (13 R286, R287). -/
def closeRequest (fragment : Bool) (tag : List Byte) : Datagram :=
  { port := 0, srcAddr := 0, srcPort := 0, fragment := fragment, ahead := 0, magic := 0x5A43, version := 1, flags := 0, session := 1
    sequence := 1, paramLen := 4, status := 0, reserved1 := 0, gts := 0, reserved2 := 0, params := [0, 0, 0, 1], tag := tag }

/-- The tag of the request under its session's key (13 R288). -/
def tag : List Byte := cmdTag session.keyIn (dgHeader (closeRequest false []) 0x0023 ++ [0, 0, 0, 1])

/-- The request under the tag of its session. -/
def tagged : Datagram := closeRequest false tag

theorem answersOn : state.answersOn 0 = true := by decide +kernel
theorem noneWaits : state.noneWaits := fun _ ht => absurd ht List.not_mem_nil
theorem fragment_unframed (bs : List Byte) : dgFramed (closeRequest true bs) = false := rfl

theorem stream_of_closeRequest : state.stream (beAt [0, 0, 0, 1] 0 4) = some stream := by decide +kernel

theorem tagged_framed : dgFramed tagged = true := by
  have hlen : tag.length = 16 := cmdTag_length _ _
  simp [dgFramed, tagged, closeRequest, hlen, bit]

theorem tagged_known : state.session tagged.session.toNat = some session := by decide +kernel

/-- The tag does not enter the header. -/
theorem dgHeader_tagged (op : Nat) : dgHeader tagged op = dgHeader (closeRequest false []) op := by
  simp only [dgHeader, tagged, closeRequest]

theorem tagged_tag : cmdTag session.keyIn (dgHeader tagged 0x0023 ++ tagged.params) = tagged.tag := by
  rw [dgHeader_tagged]
  simp only [tagged, closeRequest, tag]

end CloseDue

open CloseDue in
/-- Refutes O9: a STREAM_CLOSE that is an IP fragment is discarded and counted, and yet the stream it names, stopped with a close
asked for, is released. -/
theorem not_framingAndTagAreCheckedFirst : ¬ Obligations.FramingAndTagAreCheckedFirst := by
  unfold Obligations.FramingAndTagAreCheckedFirst
  rintro ⟨hunframed, -⟩
  have h := hunframed state (.streamClose (closeRequest true [])) (closeRequest true []) 0x0023 rfl answersOn (fragment_unframed _)
  exact streamClose_ne_of_stopped (z := stream) rfl stream_of_closeRequest rfl (by decide) noneWaits
    (fun f => serve_unframed _ _ _ _ f answersOn (fragment_unframed _)) rfl rfl h

open CloseDue in
/-- Refutes O10: a STREAM_CLOSE whose number lies below the window is answered STALE, and yet the stream it names, stopped with a
close asked for, is released. -/
theorem not_sequenceNumberCases : ¬ Obligations.SequenceNumberCases := by
  unfold Obligations.SequenceNumberCases
  intro h
  have hstale := (h state (.streamClose tagged) tagged 0x0023 session rfl answersOn tagged_framed (by decide) tagged_known rfl
    tagged_tag (by decide)).1 (by decide)
  refine streamClose_ne_of_stopped (s := state) (d := tagged) (z := stream) rfl stream_of_closeRequest rfl (by decide) noneWaits
    (fun f => ?_) ?_ ?_ hstale
  · rw [serve_of_tag answersOn tagged_framed tagged_known rfl tagged_tag]
    exact inSequence_of_below (by decide) (by decide) _
  · rfl
  · rfl

end Sys2Proof.Proofs

/-! PROOFS. Opening a session (13 R290 to R292): the number of a new one, what HELLO answers, and what SESSION_OPEN makes of a
provisional session. -/

namespace Sys2Proof.Proofs

open Sys2Proof Sys2Proof.Machine Sys2Proof.Laws

/-! ### The number of a new session -/

/-- A number that no new session may have: 0, or one of a live session (13 R292). -/
def numberTaken (s : State) (n : Nat) : Prop := n = 0 ∨ (s.session n).isSome = true

theorem freeSession_of_taken {s : State} {n : Nat} (h : numberTaken s n) (k : Nat) :
    s.freeSession (k + 1) n = s.freeSession k ((n + 1) % 2 ^ 32) := by
  have h' : (decide (n = 0) || (s.session n).isSome) = true := by simpa [numberTaken] using h
  simp only [State.freeSession, h', if_true]

theorem freeSession_of_free {s : State} {n : Nat} (h : ¬ numberTaken s n) (k : Nat) : s.freeSession (k + 1) n = n := by
  have h' : (decide (n = 0) || (s.session n).isSome) = false := by simpa [numberTaken] using h
  simp only [State.freeSession, h', Bool.false_eq_true, if_false]

/-- The search ends at the first free number of its range, or past the range where every one of it is taken. -/
theorem freeSession_spec (s : State) (k : Nat) : ∀ n < 2 ^ 32, s.freeSession k n < 2 ^ 32 ∧
    (numberTaken s (s.freeSession k n) → ∀ i ≤ k, numberTaken s ((n + i) % 2 ^ 32)) := by
  induction k with
  | zero =>
    intro n hn
    refine ⟨hn, fun h i hi => ?_⟩
    rw [Nat.le_zero.mp hi, Nat.add_zero, Nat.mod_eq_of_lt hn]
    exact h
  | succ k ih =>
    intro n hn
    by_cases h : numberTaken s n
    · obtain ⟨hlt, hall⟩ := ih ((n + 1) % 2 ^ 32) (Nat.mod_lt _ (by decide))
      rw [freeSession_of_taken h]
      refine ⟨hlt, fun htaken i hi => ?_⟩
      cases i with
      | zero => rwa [Nat.add_zero, Nat.mod_eq_of_lt hn]
      | succ j =>
        have hj := hall htaken j (Nat.le_of_succ_le_succ hi)
        rwa [Nat.mod_add_mod, Nat.add_assoc, Nat.add_comm 1 j] at hj
    · rw [freeSession_of_free h]
      exact ⟨hn, fun htaken => absurd htaken h⟩

/-- A taken number is 0 or the number of a session that is listed. -/
theorem mem_of_numberTaken {s : State} {n : Nat} (h : numberTaken s n) : n ∈ 0 :: s.sessions.map (·.number) := by
  rcases h with rfl | h
  · exact List.mem_cons_self
  · obtain ⟨x, hx⟩ := Option.isSome_iff_exists.mp h
    exact List.mem_cons_of_mem _ (List.mem_map.mpr ⟨x, List.mem_of_find?_eq_some hx, number_of_session hx⟩)

/-- A list without repetition whose elements stand in another list is no longer than that list. -/
theorem length_le_of_nodup {l m : List Nat} (hnodup : l.Nodup) (hsub : ∀ a ∈ l, a ∈ m) : l.length ≤ m.length := by
  induction l generalizing m with
  | nil => exact Nat.zero_le _
  | cons a l ih =>
    obtain ⟨hnew, hnodup'⟩ := List.nodup_cons.mp hnodup
    obtain ⟨ha, hsub'⟩ := List.forall_mem_cons.mp hsub
    have hle : l.length ≤ (m.erase a).length := ih hnodup' fun b hb =>
      (List.mem_erase_of_ne (ne_of_mem_of_not_mem hb hnew)).mpr (hsub' b hb)
    rw [List.length_erase_of_mem ha] at hle
    have hpos := List.length_pos_of_mem ha
    rw [List.length_cons]
    omega

/-- 129 numbers in a row are distinct modulo 2^32. -/
theorem nodup_candidates (n : Nat) : ((List.range 129).map fun i => (n + i) % 2 ^ 32).Nodup := by
  refine List.pairwise_map.mpr (List.Pairwise.imp_of_mem (fun hi hj hlt => ?_) List.pairwise_lt_range)
  rw [List.mem_range] at hi hj
  omega

/-- Of 129 numbers in a row, one is free when fewer than 128 sessions are live. -/
theorem exists_not_numberTaken {s : State} (h : s.sessions.length < 128) (n : Nat) :
    ∃ i ≤ 128, ¬ numberTaken s ((n + i) % 2 ^ 32) := by
  refine Classical.byContradiction fun hnone => ?_
  have hsub : ∀ m ∈ (List.range 129).map fun i => (n + i) % 2 ^ 32, m ∈ 0 :: s.sessions.map (·.number) := by
    intro m hm
    obtain ⟨i, hi, rfl⟩ := List.mem_map.mp hm
    refine mem_of_numberTaken (Classical.byContradiction fun hfree => hnone ⟨i, ?_, hfree⟩)
    exact Nat.le_of_lt_succ (List.mem_range.mp hi)
  have hle := length_le_of_nodup (nodup_candidates n) hsub
  simp only [List.length_map, List.length_range, List.length_cons] at hle
  omega

theorem freeSession_of_sessions_eq {s u : State} (h : u.sessions = s.sessions) (k : Nat) :
    ∀ n, u.freeSession k n = s.freeSession k n := by
  induction k with
  | zero => exact fun _ => rfl
  | succ k ih => intro n; simp only [State.freeSession, session_of_sessions_eq h, ih]

/-- A new session's number comes from a search among the sessions that are live; only the counter and the draws move. -/
theorem newSession_eq (s : State) : ∃ start ctr, s.newSession =
    (s.freeSession 128 (start % 2 ^ 32),
      { s with sessionCtr := some ((s.freeSession 128 (start % 2 ^ 32) + 1) % 2 ^ 32), freeCtr := ctr }) := by
  unfold State.newSession
  cases s.sessionCtr with
  | some n => exact ⟨n, s.freeCtr, rfl⟩
  | none =>
    have hsearch := freeSession_of_sessions_eq (s := s) (u := s.draw.2) rfl 128
    refine ⟨s.draw.1 % 2 ^ 32, s.freeCtr + 1, ?_⟩
    rw [← hsearch]
    rfl

/-- A new session's number is a number of 32 bits that is free (13 R292). -/
theorem newSession_free {s : State} (h : s.sessions.length < 128) : s.newSession.1 < 2 ^ 32 ∧ ¬ numberTaken s s.newSession.1 := by
  obtain ⟨start, ctr, heq⟩ := newSession_eq s
  obtain ⟨hlt, hall⟩ := freeSession_spec s 128 (start % 2 ^ 32) (Nat.mod_lt _ (by decide))
  obtain ⟨i, hi, hfree⟩ := exists_not_numberTaken h (start % 2 ^ 32)
  rw [heq]
  exact ⟨hlt, fun htaken => hfree (hall htaken i hi)⟩

/-! ### HELLO -/

/-- A HELLO on session 0 that passes every check before the limit of provisional sessions (13 R290, R299). -/
structure CleanHello (s : State) (d : Datagram) : Prop where
  port : s.answersOn d.port = true
  framed : dgFramed d = true
  zero : d.session = 0
  tag : cmdTag (zeros 32) (dgHeader d 0x0001 ++ d.params) = d.tag
  clean : dgClean { d with flags := d.flags &&& 0xFB } = true
  calm : s.packageRecovering = false
  length : d.params.length = 148
  pad : beAt d.params 113 3 = 0

/-- The provisional session that HELLO makes with number `n`, HELLO parameters `ps`, reply parameters `body` and shared secret `z`
(13 R290, R291). -/
def provisional (s : State) (n : Nat) (ps body z : List Byte) : Session :=
  let tr := ascii "ZLK-HELLO" ++ ps ++ body
  { number := n, isOpen := false, hostKey := slice ps 56 57, keyIn := (kmac256 z tr 64 "ZLK-KEYS").take 32
    keyOut := (kmac256 z tr 64 "ZLK-KEYS").drop 32, transcript := tr, lastAt := s.gts }

/-- HELLO's reply under the zero key. -/
def helloAnswer (s : State) (d : Datagram) (st : Status) (ps : List Byte) : Out :=
  .reply (mkReply d 0x0001 (zeros 32) true st ps s.gts)

section
variable {s : State} {d : Datagram}

/-- Sixteen provisional sessions leave no room for another. -/
theorem CleanHello.hello_of_full (h : CleanHello s d) (hfull : 16 ≤ (s.sessions.filter fun x => !x.isOpen).length) :
    s.hello d = s.emit (helloAnswer s d .noResource (beBytes 4 0xFFFFFFFF ++ beBytes 4 0)) := by
  obtain ⟨hport, hframed, hzero, htag, hclean, hcalm, hlength, hpad⟩ := h
  have hzero' : (d.session != 0) = false := by simp [hzero]
  simp only [State.hello, hport, hframed, hzero', htag, hclean, hcalm, hlength, hpad, ge_iff_le, hfull, Bool.not_true,
    Bool.false_eq_true, ne_eq, not_true_eq_false, if_false, if_true]
  rfl

variable {priv nonce : List Byte} {s1 s2 s3 : State} {n : Nat}

/-- A key exchange whose result is zero makes no session. -/
theorem CleanHello.hello_of_zero (h : CleanHello s d) (hroom : (s.sessions.filter fun x => !x.isOpen).length < 16)
    (hpriv : s.drawBytes 56 = (priv, s1)) (hz : leNat (x448 priv (d.params.take 56)) = 0) :
    s.hello d = s1.emit (helloAnswer s d .authFail (answerParams .authFail [] 0 0)) := by
  obtain ⟨hport, hframed, hzero, htag, hclean, hcalm, hlength, hpad⟩ := h
  have hzero' : (d.session != 0) = false := by simp [hzero]
  simp only [State.hello, hport, hframed, hzero', htag, hclean, hcalm, hlength, hpad, ge_iff_le, Nat.not_le.mpr hroom, hpriv, hz,
    Bool.not_true, Bool.false_eq_true, ne_eq, not_true_eq_false, if_false, if_true]
  rfl

/-- Any other key exchange adds a provisional session, and its reply carries what the keys come from. -/
theorem CleanHello.hello_of_exchange (h : CleanHello s d) (hroom : (s.sessions.filter fun x => !x.isOpen).length < 16)
    (hpriv : s.drawBytes 56 = (priv, s1)) (hz : leNat (x448 priv (d.params.take 56)) ≠ 0)
    (hnonce : s1.drawBytes 32 = (nonce, s2)) (hnum : s2.newSession = (n, s3)) {body : List Byte}
    (hbody : s3.helloReply (x448 priv x448Base) nonce n = body) :
    s.hello d =
      { s3 with sessions := s3.sessions ++ [provisional s n d.params body (x448 priv (d.params.take 56))] }.emit
        (helloAnswer s d .ok
          (body ++ ed448Sign (deviceSecret 0) (ascii "ZLK-HELLO" ++ d.params ++ body) "ZLK-PART" ++ zeros 2)) := by
  obtain ⟨hport, hframed, hzero, htag, hclean, hcalm, hlength, hpad⟩ := h
  have hzero' : (d.session != 0) = false := by simp [hzero]
  simp only [State.hello, hport, hframed, hzero', htag, hclean, hcalm, hlength, hpad, ge_iff_le, Nat.not_le.mpr hroom, hpriv, hz,
    hnonce, hnum, hbody, Bool.not_true, Bool.false_eq_true, ne_eq, not_true_eq_false, if_false]
  rfl

end

/-- Settles O13: the three ends of a clean HELLO, and the free number by counting. -/
theorem helloCreatesAProvisionalSession : Obligations.HelloCreatesAProvisionalSession := by
  unfold Obligations.HelloCreatesAProvisionalSession
  refine ⟨?hello, fun s hlen => ?number⟩
  case hello =>
    intro s d hport hframed hzero htag hclean hcalm hlength hpad
    have h : CleanHello s d := ⟨hport, hframed, hzero, htag, hclean, hcalm, hlength, hpad⟩
    have hexec : exec (.hello d) s = .next (s.hello d) := rfl
    simp only [hexec]
    refine ⟨fun hfull => congrArg _ (h.hello_of_full hfull), fun hroom hz => ?_, fun hroom hz => ?_⟩
    · exact ⟨_, congrArg _ (h.hello_of_zero hroom rfl hz), rfl, by simp [mkReply, hzero]⟩
    · exact ⟨_, _, congrArg _ (h.hello_of_exchange hroom rfl hz rfl rfl rfl), rfl, rfl, rfl, rfl, rfl, rfl, rfl, rfl, rfl, rfl, rfl,
        rfl⟩
  case number =>
    obtain ⟨hlt, hfree⟩ := newSession_free hlen
    obtain ⟨hne, hnone⟩ := not_or.mp hfree
    refine ⟨hne, hlt, Option.not_isSome_iff_eq_none.mp hnone, ?_⟩
    obtain ⟨start, ctr, heq⟩ := newSession_eq s
    rw [heq]
    exact ⟨rfl, rfl⟩

/-! ### SESSION_OPEN -/

/-- A SESSION_OPEN with number 0 on a provisional session that has not executed it, whose fields are all in range, outside package
recovery: what stands between it and an open session is its signature, its rank and the room (13 R291, R299). -/
structure CleanOpen (s : State) (d : Datagram) (x : Session) : Prop where
  port : s.answersOn d.port = true
  framed : dgFramed d = true
  known : s.session d.session.toNat = some x
  provisional : x.isOpen = false
  tag : cmdTag x.keyIn (dgHeader d 0x0002 ++ d.params) = d.tag
  clean : dgClean d = true
  calm : s.packageRecovering = false
  length : d.params.length = 120
  first : d.sequence = 0
  window : x.h ≤ 63
  unseen : ∀ e ∈ x.cache, e.sequence ≠ 0
  rank : beAt d.params 0 1 ≤ 1
  pad : beAt d.params 1 1 = 0
  idle : beAt d.params 2 2 ≤ 3600
  tail : beAt d.params 118 2 = 0

/-- SESSION_OPEN's signature over the transcript of the HELLO exchange (13 R291). -/
def openSigned (d : Datagram) (x : Session) : Bool := ed448Verify x.hostKey x.transcript (slice d.params 4 114) "ZLK-HOST"

/-- The sessions that may be open at once (13 R292, R308). -/
def openLimit (s : State) : Nat := if s.phase = .netRecovery then 4 else 64

/-- The state after a provisional session was discarded with an answer outside the cache. -/
def discarded (s : State) (d : Datagram) (x : Session) (st : Status) (field : Nat) : State :=
  ({ s with sessions := s.sessions.filter (·.number != x.number) } : State).emit
    (.reply (mkReply d 0x0002 x.keyOut false st (answerParams st [] field 0) s.gts))

/-- Whether the request asks for a privileged session. -/
def asksRank (d : Datagram) : Bool := beAt d.params 0 1 == 1

theorem asksRank_iff (d : Datagram) : asksRank d = true ↔ beAt d.params 0 1 = 1 := beq_iff_eq

theorem b01_asksRank {d : Datagram} (h : beAt d.params 0 1 ≤ 1) : b01 (asksRank d) = beAt d.params 0 1 := by
  rcases Nat.le_one_iff_eq_zero_or_eq_one.mp h with hw | hw <;> simp [asksRank, hw, b01]

/-- The reply that opens a session. -/
def openReply (s : State) (d : Datagram) (x : Session) : Reply :=
  mkReply d 0x0002 x.keyOut false .ok [byte (b01 (asksRank d)), 0, 0, 0] s.gts

/-- A provisional session once it is open (13 R291). -/
def opened (s : State) (d : Datagram) (x : Session) : Session :=
  { x with
    isOpen := true, privileged := asksRank d, idle := if beAt d.params 2 2 = 0 then 60 else beAt d.params 2 2, lastAt := s.gts, h := 0
    cache := [cacheOf d 0x0002 (openReply s d x)] }

section
variable {s : State} {d : Datagram} {x : Session}

/-- Its number decides nothing: it lies in the window and is not cached. -/
theorem CleanOpen.seqCase (h : CleanOpen s d x) : x.seqCase d.sequence.toNat d.tag = .execute := by
  have hnone : x.cache.find? (·.sequence == 0) = none := by simpa using h.unseen
  simp [Session.seqCase, h.first, hnone, Nat.not_lt.mpr h.window]

/-- A clean SESSION_OPEN comes to its signature, its rank and the room. -/
theorem CleanOpen.exec_eq (h : CleanOpen s d x) :
    exec (.sessionOpen d) s = .next
      (if !openSigned d x then discarded s d x .authFail 4
      else if asksRank d && !s.keyAllowed x.hostKey then discarded s d x .notPrivileged 0
      else if openLimit s ≤ (s.sessions.filter (·.isOpen)).length then s.answer d 0x0002 (.fail .noResource)
      else (s.setSession (opened s d x)).emit (.reply (openReply s d x))) := by
  have hseq := h.seqCase
  obtain ⟨hport, hframed, hknown, hprov, htag, hclean, hcalm, hlength, hfirst, -, -, hrank, hpad, hidle, htail⟩ := h
  have hfirst' : (d.sequence != 0) = false := by simp [hfirst]
  show execSessionOpen d s = _
  simp only [execSessionOpen, State.openSession, hknown, hprov, hport, hframed, htag, Bool.not_true, Bool.false_eq_true, ne_eq,
    not_true_eq_false, decide_false, Bool.or_self, if_false, inSequence_of_execute hclean hseq, hcalm, hlength, hfirst',
    gt_iff_lt, Nat.not_lt.mpr hrank, hpad, Nat.not_lt.mpr hidle, htail]
  rfl

/-- A signature that fails discards the session. -/
theorem CleanOpen.exec_of_unsigned (h : CleanOpen s d x) (hsig : openSigned d x = false) :
    exec (.sessionOpen d) s = .next (discarded s d x .authFail 4) := by
  simp only [h.exec_eq, hsig, Bool.not_false, if_true]

/-- A key that may not be privileged discards the session that asks to be. -/
theorem CleanOpen.exec_of_rank (h : CleanOpen s d x) (hsig : openSigned d x = true) (hwants : beAt d.params 0 1 = 1)
    (hkey : s.keyAllowed x.hostKey = false) : exec (.sessionOpen d) s = .next (discarded s d x .notPrivileged 0) := by
  simp only [h.exec_eq, hsig, (asksRank_iff d).mpr hwants, hkey, Bool.not_true, Bool.not_false, Bool.and_true, Bool.false_eq_true,
    if_false, if_true]

/-- With a signature that holds and the rank allowed, the room decides. -/
theorem CleanOpen.exec_of_allowed (h : CleanOpen s d x) (hsig : openSigned d x = true)
    (hkey : beAt d.params 0 1 = 1 → s.keyAllowed x.hostKey = true) :
    exec (.sessionOpen d) s = .next
      (if openLimit s ≤ (s.sessions.filter (·.isOpen)).length then s.answer d 0x0002 (.fail .noResource)
      else (s.setSession (opened s d x)).emit (.reply (openReply s d x))) := by
  have hrank : (asksRank d && !s.keyAllowed x.hostKey) = false := by
    cases hw : asksRank d with
    | false => rfl
    | true => simp [hkey ((asksRank_iff d).mp hw)]
  simp only [h.exec_eq, hsig, hrank, Bool.not_true, Bool.false_eq_true, if_false]

end

/-- Settles O14: what is left of a clean SESSION_OPEN is a choice by signature, rank and room. -/
theorem sessionOpenOutcomes : Obligations.SessionOpenOutcomes := by
  unfold Obligations.SessionOpenOutcomes
  intro s d x hport hframed hknown hprov htag hclean hcalm hlength hfirst hwindow hunseen hrank hpad hidle htail
  have h : CleanOpen s d x :=
    ⟨hport, hframed, hknown, hprov, htag, hclean, hcalm, hlength, hfirst, hwindow, hunseen, hrank, hpad, hidle, htail⟩
  refine ⟨fun hsig => ⟨_, h.exec_of_unsigned hsig, rfl⟩, fun hsig hwants hkey => ⟨_, h.exec_of_rank hsig hwants hkey, rfl⟩,
    fun hsig hkey hfull => ?room, fun hsig hkey hroom => ?opens⟩
  case room => exact (h.exec_of_allowed hsig hkey).trans (congrArg _ (if_pos hfull))
  case opens =>
    have hcache : (opened s d x).cache =
        [{ sequence := 0, tag := d.tag, opcode := 0x0002, reply := openReply s d x, pending := false }] := by
      simp [opened, cacheOf, hfirst, openReply, mkReply]
    have hparams : (openReply s d x).params = [byte (beAt d.params 0 1), 0, 0, 0] := by rw [← b01_asksRank hrank]; rfl
    exact ⟨opened s d x, openReply s d x, (h.exec_of_allowed hsig hkey).trans (congrArg _ (if_neg (Nat.not_le.mpr hroom))), rfl,
      hparams, rfl, rfl, asksRank_iff d, rfl, rfl, rfl, rfl, rfl, rfl, hcache⟩

end Sys2Proof.Proofs

/-! PROOFS. REG_READ and REG_WRITE (13 R307; 15 R337, R338, R341): what one register gives a session, and what the two commands
answer and leave. -/

namespace Sys2Proof.Proofs

open Sys2Proof Sys2Proof.Machine Sys2Proof.Laws

/-! ### Reading -/

/-- A request that was heard changes no register. -/
@[simp] theorem heard_regValue (s : State) (x : Session) (m : Master) (die off : Nat) :
    (s.heard x).regValue m die off = s.regValue m die off := rfl

@[simp] theorem heard_regParamFault (s : State) (x : Session) (ps : List Byte) (most : Nat) :
    regParamFault (s.heard x) ps most = regParamFault s ps most := rfl

/-- An open session reaches guarded registers when it is privileged (15 R338). -/
theorem reaches_heard {s : State} {x : Session} (hx : s.session x.number = some x) (hopen : x.isOpen = true) :
    (s.heard x).reaches (.session x.number) = x.privileged := by
  have hopen' : (x.heard s).isOpen = true := hopen
  simp only [State.reaches, session_heard hx, hopen', Bool.true_and]
  rfl

/-- A register that a master reaches is read without a trace. -/
theorem regRead_of_reached {s : State} {m : Master} {die off : Nat} (hind : off ≠ 0x030004)
    (hreach : guarded die off = true → s.reaches m = true) : s.regRead m die off = (s.regValue m die off, false, s) := by
  have hguard : (guarded die off && !s.reaches m) = false := by
    cases hg : guarded die off with
    | false => rfl
    | true => simp [hreach hg]
  simp only [State.regRead, if_neg hind, hguard, Bool.false_eq_true, if_false]

/-- A guarded register out of reach reads 0. -/
theorem regRead_of_unreached {s : State} {m : Master} {die off : Nat} (hguard : guarded die off = true)
    (hreach : s.reaches m = false) : s.regRead m die off = (0, true, s) := by
  have hind : off ≠ 0x030004 := by
    rintro rfl
    simp [guarded] at hguard
  simp [State.regRead, hind, hguard, hreach]

/-- Registers that a master reaches are read in order without a trace. -/
theorem regReads_of_reached {s : State} {m : Master} {die : Nat} {offs : List Nat}
    (h : ∀ o ∈ offs, o ≠ 0x030004 ∧ (guarded die o = true → s.reaches m = true)) :
    regReads m die offs s = (offs.map (s.regValue m die), false, s) := by
  induction offs with
  | nil => rfl
  | cons o os ih =>
    obtain ⟨⟨hind, hreach⟩, hrest⟩ := List.forall_mem_cons.mp h
    simp only [regReads, regRead_of_reached hind hreach, ih hrest, Bool.or_self, List.map_cons]

/-- Accesses that leave IND_DATA alone are few enough to be answered at once (13 R307). -/
theorem indAccesses_of_none {offs : List Nat} (h : ∀ o ∈ offs, o ≠ 0x030004) :
    ¬ 256 < (offs.filter (· == 0x030004)).length := by
  rw [List.filter_eq_nil_iff.mpr fun o ho => by simpa using h o ho]
  decide

section
variable {s : State} {d : Datagram} {x : Session}

/-- The registers a REG command names, in the order of its access (13 R307). -/
def namedRegs (d : Datagram) : List Nat := regOffsets (beAt d.params 1 3) (beAt d.params 4 2) (beAt d.params 6 2 == 1)

/-- An accepted REG_READ with well-formed parameters that leaves IND_DATA alone answers what its reads give. -/
theorem regRead_of_accepted (hacc : Accepted s d 0x0040 false none (some (beAt d.params 0 1)) x) (hlen : d.params.length = 8)
    (hps : regParamFault s d.params 1024 = none) (hind : ∀ o ∈ namedRegs d, o ≠ 0x030004) {vs : List Nat} {g : Bool} {u : State}
    (hreads : regReads (.session x.number) (beAt d.params 0 1) (namedRegs d) (s.heard x) = (vs, g, u)) :
    exec (.regRead d) s =
      .next ((if g then u.violation (.session x.number) else u).answer d 0x0040 (.good (vs.flatMap (beBytes 4)))) := by
  have hfew := indAccesses_of_none hind
  unfold namedRegs at hreads hfew
  have hnum : (x.heard s).number = x.number := rfl
  show execRegRead d s = _
  unfold execRegRead
  rw [serve_accepted hacc]
  simp only [hlen, heard_regParamFault, hps, hnum, hreads, hfew, ne_eq, not_true_eq_false, if_false]

/-- What REG_WRITE makes of the end of its writes, begun in `t` (13 R307; 15 R338, R341): the state with all of them, or `t`. -/
def writesAnswer (m : Master) (t : State) : Except (Nat × WriteErr × Bool) (Bool × State) → State × Answer
  | .ok (g, u) => (if g then u.violation m else u, .good [])
  | .error (i, e, g) =>
    (if g then t.violation m else t, .fail (match e with | .range => .badParam | .busy => .resourceBusy) (8 + 4 * i))

/-- An accepted REG_WRITE with well-formed parameters that leaves IND_DATA alone ends as its writes do. -/
theorem regWrite_of_accepted (hacc : Accepted s d 0x0041 false none (some (beAt d.params 0 1)) x)
    (hps : regParamFault s d.params 1021 = none) (hlen : d.params.length = 8 + 4 * beAt d.params 4 2)
    (hind : ∀ o ∈ namedRegs d, o ≠ 0x030004) {r : Except (Nat × WriteErr × Bool) (Bool × State)}
    (hwrites : regWrites (.session x.number) (beAt d.params 0 1)
      ((namedRegs d).zip ((List.range (beAt d.params 4 2)).map fun i => beAt d.params (8 + 4 * i) 4)) 0 false none (s.heard x) = r) :
    exec (.regWrite d) s = .next ((writesAnswer (.session x.number) (s.heard x) r).1.answer d 0x0041
      (writesAnswer (.session x.number) (s.heard x) r).2) := by
  have hfew := indAccesses_of_none hind
  unfold namedRegs at hfew hwrites
  have hnum : (x.heard s).number = x.number := rfl
  have hlong : ¬ 8 + 4 * beAt d.params 4 2 < 8 := by omega
  show execRegWrite d s = _
  unfold execRegWrite
  rw [serve_accepted hacc]
  simp only [hlen, hlong, heard_regParamFault, hps, hnum, hfew, hwrites, ne_eq, not_true_eq_false, if_false]
  rcases r with ⟨i, e, g⟩ | ⟨g, u⟩
  · cases e <;> rfl
  · rfl

end

/-- Settles O16: reads in reach leave the state, writes end as their fold says, and one read out of reach is one violation. -/
theorem registerCommands : Obligations.RegisterCommands := by
  unfold Obligations.RegisterCommands
  refine ⟨?read, ?write, ?refused⟩
  case read =>
    intro s d x hacc hlen hps die offs hoffs
    have hnum := number_of_session hacc.known
    have hreach := reaches_heard (hnum.symm ▸ hacc.known) hacc.isOpen
    have hreads := regReads_of_reached (s := s.heard x) (m := .session x.number) fun o ho =>
      ⟨(hoffs o ho).1, fun hg => hreach.trans ((hoffs o ho).2 hg)⟩
    rw [regRead_of_accepted hacc hlen hps (fun o ho => (hoffs o ho).1) hreads]
    simp only [Bool.false_eq_true, if_false, List.flatMap_map]
    rfl
  case write =>
    intro s d x hacc hps hlen die m offs vals hoffs
    generalize hwrites : regWrites m die (offs.zip vals) 0 false none (s.heard x) = r
    rw [regWrite_of_accepted hacc hps hlen hoffs hwrites]
    rcases r with ⟨i, e, g⟩ | ⟨g, u⟩
    · cases e <;> rfl
    · rfl
  case refused =>
    intro s d x hacc hlen hps hone hrank hguard
    have hregs : namedRegs d = [beAt d.params 1 3] := by
      simp [namedRegs, regOffsets, hone]
    have hnum := number_of_session hacc.known
    have hreach := (reaches_heard (hnum.symm ▸ hacc.known) hacc.isOpen).trans hrank
    have hreads : regReads (.session x.number) (beAt d.params 0 1) (namedRegs d) (s.heard x) = ([0], true, s.heard x) := by
      simp only [hregs, regReads, regRead_of_unreached hguard hreach, Bool.or_false]
    have hind : ∀ o ∈ namedRegs d, o ≠ 0x030004 := by
      rw [hregs]
      rintro o ho rfl
      rw [← List.mem_singleton.mp ho] at hguard
      simp [guarded] at hguard
    rw [regRead_of_accepted hacc hlen hps hind hreads]
    rfl

end Sys2Proof.Proofs

/-! PROOFS. EVENT_READ, STICKY_CLEAR, COUNTER_READ, CAPS_QUERY, CRASH_READ and an unknown opcode (13 R301, R308; 16 R374, R375, R378;
17 R399): what each answers and what it takes from its die. -/

namespace Sys2Proof.Proofs

open Sys2Proof Sys2Proof.Machine Sys2Proof.Laws

@[simp] theorem heard_die (s : State) (x : Session) (i : Nat) : (s.heard x).die i = s.die i := rfl

/-- The largest part has eight dies (00 R1). -/
theorem dieCount_le (s : State) : s.dieCount ≤ 8 := by
  unfold State.dieCount
  cases s.part <;> decide

/-! ### EVENT_READ (16 R374, R375) -/

/-- Sorting images by their own order is sorting by the order of the images. -/
theorem sortBy_map {α β : Type} (g : α → β) (le : β → β → Bool) (l : List α) :
    sortBy le (l.map g) = (sortBy (fun a b => le (g a) (g b)) l).map g := by
  suffices h : ∀ acc : List α,
      (l.map g).foldl (fun acc a => acc.takeWhile (fun b => le b a) ++ a :: acc.dropWhile (fun b => le b a)) (acc.map g) =
        (l.foldl (fun acc a => acc.takeWhile (fun b => le (g b) (g a)) ++ a :: acc.dropWhile (fun b => le (g b) (g a))) acc).map g
    from h []
  induction l with
  | nil => exact fun _ => rfl
  | cons a l ih =>
    intro acc
    rw [List.map_cons, List.foldl_cons, List.foldl_cons, ← ih, List.takeWhile_map, List.dropWhile_map, List.map_append, List.map_cons]
    rfl

/-- The records of one die in the order of the queues. -/
theorem mergedEvents_singleton (s : State) (die : Nat) :
    s.mergedEvents [die] = (sortBy EventRec.le (s.die die).events).map fun r => (die, r) := by
  simp only [State.mergedEvents, List.flatMap_singleton, sortBy_map]

/-- The record that ends an overflow of a die's queue: how many were discarded (16 R375). -/
def overflowEnd (s : State) (i : Nat) : EventRec := s.mkEvent i 0x1000 0x0102 (min (s.die i).discarded 0xFFFFFFFF)

/-- Die `i` once `k` records of die `die` have been read. -/
def dieTaken (s : State) (die k : Nat) (x : Die) (i : Nat) : Die := x.afterRead (if i = die then k else 0) (overflowEnd s i)

/-- The state after `k` records of a die were read. -/
def eventsTaken (s : State) (die k : Nat) : State := { s with dies := s.dies.zipIdx.map fun p => dieTaken s die k p.1 p.2 }

@[simp] theorem afterRead_zero (x : Die) (r : EventRec) : x.afterRead 0 r = x := rfl

/-- Dies replaced each by a function of its place. -/
theorem getD_map_zipIdx {α : Type} (l : List α) (f : α → Nat → α) (i : Nat) (a : α) :
    (l.zipIdx.map fun p => f p.1 p.2).getD i a = if i < l.length then f (l.getD i a) i else a := by
  simp only [List.getD_eq_getElem?_getD, List.getElem?_map, List.getElem?_zipIdx]
  split <;> rename_i h
  · simp [h]
  · simp [List.getElem?_eq_none (Nat.not_lt.mp h)]

theorem die_eventsTaken (s : State) (die k i : Nat) :
    (eventsTaken s die k).die i = if i < s.dies.length then dieTaken s die k (s.die i) i else {} :=
  getD_map_zipIdx s.dies (dieTaken s die k) i {}

theorem die_eventsTaken_of_ne (s : State) {die i : Nat} (k : Nat) (h : i ≠ die) : (eventsTaken s die k).die i = s.die i := by
  rw [die_eventsTaken]
  split <;> rename_i hi
  · rw [dieTaken, if_neg h, afterRead_zero]
  · rw [State.die, List.getD_eq_getElem?_getD, List.getElem?_eq_none (Nat.not_lt.mp hi)]
    rfl

theorem die_eventsTaken_same (s : State) {die : Nat} (k : Nat) (h : die < s.dies.length) :
    (eventsTaken s die k).die die = (s.die die).afterRead k (overflowEnd s die) := by
  rw [die_eventsTaken, if_pos h, dieTaken, if_pos rfl]

/-- A queue without discards loses the records read. -/
theorem afterRead_of_kept {x : Die} (h : x.discarded = 0) (k : Nat) (r : EventRec) :
    x.afterRead k r = { x with events := x.events.drop k } := by
  cases k with
  | zero => rfl
  | succ k => simp [Die.afterRead, h]

/-- A queue with discards loses the records read, and the overflow ends with its record (16 R375). -/
theorem afterRead_of_discarded {x : Die} (h : x.discarded ≠ 0) {k : Nat} (hk : k ≠ 0) (r : EventRec) :
    x.afterRead k r = { x with events := r.insert (x.events.drop k), discarded := 0 } := by
  simp [Die.afterRead, h, hk]

section
variable {s : State} {d : Datagram} {x : Session}

theorem b01_not_isEmpty {α : Type} (l : List α) [Decidable (l = [])] : b01 (!l.isEmpty) = if l = [] then 0 else 1 := by
  cases l with
  | nil => exact (if_pos rfl).symm
  | cons a l => exact (if_neg (List.cons_ne_nil a l)).symm

/-- The records that EVENT_READ of a die returns: up to MAX of its oldest. -/
def oldest (s : State) (d : Datagram) (die : Nat) : List EventRec :=
  (sortBy EventRec.le (s.die die).events).take (beAt d.params 1 1)

/-- An accepted EVENT_READ of one die returns its oldest records and takes as many. -/
theorem eventRead_of_accepted {die : Nat} (hacc : Accepted s d 0x0050 false none (some die) x) (hlen : d.params.length = 4)
    (hdie : beAt d.params 0 1 = die) (hpresent : die < s.dieCount) (hmost : beAt d.params 1 1 ≠ 0) (hpad : beAt d.params 2 2 = 0)
    {out : List EventRec} (hout : oldest s d die = out) {u : State} (hu : eventsTaken (s.heard x) die out.length = u) :
    exec (.eventRead d) s = .next (u.answer d 0x0050 (.good
      ([byte out.length, byte (if (u.die die).events = [] then 0 else 1), 0, 0] ++ out.flatMap EventRec.bytes))) := by
  have hone : die ≠ 0xFF := by
    have := dieCount_le s
    omega
  have hmerged : ((s.heard x).mergedEvents [die]).take (beAt d.params 1 1) = out.map fun r => (die, r) := by
    rw [mergedEvents_singleton, ← List.map_take, heard_die, ← hout, oldest]
  have hcount (i : Nat) : ((out.map fun r => (die, r)).filter fun r => r.1 == i).length = if i = die then out.length else 0 := by
    by_cases hi : i = die
    · simp [List.filter_map, Function.comp_def, hi]
    · simp [List.filter_map, Function.comp_def, hi, Ne.symm hi]
  show execEventRead d s = _
  unfold execEventRead
  simp only [hdie, hone, if_false]
  rw [serve_accepted hacc]
  simp only [hlen, heard_dieCount, Nat.not_le.mpr hpresent, hmost, hpad, hone, hmerged, hcount, ne_eq, not_true_eq_false,
    not_false_eq_true, and_false, if_false, List.length_map, List.any_cons, List.any_nil, Bool.or_false, List.flatMap_map]
  rw [← b01_not_isEmpty, ← hu]
  rfl

/-! ### Sticky bits, counters, capabilities and unknown opcodes -/

/-- An accepted STICKY_CLEAR clears the mask's bits of its die (16 R378). -/
theorem stickyClear_of_accepted (hacc : Accepted s d 0x0051 true none (some (beAt d.params 0 1)) x) (hlen : d.params.length = 12)
    (hpresent : beAt d.params 0 1 < s.dieCount) (hpad : beAt d.params 1 3 = 0) :
    exec (.stickyClear d) s = .next (((s.heard x).onDie (beAt d.params 0 1) fun e =>
      e.unstick (BitVec.ofNat 64 (beAt d.params 4 8))).answer d 0x0051 (.good [])) := by
  show execStickyClear d s = _
  unfold execStickyClear
  simp only [serve_accepted hacc, hlen, heard_dieCount, Nat.not_le.mpr hpresent, hpad, ne_eq, not_true_eq_false, if_false]

/-- An accepted COUNTER_READ of counters inside their block answers their values (15 R365). -/
theorem counterRead_of_accepted (hacc : Accepted s d 0x0052 false none (some (beAt d.params 0 1)) x) (hlen : d.params.length = 8)
    (hpresent : beAt d.params 0 1 < s.dieCount) (hlow : 0x220000 ≤ beAt d.params 1 3) (halign : beAt d.params 1 3 % 8 = 0)
    (hsome : 0 < beAt d.params 4 2) (hmost : beAt d.params 4 2 ≤ 512) (hhigh : beAt d.params 1 3 + 8 * beAt d.params 4 2 ≤ 0x230000)
    (hpad : beAt d.params 6 2 = 0) :
    exec (.counterRead d) s = .next ((s.heard x).answer d 0x0052 (.good ((List.range (beAt d.params 4 2)).flatMap fun k =>
      beBytes 8 ((s.die (beAt d.params 0 1)).cnt.getD ((beAt d.params 1 3 - 0x220000) / 8 + k) 0).toNat))) := by
  have hoff : ¬ (beAt d.params 1 3 < 0x220000 ∨ ¬ (beAt d.params 1 3 - 0x220000) % 8 = 0 ∨ 0x230000 ≤ beAt d.params 1 3) := by omega
  have hcount : ¬ (beAt d.params 4 2 = 0 ∨ 512 < beAt d.params 4 2 ∨ 0x230000 < beAt d.params 1 3 + 8 * beAt d.params 4 2) := by
    omega
  show execCounterRead d s = _
  unfold execCounterRead
  simp only [serve_accepted hacc, hlen, heard_dieCount, Nat.not_le.mpr hpresent, hoff, hcount, hpad, ne_eq, not_true_eq_false, if_false,
    heard_die]

/-- An opcode outside the table is allowed in no mode (13 R301, R308). -/
theorem opcodeAllowed_of_unknown {op : Nat} (h : op ∉ knownOpcodes) : s.opcodeAllowed op = false := by
  have hrecovery : op ∉ recoveryOpcodes := fun hr => h ((by decide : recoveryOpcodes ⊆ knownOpcodes) hr)
  simp [State.opcodeAllowed, h, hrecovery]

/-! ### CRASH_READ (17 R399) -/

/-- An accepted CRASH_READ of a number that no record has. -/
theorem crashRead_of_none (hacc : Accepted s d 0x0054 true none none x) (hlen : d.params.length = 12)
    (hnone : s.crash.length ≤ beAt d.params 0 4) :
    exec (.crashRead d) s = .next ((s.heard x).answer d 0x0054 (.fail .badParam 0)) := by
  have hget : (s.heard x).crash[beAt d.params 0 4]? = none := List.getElem?_eq_none hnone
  show execCrashRead d s = _
  unfold execCrashRead
  rw [serve_accepted hacc]
  simp only [hlen, hget, ne_eq, not_true_eq_false, if_false]

/-- An accepted CRASH_READ inside a record whose recovery has ended answers its bytes. -/
theorem crashRead_of_some (hacc : Accepted s d 0x0054 true none none x) (hlen : d.params.length = 12) {c : CrashRec}
    (hc : s.crash[beAt d.params 0 4]? = some c) (hended : ∀ r ∈ s.recoveries, r.seq ≠ c.seq)
    (hoff : beAt d.params 4 4 < s.crashLength c) (hsome : 0 < beAt d.params 8 2) (hmost : beAt d.params 8 2 ≤ 4080) (hpad : beAt d.params 10 2 = 0) :
    exec (.crashRead d) s = .next ((s.heard x).answer d 0x0054 (.good (beBytes 4 s.crash.length ++ beBytes 4 (s.crashLength c) ++
      zeros 8 ++ slice (s.crashBytes c) (beAt d.params 4 4) (beAt d.params 8 2)))) := by
  have hget : (s.heard x).crash[beAt d.params 0 4]? = some c := hc
  have hfind : (s.heard x).recoveries.find? (fun r => r.seq == c.seq) = none :=
    List.find?_eq_none.mpr fun r hr => by simpa using hended r hr
  have hoff' : ¬ (s.heard x).crashLength c ≤ beAt d.params 4 4 := Nat.not_le.mpr hoff
  have hcount : ¬ (beAt d.params 8 2 = 0 ∨ 4080 < beAt d.params 8 2) := by omega
  show execCrashRead d s = _
  unfold execCrashRead
  rw [serve_accepted hacc]
  simp only [hlen, hget, hfind, if_neg hoff', if_neg hcount, hpad, ne_eq, not_true_eq_false, if_false]
  rfl

end

/-- The first eight bytes of a record: MAGIC, VERSION, DOMAIN, DIE, REGION, TRIGGER and MODE. -/
theorem crashBytes_take (s : State) (c : CrashRec) : (s.crashBytes c).take 8 = leBytes 2 0x5A58 ++
    [1, byte (domainCode c.dom), byte (domainDie c.dom), byte (domainRegion c.dom), byte c.trigger, byte (b01 c.compat)] := by
  simp only [State.crashBytes, List.append_assoc]
  rfl

/-- Settles O18: each command by the lemma on what it answers. -/
theorem recordCommands : Obligations.RecordCommands := by
  unfold Obligations.RecordCommands
  refine ⟨?events, ?sticky, ?counters, ?caps, ?unknown, ?crash⟩
  case events =>
    intro s d x die hacc hlen hdie hpresent hdies hmost hpad recs out
    have hlt : die < s.dies.length := hdies ▸ Nat.lt_of_lt_of_le hpresent (dieCount_le s)
    have hsame : (eventsTaken (s.heard x) die out.length).die die = (s.die die).afterRead out.length (overflowEnd s die) :=
      die_eventsTaken_same (s.heard x) out.length hlt
    refine ⟨_, eventRead_of_accepted hacc hlen hdie.symm hpresent hmost hpad (out := out) rfl rfl,
      fun i hi => die_eventsTaken_of_ne (s.heard x) _ hi, fun hkept => hsame.trans (afterRead_of_kept hkept _ _),
      fun hdiscarded hout => ?_⟩
    rw [hsame, afterRead_of_discarded hdiscarded fun hnil => hout (List.length_eq_zero_iff.mp hnil)]
    exact ⟨rfl, rfl⟩
  case sticky => exact fun s d x hacc hlen hpresent hpad => stickyClear_of_accepted hacc hlen hpresent hpad
  case counters =>
    exact fun s d x hacc hlen hpresent hlow halign hsome hmost hhigh hpad =>
      counterRead_of_accepted hacc hlen hpresent hlow halign hsome hmost hhigh hpad
  case caps =>
    intro s d x hacc hps
    show execCapsQuery d s = _
    unfold execCapsQuery
    rw [serve_accepted hacc]
    simp only [hps, ne_eq, not_true_eq_false, if_false, b01, beq_iff_eq]
    rfl
  case unknown =>
    intro s d x op hport hframed hknown hopen htag hclean hnew hroom hop
    have hfresh : Fresh s d op.toNat x := ⟨hport, hframed, hknown, hopen, htag, hclean, hnew, hroom⟩
    exact congrArg _ (hfresh.serve_of_badOpcode (opcodeAllowed_of_unknown hop) _ _ _ _)
  case crash =>
    exact fun s d x hacc hlen => ⟨crashRead_of_none hacc hlen, fun c hc hended hoff hsome hmost hpad =>
      ⟨crashRead_of_some hacc hlen hc hended hoff hsome hmost hpad, crashBytes_take s c⟩⟩

end Sys2Proof.Proofs

/-! PROOFS. Event queues, the clock and the life log (16 R366 to R381) and reset (19 R423; 20 R445, R446): what a record does to its
queue, what a nanosecond changes, what a sample and a save leave, and what a release of RESET_N restarts. -/

namespace Sys2Proof.Proofs

open Sys2Proof Sys2Proof.Machine Sys2Proof.Laws

/-! ### One place of a list and one die replaced -/

theorem getElem?_modifyAt {α : Type} (l : List α) (i k : Nat) (f : α → α) :
    (modifyAt l i f)[k]? = if k = i then l[k]?.map f else l[k]? := by
  rw [modifyAt, List.getElem?_map, List.getElem?_zipIdx]
  by_cases h : k = i <;> cases l[k]? <;> simp [h]

theorem getD_modifyAt {α : Type} (l : List α) {i k : Nat} (f : α → α) (a : α) (hk : k < l.length) :
    (modifyAt l i f).getD k a = if k = i then f (l.getD k a) else l.getD k a := by
  rw [List.getD_eq_getElem?_getD, List.getD_eq_getElem?_getD, getElem?_modifyAt, List.getElem?_eq_getElem hk]
  split <;> rfl

theorem die_onDie_same {s : State} {d : Nat} (h : d < s.dies.length) (f : Die → Die) : (s.onDie d f).die d = f (s.die d) := by
  rw [State.die, onDie_dies, getD_modifyAt _ _ _ h, if_pos rfl, State.die]

theorem die_onDie_of_ne (s : State) {d i : Nat} (h : i ≠ d) (f : Die → Die) : (s.onDie d f).die i = s.die i := by
  rw [State.die, onDie_dies, List.getD_eq_getElem?_getD, getElem?_modifyAt, if_neg h, ← List.getD_eq_getElem?_getD, State.die]

theorem die_onDies (s : State) (f : Die → Die) (d : Nat) :
    (s.onDies f).die d = if d < s.dies.length then f (s.die d) else s.die d := by
  rw [State.die, State.die, onDies_dies, List.getD_eq_getElem?_getD, List.getD_eq_getElem?_getD, List.getElem?_map]
  split <;> rename_i h
  · rw [List.getElem?_eq_getElem h]; rfl
  · rw [List.getElem?_eq_none (Nat.not_lt.mp h)]; rfl

/-- A sticky bit that is set stands in the register (16 R378). -/
theorem stick_sticky_and (e : Die) (b : Sticky) : (e.stick b).sticky &&& (1#64 <<< b.bit) = 1#64 <<< b.bit := by
  rw [Die.stick]
  ext i hi
  rw [BitVec.getElem_and, BitVec.getElem_or]
  cases (1#64 <<< b.bit)[i]
  · exact Bool.and_false _
  · rw [Bool.or_true, Bool.and_true]

/-! ### The order of a queue (16 R374) -/

theorem eventLe_iff (a b : EventRec) : EventRec.le a b = true ↔
    a.gts.toNat < b.gts.toNat ∨ a.gts.toNat = b.gts.toNat ∧ a.src.toNat ≤ b.src.toNat := by
  simp [EventRec.le, BitVec.toNat_eq]

theorem eventLe_trans {a b c : EventRec} (hab : EventRec.le a b = true) (hbc : EventRec.le b c = true) : EventRec.le a c = true := by
  rw [eventLe_iff] at *
  omega

theorem eventLe_of_not {a b : EventRec} (h : ¬ EventRec.le a b = true) : EventRec.le b a = true := by
  rw [eventLe_iff] at *
  omega

theorem eventInsert_perm (r : EventRec) (l : List EventRec) : (r.insert l).Perm (r :: l) := by
  induction l with
  | nil => exact List.Perm.refl _
  | cons x xs ih =>
    rw [EventRec.insert]
    split
    · exact (ih.cons x).trans (List.Perm.swap r x xs)
    · exact List.Perm.refl _

theorem sublist_eventInsert (r : EventRec) (l : List EventRec) : l.Sublist (r.insert l) := by
  induction l with
  | nil => exact List.nil_sublist _
  | cons x xs ih =>
    rw [EventRec.insert]
    split
    · exact ih.cons_cons x
    · exact List.sublist_cons_self r _

theorem eventInsert_ordered (r : EventRec) {l : List EventRec} (h : l.Pairwise fun a b => EventRec.le a b = true) :
    (r.insert l).Pairwise fun a b => EventRec.le a b = true := by
  induction l with
  | nil => exact List.pairwise_singleton _ r
  | cons x xs ih =>
    obtain ⟨hx, hxs⟩ := List.pairwise_cons.mp h
    rw [EventRec.insert]
    split
    case isTrue hle =>
      refine List.pairwise_cons.mpr ⟨fun y hy => ?_, ih hxs⟩
      rcases List.mem_cons.mp ((eventInsert_perm r xs).mem_iff.mp hy) with rfl | hy
      · exact hle
      · exact hx y hy
    case isFalse hnot =>
      have hrx := eventLe_of_not hnot
      refine List.pairwise_cons.mpr ⟨fun y hy => ?_, h⟩
      rcases List.mem_cons.mp hy with rfl | hy
      · exact hrx
      · exact eventLe_trans hrx (hx y hy)

/-- A queue with room and no discards takes a record (16 R375). -/
theorem record_of_room {e : Die} (hroom : e.events.length < 4096) (hkept : e.discarded = 0) (r : EventRec) :
    e.record r = { e with events := r.insert e.events } := by
  simp [Die.record, hroom, hkept]

/-- A queue that is full, or has discarded since it was, discards a record and sets EVQ_OVERFLOW (16 R375). -/
theorem record_of_overflow {e : Die} (h : 4096 ≤ e.events.length ∨ e.discarded ≠ 0) (r : EventRec) :
    e.record r = { e with discarded := e.discarded + 1, sticky := e.sticky ||| 1, fresh := e.fresh ||| 1 } := by
  have hnot : (decide (e.events.length < 4096) && e.discarded == 0) = false := by
    rcases h with h | h
    · simp [Nat.not_lt.mpr h]
    · simp [h]
  simp [Die.record, hnot, Die.stick, Sticky.bit]

/-- Settles O17: the record of one die, by the queue's insertion or its overflow. -/
theorem eventQueueTakesOrDiscards : Obligations.EventQueueTakesOrDiscards := by
  unfold Obligations.EventQueueTakesOrDiscards
  intro s d blk code arg hd e r t
  have hdie : t.die d = e.record r := die_onDie_same hd _
  refine ⟨fun i hi => die_onDie_of_ne s hi _, fun hroom hkept => ?_, fun hover => hdie.trans (record_of_overflow hover r)⟩
  rw [hdie, record_of_room hroom hkept]
  exact ⟨rfl, eventInsert_perm r _, eventInsert_ordered r, sublist_eventInsert r _⟩

/-! ### A nanosecond ends the cycle (00 R8; log 9, log 92) -/

/-- Once a nanosecond has passed no sticky bit counts as just set. -/
theorem fresh_nanosecond {s : State} (h : s.counts = true) {d : Nat} (hd : d < s.dies.length) : (s.nanosecond.die d).fresh = 0 := by
  have hdies : s.nanosecond.dies = s.cycleOver.dies := by
    unfold State.nanosecond
    rw [if_pos h]
  rw [State.die, hdies, ← State.die, State.cycleOver, die_onDies, if_pos hd]

/-- A running part with no command waiting, and a sticky bit of die 0 set since the last nanosecond. -/
def justStuck : State := ({ State.reset with phase := .running } : State).stick 0 .evqOverflow

/-- Refutes O46: with no command waiting a nanosecond changes more than GTS and the place in the slewing cycle. It also ends the cycle in
which a sticky bit was set, so the bit set at `justStuck` is no longer marked as just set. -/
theorem not_timeIsReadAndAligned : ¬ Obligations.TimeIsReadAndAligned := by
  unfold Obligations.TimeIsReadAndAligned
  rintro ⟨-, -, -, -, hpass, -⟩
  have hstep : step justStuck = .next justStuck.nanosecond := rfl
  have hsame := Host.Outcome.next.inj (hstep.symm.trans (hpass justStuck rfl rfl rfl))
  have hcleared : (justStuck.nanosecond.die 0).fresh = 0 := fresh_nanosecond rfl (by decide)
  rw [hsame] at hcleared
  exact absurd hcleared (by decide)

/-! ### Reset and the boot mode (19 R423, R424; 20 R445, R446, R453) -/

/-- What a release of RESET_N restarts and what it keeps of state `s`, whatever mode it samples. -/
structure Restarted (s : State) (m : BitVec 2) (t : State) : Prop where
  mode : t.bootMode = m
  gts : t.gts = 0
  sessions : t.sessions = []
  streams : t.streams = []
  jobs : t.jobs = []
  threads : t.threads = []
  qps : t.qps = []
  recoveries : t.recoveries = []
  crash : t.crash = []
  pending : t.pending = s.pending
  flash : t.flash = s.flash
  part : t.part = s.part
  out : t.out = s.out
  dies : ∀ d, (t.die d).events = [] ∧ (t.die d).sticky = 0 ∧ (t.die d).cnt = List.replicate 14 0 ∧
    (d < s.dies.length → (t.die d).testLock = (s.die d).testLock)

/-- The state a release of RESET_N starts a mode from. -/
def released (s : State) (m : BitVec 2) : State := { s.powerOn with bootMode := m }

/-- The boot or the hold that a mode begins (19 R423). -/
def entered (t : State) (m : BitVec 2) : State :=
  match m.toNat with
  | 0 => t.bootFromFlash
  | 1 => t.levelRollback.bootEnds .netRecovery 1 0 0
  | 2 => if (t.die 0).testLock then t.bootEnds .idle 0 8 0 else { t with phase := .testAccess }
  | _ => t.bootEnds .idle 0 8 0

theorem die_released (s : State) (m : BitVec 2) (d : Nat) :
    (released s m).die d = if d < s.dies.length then (s.die d).powerOn (s.flash.portRecord d) else {} :=
  getD_map_zipIdx s.dies (fun e i => e.powerOn (s.flash.portRecord i)) d {}

theorem restarted_released (s : State) (m : BitVec 2) : Restarted s m (released s m) where
  mode := rfl
  gts := rfl
  sessions := rfl
  streams := rfl
  jobs := rfl
  threads := rfl
  qps := rfl
  recoveries := rfl
  crash := rfl
  pending := rfl
  flash := rfl
  part := rfl
  out := rfl
  dies d := by
    rw [die_released]
    split
    · exact ⟨rfl, rfl, rfl, fun _ => rfl⟩
    · next h => exact ⟨rfl, rfl, rfl, fun hd => absurd hd h⟩

section
variable {s t : State} {m : BitVec 2}

theorem Restarted.bootEnds (h : Restarted s m t) (ph : Phase) (source result die : Nat) :
    Restarted s m (t.bootEnds ph source result die) := { h with }

/-- What the boot changes of every die is neither a record nor the test lock. -/
theorem Restarted.onDies (h : Restarted s m t) {f : Die → Die}
    (hf : ∀ e, f e = { e with rollback := (f e).rollback, checked := (f e).checked, trained := (f e).trained }) :
    Restarted s m (t.onDies f) :=
  { h with
    dies := fun d => by
      rw [die_onDies]
      split
      · rw [hf]
        exact h.dies d
      · exact h.dies d }

theorem Restarted.levelRollback (h : Restarted s m t) : Restarted s m t.levelRollback := h.onDies fun _ => rfl

theorem Restarted.bootFromFlash (h : Restarted s m t) : Restarted s m t.bootFromFlash := by
  unfold State.bootFromFlash
  split
  · exact h.bootEnds _ _ _ _
  · exact { h.levelRollback.onDies (f := fun e => { e with checked := false, trained := false }) fun _ => rfl with }

theorem Restarted.entered (h : Restarted s m t) : Restarted s m (entered t m) := by
  unfold Proofs.entered
  split
  · exact h.bootFromFlash
  · exact h.levelRollback.bootEnds _ _ _ _
  · split
    · exact h.bootEnds _ _ _ _
    · exact { h with }
  · exact h.bootEnds _ _ _ _

theorem bootFromFlash_of_agreed (h : t.ownerDiffers = none) : t.bootFromFlash.phase = .checking := by
  rw [State.bootFromFlash, h]

theorem bootFromFlash_of_differing {d : Nat} (h : t.ownerDiffers = some d) : t.bootFromFlash = t.bootEnds .netRecovery 1 6 d := by
  rw [State.bootFromFlash, h]

/-- The mode is entered from the state after a power-on reset, unless the part has tripped (20 R453). -/
theorem resetNRelease_of_held (hlow : s.resetN = false) (hphase : s.phase ≠ .tripped) (m : BitVec 2) :
    exec (.resetNRelease m) s = .next (entered (released s m) m) := by
  show execResetNRelease m s = _
  rw [execResetNRelease, hlow, if_neg Bool.false_ne_true, if_neg hphase]
  rfl

theorem resetNRelease_of_tripped (hlow : s.resetN = false) (hphase : s.phase = .tripped) (m : BitVec 2) :
    exec (.resetNRelease m) s = .next { s with resetN := true } := by
  show execResetNRelease m s = _
  rw [execResetNRelease, hlow, if_neg Bool.false_ne_true, if_pos hphase]

theorem testAccess_phase (hdies : 0 < s.dies.length) :
    (entered (released s 2) 2).phase = if (s.die 0).testLock then .idle else .testAccess := by
  have hlock : ((released s 2).die 0).testLock = (s.die 0).testLock := by
    rw [die_released, if_pos hdies]
    rfl
  show (if ((released s 2).die 0).testLock then (released s 2).bootEnds .idle 0 8 0
    else { released s 2 with phase := .testAccess } : State).phase = _
  rw [hlock]
  split <;> rfl

/-- A pulse of a microsecond or more holds the part in reset. -/
theorem resetNAssert_of_long {w : Nat} (hw : 1000 ≤ w) : exec (.resetNAssert w) s = .next s.holdReset := by
  show execResetNAssert w s = _
  rw [execResetNAssert, if_neg (Nat.not_lt.mpr hw)]

theorem resetNAssert_of_short {w : Nat} (hw : w < 1000) : exec (.resetNAssert w) s = .next s := by
  show execResetNAssert w s = _
  rw [execResetNAssert, if_pos hw]

theorem holdReset_of_tripped (h : s.phase = .tripped) : s.holdReset = { s with resetN := false } := by
  rw [State.holdReset, if_pos h]

theorem holdReset_of_untripped (h : s.phase ≠ .tripped) : s.holdReset = { s with resetN := false, phase := .inReset } := by
  rw [State.holdReset, if_neg h]

end

/-- Settles O48: RESET_N and PWR_GOOD by the states they hold, and a release by `Restarted` and the mode it enters. -/
theorem resetAndBootModes : Obligations.ResetAndBootModes := by
  unfold Obligations.ResetAndBootModes
  refine ⟨fun s w => ⟨resetNAssert_of_short, fun hw => ⟨_, resetNAssert_of_long hw, ?_⟩⟩, fun s => ?fall, fun s m hlow =>
    ⟨fun hphase => resetNRelease_of_tripped hlow hphase m, fun hphase => ⟨_, resetNRelease_of_held hlow hphase m, ?_⟩⟩⟩
  · by_cases h : s.phase = .tripped
    · rw [holdReset_of_tripped h]
      exact ⟨rfl, fun hnot => absurd h hnot, fun _ => h, rfl⟩
    · rw [holdReset_of_untripped h]
      exact ⟨rfl, fun _ => rfl, fun htrip => absurd htrip h, rfl⟩
  case fall =>
    refine ⟨_, rfl, ?_⟩
    split <;> exact ⟨rfl, rfl, rfl, rfl, rfl⟩
  · have h := (restarted_released s m).entered
    refine ⟨h.mode, h.gts, h.sessions, h.streams, h.jobs, h.threads, h.qps, h.recoveries, h.crash, h.pending, h.flash, h.part, h.out,
      h.dies, ?flash, ?network, ?access, ?hold⟩
    case flash =>
      rintro rfl
      refine ⟨fun hagree => bootFromFlash_of_agreed hagree, fun d hdiffer => ?_⟩
      rw [show entered (released s 0) 0 = _ from bootFromFlash_of_differing (t := released s 0) hdiffer]
      exact ⟨rfl, rfl, rfl, rfl⟩
    case network =>
      rintro rfl
      exact ⟨rfl, rfl, rfl⟩
    case access =>
      rintro rfl hdies
      exact testAccess_phase hdies
    case hold =>
      rintro rfl
      exact ⟨rfl, rfl⟩

/-! ### The life log (16 R379 to R381) -/

section
variable {s : State}

theorem firmwareRuns_of_running (hphase : s.phase = .running) (hpackage : s.packageRecovering = false) : s.firmwareRuns = true := by
  simp [State.firmwareRuns, hphase, hpackage]

/-- The temperature counts after a sample: one more in the bin of each die's PWR_TJ (16 R380). -/
def sampledTemps (s : State) : List (List Nat) :=
  s.lifeLog.temps.zipIdx.map fun p =>
    if p.2 < s.dieCount then modifyAt p.1 (tempBin (signed 16 (s.die p.2).pwrTj.toNat)) fun n => sat32 (n + 1) else p.1

/-- A sample while the firmware runs changes the life log alone. -/
theorem lifelogSample_of_runs (hruns : s.firmwareRuns = true) (dev : List Int) : ∃ l : LifeLog,
    exec (.lifelogSample dev) s = .next { s with lifeLog := l } ∧ l.seconds = sat64 (s.lifeLog.seconds + 1) ∧
      l.recoveries = s.lifeLog.recoveries ∧ l.saveSeq = s.lifeLog.saveSeq ∧ l.temps = sampledTemps s := by
  show ∃ l : LifeLog, execLifelogSample dev s = _ ∧ _
  rw [execLifelogSample, hruns, Bool.not_true, if_neg Bool.false_ne_true]
  exact ⟨_, rfl, rfl, rfl, rfl, rfl⟩

theorem sampledTemps_getElem? {d : Nat} {row : List Nat} (hd : d < s.dieCount) (hrow : s.lifeLog.temps[d]? = some row) :
    (sampledTemps s)[d]? = some (modifyAt row (tempBin (signed 16 (s.die d).pwrTj.toNat)) fun n => sat32 (n + 1)) := by
  rw [sampledTemps, List.getElem?_map, List.getElem?_zipIdx, hrow]
  simp [hd]

/-- A bin below saturation after a sample counts one more if it is the bin sampled. -/
theorem getD_modifyAt_sat32 {row : List Nat} {b bin : Nat} (hb : b < row.length) (hsat : row.getD b 0 < 2 ^ 32 - 1) :
    (modifyAt row bin fun n => sat32 (n + 1)).getD b 0 = row.getD b 0 + if b = bin then 1 else 0 := by
  rw [getD_modifyAt _ _ _ hb]
  split
  · exact Nat.min_eq_left (by omega)
  · rfl

theorem lifelogSaveTimer_of_due (hruns : s.firmwareRuns = true) (hdue : s.lifAt + 21600000000000 ≤ s.gts) :
    exec .lifelogSaveTimer s = .next s.startLifSave := by
  show execLifelogSaveTimer s = _
  simp [execLifelogSaveTimer, hruns, hdue]

theorem lifelogSaveTimer_of_early (h : s.gts < s.lifAt + 21600000000000) : exec .lifelogSaveTimer s = .next s := by
  show execLifelogSaveTimer s = _
  simp [execLifelogSaveTimer, Nat.not_le.mpr h]

theorem startLifSave_of_idle (h : s.lifBusy = false) : s.startLifSave = { s with
    lifBusy := true, lifSaving := { s.lifeLog with saveSeq := s.lifeLog.saveSeq + 1, saveGts := s.gts }, lifAt := s.gts } := by
  simp [State.startLifSave, h]

theorem startLifSave_of_busy (h : s.lifBusy = true) : s.startLifSave = { s with lifAgain := true } := by
  simp [State.startLifSave, h]

/-- A save whose read-back succeeds stands in front of those in flash (16 R381). -/
theorem lifelogSaveComplete_of_good (hbusy : s.lifBusy = true) (hcounts : s.counts = true) (hlast : s.lifAgain = false) :
    exec (.lifelogSaveComplete true) s = .next { s with
      lifBusy := false, lifOk := true
      lifeLog := { s.lifeLog with saveSeq := s.lifSaving.saveSeq, saveGts := s.lifSaving.saveGts }
      flash := { s.flash with lifeLog := (s.lifSaving :: s.flash.lifeLog).take 512 } } := by
  show execLifelogSaveComplete true s = _
  simp [execLifelogSaveComplete, hbusy, hcounts, hlast]

/-- A save whose read-back fails sets LIFELOG_FAIL and leaves flash (16 R381). -/
theorem lifelogSaveComplete_of_bad (hbusy : s.lifBusy = true) (hcounts : s.counts = true) (hlast : s.lifAgain = false) :
    exec (.lifelogSaveComplete false) s = .next { s.stick 0 .lifelogFail with lifBusy := false, lifOk := false } := by
  show execLifelogSaveComplete false s = _
  simp [execLifelogSaveComplete, hbusy, hcounts, hlast]

/-- An accepted LIFELOG_READ inside the image answers its bytes (13 R308). -/
theorem lifelogRead_of_accepted {d : Datagram} {x : Session} (hacc : Accepted s d 0x0053 false none none x) (hlen : d.params.length = 8)
    (hoff : beAt d.params 0 4 < 65536) (hsome : 0 < beAt d.params 4 2) (hmost : beAt d.params 4 2 ≤ 4088) (hpad : beAt d.params 6 2 = 0) :
    exec (.lifelogRead d) s = .next ((s.heard x).answer d 0x0053 (.good (beBytes 4 65536 ++ zeros 4 ++
      slice (s.lifeLog.image s.part.number) (beAt d.params 0 4) (min (beAt d.params 4 2) (65536 - beAt d.params 0 4))))) := by
  have hcount : ¬ (beAt d.params 4 2 = 0 ∨ 4088 < beAt d.params 4 2) := by omega
  show execLifelogRead d s = _
  unfold execLifelogRead
  rw [serve_accepted hacc]
  simp only [hlen, Nat.not_le.mpr hoff, hcount, hpad, ne_eq, not_true_eq_false, if_false]
  rfl

end

/-- Settles O50: a sample by the rows it counts in, a save by its start and its two ends, and a read by the image it slices. -/
theorem lifeLogIsKept : Obligations.LifeLogIsKept := by
  unfold Obligations.LifeLogIsKept
  refine ⟨?sample, ?timer, ?complete, ?read⟩
  case sample =>
    intro s dev hphase hpackage hsat
    obtain ⟨l, hexec, hseconds, hrecoveries, hseq, htemps⟩ := lifelogSample_of_runs (firmwareRuns_of_running hphase hpackage) dev
    refine ⟨_, hexec, rfl, hseconds.trans (Nat.min_eq_left (by omega)), hrecoveries, hseq, fun d row hd hrow hlen => ?_⟩
    exact ⟨_, htemps ▸ sampledTemps_getElem? hd hrow, fun b hb hbin => getD_modifyAt_sat32 (hlen.symm ▸ hb) hbin⟩
  case timer =>
    refine fun s hphase hpackage => ⟨fun hdue =>
      ⟨_, lifelogSaveTimer_of_due (firmwareRuns_of_running hphase hpackage) hdue, ?_⟩, lifelogSaveTimer_of_early⟩
    cases hbusy : s.lifBusy with
    | false =>
      rw [startLifSave_of_idle hbusy]
      exact ⟨rfl, rfl, rfl, fun _ => rfl, fun h => absurd h Bool.false_ne_true⟩
    | true =>
      rw [startLifSave_of_busy hbusy]
      exact ⟨hbusy, rfl, rfl, fun h => absurd h.symm Bool.false_ne_true, fun _ => ⟨rfl, rfl⟩⟩
  case complete =>
    refine fun s hbusy hcounts hlast hdies => ⟨⟨_, lifelogSaveComplete_of_good hbusy hcounts hlast, rfl, rfl, rfl, rfl, rfl, rfl⟩,
      _, lifelogSaveComplete_of_bad hbusy hcounts hlast, rfl, rfl, rfl, ?_, rfl⟩
    have hdie : (s.stick 0 .lifelogFail).die 0 = (s.die 0).stick .lifelogFail := die_onDie_same (hdies ▸ by decide) _
    exact (congrArg (fun e : Die => e.sticky &&& 0x40000) hdie).trans (stick_sticky_and _ .lifelogFail)
  case read => exact fun s d x hacc hlen hoff hsome hmost hpad => lifelogRead_of_accepted hacc hlen hoff hsome hmost hpad

end Sys2Proof.Proofs
